-- ==== Sys2Proof/Word.lean ====
section
/-! DEFINITION. The word types of the Svamekin (spec 00 R5, R7) and the sparse table every part of the state is
kept in: a list of (key, value) pairs with strictly rising keys. -/
namespace Sys2Proof

/-- A byte, half, word, double (R5). -/
abbrev Byte := BitVec 8
abbrev Half := BitVec 16
abbrev Word := BitVec 32
abbrev Dbl := BitVec 64

/-- A set of lanes of a team: bit n is thread n, mask word i is bits [32i+31 : 32i] (R18). -/
abbrev LaneSet := BitVec 1024

/-- A sparse table by number. -/
abbrev Tbl (α : Type) := List (Nat × α)

end Sys2Proof
end

