-- ==== Sys2Proof/Config.lean ====
section
/-! DEFINITION. What an implementation fixes and the manual leaves open: constants WITHOUT a body, so that no proof can
rest on a value of one, and the figures of the manual (R2) that the rules count with. -/
namespace Sys2Proof.Config

/-- FREE VALUE (log 3). What the byte at `addr` holds while no write has reached it since its frame was given to its
present use (R165, R184, R189); the stamp tells one such use from another. -/
opaque freeByte (stamp addr : Nat) : BitVec 8

/-- FREE VALUE (log 5). How many ac beyond one pass on a device's clock during a step (R116: each device counts on its
own, and no figure is given). -/
opaque elapsed (device now : Nat) : Nat

/-- FREE VALUE (log 13). Whether the monitor table of a Tabor has a free entry for a watch (R150 gives no size). -/
opaque monitorFree (stamp : Nat) : Bool

/-- FREE VALUE (log 12). A 64-bit value the manual promises nothing about. -/
opaque freeDbl (stamp : Nat) : BitVec 64

/-- FREE VALUE (log 17). Whether chunk `c` of an aborted collective's buffer was already written (R242). -/
opaque chunkWritten (stamp chunk : Nat) : Bool

/-- FREE VALUE (log 24). The frame of the root table that firmware sets for a region of the contexts of a launch (R184). -/
opaque rootTable (device vf launch region : Nat) : Nat

/-- FREE VALUE (log 25). The key slot (less 1) that the root core assigns to the context images of a VF (R189, R331). -/
opaque keySlot (device vf : Nat) : Nat

/-- FREE VALUE (log 24). The page-table pages and the storage pages that firmware gives a context's region 1, as numbers of 4 KiB
pages of device memory, and whether it has pages to give (R185). -/
opaque tablePage (stamp : Nat) : BitVec 40
opaque privatePage (stamp : Nat) : BitVec 40
opaque privateRoom (stamp : Nat) : Bool

/-- FREE VALUE (log 36). Which frame of a tier a site takes next, and the device address of a frame of a tier in units of 2 MiB:
the manual gives no layout of device memory (R172). -/
opaque framePick (stamp : Nat) : Nat
opaque frameAddr (device die : Nat) (tier2 : Bool) (frame : Nat) : Nat

/-- FREE VALUE (log 16). Which of some lines leaves a full cache. -/
opaque victim (stamp : Nat) : Nat

/-- FREE VALUE (log 37). How many requests the Flume queue of a site holds (R137 gives no size). -/
opaque flumeQueue : Nat

/-- FREE VALUE (log 38). The area firmware assigns to a context image (a device physical address), its bytes under encryption and
its digest (R282). -/
opaque imageArea (stamp : Nat) : BitVec 52
opaque imageDigest (stamp : Nat) : BitVec 64

/-- FREE VALUE (log 26). A fault-log entry as FAULT.read moves it, and its size in bytes: R321 gives no layout. -/
opaque faultEntry (ordinal count lane cause : Nat) : BitVec 512
opaque faultEntrySize : BitVec 6

/-- FREE VALUE (log 38). How many bytes the image of a context takes. -/
opaque imageBytes (stamp : Nat) : Nat

/-- FREE VALUE (log 48). Whether a kernel carries the vendor's signature over a collective service kernel (R268). -/
opaque vendorSigned (device : Nat) (kernel : BitVec 64) : Bool

/-- FREE VALUE (log 30). The UDP source port that stands for a path of a queue pair (R324). -/
opaque udpPort (device qp path : Nat) : BitVec 16

/-- What is fused into a device (R329, R330): its serial, the measurement of its ROM, its rollback counter, and whether a
signature over a digest is the vendor's. -/
opaque deviceSerial (device : Nat) : BitVec 64
opaque romDigest (device : Nat) : BitVec 256
opaque rollback (device : Nat) : Nat
opaque verifies (device : Nat) (digest : BitVec 256) (sig : Nat) : Bool

/-- FREE VALUE (log 26). The measurement of the configuration of a device (R330), and the 2,420-byte ML-DSA-44 signature of its
identity key over some bytes. -/
opaque configDigest (stamp : Nat) : BitVec 256
opaque signature (device : Nat) (content : List (BitVec 8)) : BitVec 19360

/-- The measurement of firmware that was running before the machine's first step (R330): root firmware, then each VF's (log 26). -/
opaque fwDigest (device image : Nat) : BitVec 256

/-- FREE VALUE (log 36). Where a device physical address lies: below 12, a pile (6 for each die); 12 and 13, the share of tier 2
of each die (R2, R323). -/
opaque dramPlace (device addr : Nat) : Nat

/-- The implementation's fixed hash of R295: uniform over 0 to 2^16 - 1 for a target device and a line (log 15). -/
opaque planeHash (device line : Nat) : Nat

/-- The implementation's fixed hash of R178 that selects one of the 8,192 locator sets for a GOID (log 11). -/
opaque locatorHash (goid : Nat) : Nat

/-- Bytes of the copies a die's L2 holds (R2, R13), and of the SRAM of a context slot (R25). -/
def l2Bytes : Nat := 134217728
def slotSram : Nat := 393216
/-- ac between two checks of a watch without a monitor (R150). -/
def recheckAc : Nat := 4096
/-- Frames of tier 1 at a site: 6 piles of 16 dies of 3 GiB, in 2 MiB frames (R2, R172; log 14). -/
def tier1Frames : Nat := 147456
/-- Frames of the site's share of tier 2: half of 2 TiB, in 2 MiB frames (R2, R172; log 14). -/
def tier2Frames : Nat := 524288
/-- Serials of a birth site (R171). -/
def serials : Nat := 524288
/-- Entries of a site's object table (R172). -/
def objectTable : Nat := 524288
/-- Entries of the ready pool (R258). -/
def readyPool : Nat := 65536
/-- Length of an affinity and stub window in ac (R175, R191). -/
def windowAc : Nat := 1048576
/-- Bytes of a frame (R172). -/
def frameBytes : Nat := 2097152
/-- Constituents of a combined request (R299). -/
def combineMax : Nat := 8
/-- Entries of a combining table, records of a record table, receipts of a die (R299, R300). -/
def combineEntries : Nat := 256
def recordEntries : Nat := 4096
def receiptEntries : Nat := 1024
/-- Entries of the predictor table of a VF (R269). -/
def predictorEntries : Nat := 4096

end Sys2Proof.Config
end

