-- ==== Sys2Proof/Syntax.lean ====
section
/-! DEFINITION. The instructions and events of spec/opcode_table.json: ONE inductive `Instr`, one constructor per row.
A row with an encoding carries the operand fields of its format (spec 05 R69-R82); a row without one is an event of the
machine (95_what_each_step_holds.md) and carries what it acts on. -/
namespace Sys2Proof

/-- R69: a 16-bit integer form: vd := vd op vs, or vd op imm5 when i is set. -/
structure C16 where
  i : Bool
  s : BitVec 5
  d : BitVec 5
deriving DecidableEq, Repr

/-- R69: a 16-bit float form, whose i is 0. -/
structure C16F where
  s : BitVec 5
  d : BitVec 5
deriving DecidableEq, Repr

/-- R70 L3: guard, vb, va, vd. -/
structure L3 where
  g : BitVec 3
  b : BitVec 7
  a : BitVec 7
  d : BitVec 7
deriving DecidableEq, Repr

/-- R70 RI: imm10, va, vd. -/
structure RI where
  imm : BitVec 10
  a : BitVec 7
  d : BitVec 7
deriving DecidableEq, Repr

/-- R72: the RI form of MOV, whose va field is zero. -/
structure RIMov where
  imm : BitVec 10
  d : BitVec 7
deriving DecidableEq, Repr

/-- R70 RK: kb, ka, kd. -/
structure RK where
  b : BitVec 6
  a : BitVec 6
  d : BitVec 6
deriving DecidableEq, Repr

/-- R73: KMOV, whose kb is zero. -/
structure RKMov where
  a : BitVec 6
  d : BitVec 6
deriving DecidableEq, Repr

/-- R73: KCMP with its condition in minor6. -/
structure RKCmp where
  c : BitVec 6
  b : BitVec 6
  a : BitVec 6
  d : BitVec 6
deriving DecidableEq, Repr

/-- R70 B for BRA: offset, negate, predicate. -/
structure BraB where
  off : BitVec 20
  n : Bool
  p : BitVec 3
deriving DecidableEq, Repr

/-- R70 B for CALL and DIV, whose bits [11:8] are zero. -/
structure JmpB where
  off : BitVec 20
deriving DecidableEq, Repr

/-- R70 M: guard, imm7, va (base pair), vd or vs. -/
structure Mem32 where
  g : BitVec 3
  imm : BitVec 7
  a : BitVec 7
  d : BitVec 7
deriving DecidableEq, Repr

/-- R74 A64. `m` is the minor with the index bits of R75 cleared: the modifiers. -/
structure A64 where
  pb : BitVec 8
  pa : BitVec 8
  n : Bool
  g : BitVec 3
  vc : BitVec 7
  vb : BitVec 7
  va : BitVec 7
  vd : BitVec 7
  m : BitVec 8
deriving DecidableEq, Repr

/-- R74 I64. `m` is the minor with the index bits cleared. -/
structure I64 where
  imm : BitVec 32
  n : Bool
  g : BitVec 3
  va : BitVec 7
  vd : BitVec 7
  m : BitVec 6
deriving DecidableEq, Repr

/-- R74 M64. `m` is the minor with the index bits cleared. -/
structure M64 where
  imm : BitVec 20
  sc : BitVec 3
  n : Bool
  g : BitVec 3
  vi : BitVec 7
  va : BitVec 7
  vd : BitVec 7
  m : BitVec 8
deriving DecidableEq, Repr

/-- R74 E64. `m` is the minor with the index bits cleared. -/
structure E64 where
  fl : BitVec 4
  tb : BitVec 6
  kq : BitVec 6
  kp : BitVec 6
  sh : BitVec 5
  fb : BitVec 5
  fa : BitVec 5
  h : BitVec 3
  x2 : BitVec 4
  x1 : BitVec 4
  m : BitVec 8
deriving DecidableEq, Repr

/-- R74 J64: four offsets and four conditions. -/
structure J64 where
  o3 : BitVec 10
  o2 : BitVec 10
  o1 : BitVec 10
  o0 : BitVec 10
  c3 : BitVec 4
  c2 : BitVec 4
  c1 : BitVec 4
  c0 : BitVec 4
deriving DecidableEq, Repr

/-- R25, R116 %ctx: the slot of a core a context is placed in. -/
inductive SlotSel where
  | a | b | wide
deriving DecidableEq, Repr

/-- Names a copy or gather operation: its block, its queue, its timeline number (R223). -/
structure EngRef where
  block : Nat
  gather : Bool
  num : Nat
deriving DecidableEq, Repr

/-- R321: one call of a firmware service: the VF, the calling team for a SYS (none for an SVC slot), the argument
address. -/
structure SvcCall where
  dev : Nat
  vf : Nat
  team : Option Nat
  arg : Dbl
deriving DecidableEq, Repr

/-- R334: the registers of management: the step of bring-up reached (R332), whether the device is in recovery mode (R329), the
power measured and the reading of a sensor (R333), the power limit, the corrected errors counted for a VF (16: the PF, R280),
and the lines reported with an uncorrectable error (R323). -/
inductive MgmtReg where
  | step | recovery | power | sensor (n : Nat) | limit | corrected (vf : Nat) | uncorrected | mailbox
deriving DecidableEq, Repr

/-- What a host access reaches (R187, R313, R334): device physical memory through BAR 2 of the PF, read under a key slot, or the
bytes of an object; a region 3 page through BAR 2 of a VF, by a context and an address; BAR 0 of a VF; a management register
through BAR 0 of the PF or over I3C; or the host's own memory, where rings and arguments stand (log 27). -/
inductive HostPlace where
  | phys (dev slot addr : Nat)
  | object (ptr : Dbl)
  | page (ctx va : Nat)
  | vfBar (dev vf off : Nat)
  | mgmt (dev : Nat) (i3c : Bool) (reg : MgmtReg)
  | host (addr : Nat)
deriving DecidableEq, Repr

/-- A host read, write or AtomicOp: where, how many bytes (1, 2, 4, 8), the data, the comparand of a CAS. -/
structure HostAccess where
  place : HostPlace
  size : Nat
  data : Dbl
  compare : Dbl
deriving DecidableEq, Repr

/-- R313: the PCI Express AtomicOps. -/
inductive HostOp where
  | fetchAdd | swap | cas
deriving DecidableEq, Repr

/-- R289: what the debugger reads and writes of a halted team, and R286: the debug registers. -/
inductive DbgLoc where
  | lane (lane n : Nat) | pred (lane n : Nat) | uniform (n : Nat) | handle (n : Nat)
  | pc | mask (word : Nat) | special (num idx : Nat) | tile (n field : Nat) | tileLoaded (n : Nat)
  | frames | frameJoin (n : Nat) | frameArrived (n word : Nat) | frameSize (n : Nat)
  | framePc (n path : Nat) | frameLanes (n path word : Nat)
  | calls | callAddr (n : Nat) | callDepth (n : Nat) | barPhase (b : Nat) | barCount (b parity : Nat) | barOverrun (b : Nat)
  | barArrived (b member : Nat) | barCounted (b : Nat)
  | dba (n : Nat) | dbc (n : Nat) | dwb (n : Nat) | dwl (n : Nat) | dwc (n : Nat)
deriving DecidableEq, Repr

/-- The registers firmware writes for system software: R176, R261, R262, R267, R268, R297; a firmware ring by its control
block (R320), a Runnel region and a transfer that a queue pair is to send (R324) are registered in the same way (log 27). -/
inductive CfgReg where
  | osite (site : Nat) | vfsch (dev vf : Nat) | age (dev level : Nat) | slctl (plane port : Nat)
  | reservation (dev : Nat) | collCores (dev : Nat) | partition (dev die core vf : Nat)
  | ring (dev vf ring control : Nat) | region (dev key ctx : Nat) (base : Dbl) (bytes : Nat)
  | transfer (dev qp ctx : Nat) (src : Dbl) (bytes key off : Nat) (send : Bool)
  | systemNode (dev desc : Nat)
deriving DecidableEq, Repr

/-- R280: where a soft error appears. -/
inductive ErrLoc where
  | line (key : Nat) | laneReg (team lane n : Nat) | spad (block off : Nat) | acc (ctx slot : Nat)
  | l2 (site line : Nat) | tabor (site line : Nat) | record (plane port rec : Nat)
  | uniform (team n : Nat) | pred (team lane n : Nat) | tile (team n : Nat) | handle (team n : Nat) | book (ctx reg : Nat)
deriving DecidableEq, Repr

/-- R329: a firmware image: its version, its SHA3-256 digest, its signature. -/
structure FwImage where
  version : Nat
  digest : BitVec 256
  sig : Nat
deriving DecidableEq, Repr

/-- R329, R332: how a step of bring-up went, and the firmware images it ran. -/
structure Boot where
  ok : Bool
  images : List FwImage := []
deriving DecidableEq, Repr

/-- R323: a frame of a tier of a site. -/
structure FrameRef where
  tier2 : Bool
  frame : Nat
deriving DecidableEq, Repr

/-- R325, R327, R328: why a message is NACKed: packets are missing, retry later, retry after 10 µs, invalid key. -/
inductive Nack where
  | missing (packets : List Nat)
  | later
  | page
  | invalidKey
deriving DecidableEq, Repr

/-- R324, R327: a Runnel packet: source, queue pair, region key, offset, message, index, message length, payload, and
whether it is a send that needs a receive descriptor. -/
structure Packet where
  src : Nat
  qp : Nat
  key : Nat
  off : Nat
  msg : Nat
  idx : Nat
  len : Nat
  data : List Byte
  send : Bool
  /-- R324: the address it goes to, and the UDP source port, which selects its path. -/
  dst : Nat
  port : Nat
deriving DecidableEq, Repr

/-- R326: what the host sets in a queue pair: its number, its peer, and the region keys it may use. -/
structure QpConf where
  qp : Nat
  peer : Nat
  keys : List Nat
deriving DecidableEq, Repr

/-- The instructions and events, one constructor per row of spec/opcode_table.json. The rows without operands stand last
(compiled Lean builds constructors that hold fields only up to number 243). -/
inductive Instr where
  /-- MOV_C16 (R69). -/
  | movC16 (o : C16)
  /-- IADD_C16 (R69). -/
  | iaddC16 (o : C16)
  /-- ISUB_C16 (R69). -/
  | isubC16 (o : C16)
  /-- IMUL_C16 (R69). -/
  | imulC16 (o : C16)
  /-- IAND_C16 (R69). -/
  | iandC16 (o : C16)
  /-- IOR_C16 (R69). -/
  | iorC16 (o : C16)
  /-- IXOR_C16 (R69). -/
  | ixorC16 (o : C16)
  /-- ISHL_C16 (R69). -/
  | ishlC16 (o : C16)
  /-- ISHR_C16 (R69). -/
  | ishrC16 (o : C16)
  /-- ISAR_C16 (R69). -/
  | isarC16 (o : C16)
  /-- IMIN_C16 (R69). -/
  | iminC16 (o : C16)
  /-- IMAX_C16 (R69). -/
  | imaxC16 (o : C16)
  /-- FADD_C16 (R69). -/
  | faddC16 (o : C16F)
  /-- FSUB_C16 (R69). -/
  | fsubC16 (o : C16F)
  /-- FMUL_C16 (R69). -/
  | fmulC16 (o : C16F)
  /-- FMAX_C16 (R69). -/
  | fmaxC16 (o : C16F)
  /-- IADD_L3 (R72). -/
  | iaddL3 (o : L3)
  /-- ISUB_L3 (R72). -/
  | isubL3 (o : L3)
  /-- IMUL_L3 (R72). -/
  | imulL3 (o : L3)
  /-- IMULH_L3 (R72). -/
  | imulhL3 (o : L3)
  /-- IAND_L3 (R72). -/
  | iandL3 (o : L3)
  /-- IOR_L3 (R72). -/
  | iorL3 (o : L3)
  /-- IXOR_L3 (R72). -/
  | ixorL3 (o : L3)
  /-- ISHL_L3 (R72). -/
  | ishlL3 (o : L3)
  /-- ISHR_L3 (R72). -/
  | ishrL3 (o : L3)
  /-- ISAR_L3 (R72). -/
  | isarL3 (o : L3)
  /-- IMIN_L3 (R72). -/
  | iminL3 (o : L3)
  /-- IMAX_L3 (R72). -/
  | imaxL3 (o : L3)
  /-- FADD_L3 (R72). -/
  | faddL3 (o : L3)
  /-- FSUB_L3 (R72). -/
  | fsubL3 (o : L3)
  /-- FMUL_L3 (R72). -/
  | fmulL3 (o : L3)
  /-- IADD_RI (R72). -/
  | iaddRi (o : RI)
  /-- IAND_RI (R72). -/
  | iandRi (o : RI)
  /-- IOR_RI (R72). -/
  | iorRi (o : RI)
  /-- IXOR_RI (R72). -/
  | ixorRi (o : RI)
  /-- ISHL_RI (R72). -/
  | ishlRi (o : RI)
  /-- ISHR_RI (R72). -/
  | ishrRi (o : RI)
  /-- ISAR_RI (R72). -/
  | isarRi (o : RI)
  /-- MOV_RI (R72). -/
  | movRi (o : RIMov)
  /-- KMOV (R73). -/
  | kmov (o : RKMov)
  /-- KADD (R113). -/
  | kadd (o : RK)
  /-- KSUB (R113). -/
  | ksub (o : RK)
  /-- KMUL (R113). -/
  | kmul (o : RK)
  /-- KAND (R113). -/
  | kand (o : RK)
  /-- KOR (R113). -/
  | kor (o : RK)
  /-- KXOR (R113). -/
  | kxor (o : RK)
  /-- KSHL (R113). -/
  | kshl (o : RK)
  /-- KSHR (R113). -/
  | kshr (o : RK)
  /-- KSAR (R113). -/
  | ksar (o : RK)
  /-- KMIN (R113). -/
  | kmin (o : RK)
  /-- KMAX (R113). -/
  | kmax (o : RK)
  /-- KMIN_N (R113). -/
  | kminN (o : RK)
  /-- KMAX_N (R113). -/
  | kmaxN (o : RK)
  /-- KCMP (R73). -/
  | kcmp (o : RKCmp)
  /-- BRA (R119). -/
  | bra (o : BraB)
  /-- CALL (R123). -/
  | call (o : JmpB)
  /-- DIV (R118). -/
  | div (o : JmpB)
  /-- LD_B_M (R72). -/
  | ldBM (o : Mem32)
  /-- LD_H_M (R72). -/
  | ldHM (o : Mem32)
  /-- LD_W_M (R72). -/
  | ldWM (o : Mem32)
  /-- LD_D_M (R72). -/
  | ldDM (o : Mem32)
  /-- LD_Q_M (R72). -/
  | ldQM (o : Mem32)
  /-- ST_B_M (R72). -/
  | stBM (o : Mem32)
  /-- ST_H_M (R72). -/
  | stHM (o : Mem32)
  /-- ST_W_M (R72). -/
  | stWM (o : Mem32)
  /-- ST_D_M (R72). -/
  | stDM (o : Mem32)
  /-- ST_Q_M (R72). -/
  | stQM (o : Mem32)
  /-- BKPT (R125). -/
  | bkpt (imm : BitVec 16)
  /-- TRAP (R125). -/
  | trap (num : BitVec 6)
  /-- IADD (R100). -/
  | iadd (o : A64)
  /-- ISUB (R100). -/
  | isub (o : A64)
  /-- IMUL (R100). -/
  | imul (o : A64)
  /-- IMULH (R100). -/
  | imulh (o : A64)
  /-- IMAD (R100). -/
  | imad (o : A64)
  /-- IMIN (R100). -/
  | imin (o : A64)
  /-- IMAX (R100). -/
  | imax (o : A64)
  /-- IABS (R100). -/
  | iabs (o : A64)
  /-- IAND (R100). -/
  | iand (o : A64)
  /-- IOR (R100). -/
  | ior (o : A64)
  /-- IXOR (R100). -/
  | ixor (o : A64)
  /-- ISHL (R100). -/
  | ishl (o : A64)
  /-- ISHR (R100). -/
  | ishr (o : A64)
  /-- ISAR (R100). -/
  | isar (o : A64)
  /-- IROT (R100). -/
  | irot (o : A64)
  /-- IPOPC (R100). -/
  | ipopc (o : A64)
  /-- ICLZ (R100). -/
  | iclz (o : A64)
  /-- IBREV (R100). -/
  | ibrev (o : A64)
  /-- IBFX (R100). -/
  | ibfx (o : A64)
  /-- IBFI (R100). -/
  | ibfi (o : A64)
  /-- ISEL (R100). -/
  | isel (o : A64)
  /-- ICMP (R100). -/
  | icmp (o : A64)
  /-- MOV (R100). -/
  | mov (o : A64)
  /-- FADD (R102). -/
  | fadd (o : A64)
  /-- FSUB (R102). -/
  | fsub (o : A64)
  /-- FMUL (R102). -/
  | fmul (o : A64)
  /-- FFMA (R102). -/
  | ffma (o : A64)
  /-- FMIN (R132). -/
  | fmin (o : A64)
  /-- FMAX (R132). -/
  | fmax (o : A64)
  /-- FCMP (R103). -/
  | fcmp (o : A64)
  /-- FRCP (R102). -/
  | frcp (o : A64)
  /-- FRSQ (R102). -/
  | frsq (o : A64)
  /-- FEXP2 (R102). -/
  | fexp2 (o : A64)
  /-- FLOG2 (R102). -/
  | flog2 (o : A64)
  /-- FCLASS (R103). -/
  | fclass (o : A64)
  /-- FCVT (R105). -/
  | fcvt (o : A64)
  /-- I2F (R105). -/
  | i2f (o : A64)
  /-- F2I (R105). -/
  | f2i (o : A64)
  /-- FRND (R105). -/
  | frnd (o : A64)
  /-- SHFL (R108). -/
  | shfl (o : A64)
  /-- VOTE_ANY (R109). -/
  | voteAny (o : A64)
  /-- VOTE_ALL (R109). -/
  | voteAll (o : A64)
  /-- VOTE_BALLOT (R109). -/
  | voteBallot (o : A64)
  /-- VOTE_FFS (R109). -/
  | voteFfs (o : A64)
  /-- REDUX (R110). -/
  | redux (o : A64)
  /-- SCAN (R110). -/
  | scan (o : A64)
  /-- PADD (R106). -/
  | padd (o : A64)
  /-- PMAKE (R106). -/
  | pmake (o : A64)
  /-- PGOID (R106). -/
  | pgoid (o : A64)
  /-- POFF (R106). -/
  | poff (o : A64)
  /-- PLOP (R112). -/
  | plop (o : A64)
  /-- PMOV_GET (R112). -/
  | pmovGet (o : A64)
  /-- PMOV_SET (R112). -/
  | pmovSet (o : A64)
  /-- K2V (R112). -/
  | k2v (o : A64)
  /-- V2K (R112). -/
  | v2k (o : A64)
  /-- IADD_IMM (R79). -/
  | iaddImm (o : I64)
  /-- IMUL_IMM (R79). -/
  | imulImm (o : I64)
  /-- IMIN_IMM (R79). -/
  | iminImm (o : I64)
  /-- IMAX_IMM (R79). -/
  | imaxImm (o : I64)
  /-- IAND_IMM (R79). -/
  | iandImm (o : I64)
  /-- IOR_IMM (R79). -/
  | iorImm (o : I64)
  /-- IXOR_IMM (R79). -/
  | ixorImm (o : I64)
  /-- ISHL_IMM (R79). -/
  | ishlImm (o : I64)
  /-- ISHR_IMM (R79). -/
  | ishrImm (o : I64)
  /-- ISAR_IMM (R79). -/
  | isarImm (o : I64)
  /-- IROT_IMM (R79). -/
  | irotImm (o : I64)
  /-- ICMP_IMM (R79). -/
  | icmpImm (o : I64)
  /-- MOV_IMM (R79). -/
  | movImm (o : I64)
  /-- FADD_IMM (R79). -/
  | faddImm (o : I64)
  /-- FSUB_IMM (R79). -/
  | fsubImm (o : I64)
  /-- FMUL_IMM (R79). -/
  | fmulImm (o : I64)
  /-- FMIN_IMM (R79). -/
  | fminImm (o : I64)
  /-- FMAX_IMM (R79). -/
  | fmaxImm (o : I64)
  /-- FCMP_IMM (R79). -/
  | fcmpImm (o : I64)
  /-- KMOV_IMM (R79). -/
  | kmovImm (o : I64)
  /-- KADD_IMM (R79). -/
  | kaddImm (o : I64)
  /-- KSUB_IMM (R79). -/
  | ksubImm (o : I64)
  /-- KMUL_IMM (R79). -/
  | kmulImm (o : I64)
  /-- KAND_IMM (R79). -/
  | kandImm (o : I64)
  /-- KOR_IMM (R79). -/
  | korImm (o : I64)
  /-- KXOR_IMM (R79). -/
  | kxorImm (o : I64)
  /-- KSHL_IMM (R79). -/
  | kshlImm (o : I64)
  /-- KSHR_IMM (R79). -/
  | kshrImm (o : I64)
  /-- KSAR_IMM (R79). -/
  | ksarImm (o : I64)
  /-- KMIN_IMM (R79). -/
  | kminImm (o : I64)
  /-- KMAX_IMM (R79). -/
  | kmaxImm (o : I64)
  /-- KMIN_N_IMM (R79). -/
  | kminNImm (o : I64)
  /-- KMAX_N_IMM (R79). -/
  | kmaxNImm (o : I64)
  /-- KCMP_IMM (R79). -/
  | kcmpImm (o : I64)
  /-- SRD (R115). -/
  | srd (o : I64)
  /-- SWR (R115). -/
  | swr (o : I64)
  /-- KLOOP (R124). -/
  | kloop (o : I64)
  /-- LD (R139). -/
  | ld (o : M64)
  /-- ST (R139). -/
  | st (o : M64)
  /-- ATOM_ADD (R145). -/
  | atomAdd (o : M64)
  /-- ATOM_ADD_CMB (R146). -/
  | atomAddCmb (o : M64)
  /-- ATOM_ADD_NOC (R147). -/
  | atomAddNoc (o : M64)
  /-- ATOM_ADD_CMB_NOC (R146). -/
  | atomAddCmbNoc (o : M64)
  /-- ATOM_MIN (R145). -/
  | atomMin (o : M64)
  /-- ATOM_MAX (R145). -/
  | atomMax (o : M64)
  /-- ATOM_MIN_N (R145). -/
  | atomMinN (o : M64)
  /-- ATOM_MAX_N (R145). -/
  | atomMaxN (o : M64)
  /-- ATOM_AND (R145). -/
  | atomAnd (o : M64)
  /-- ATOM_OR (R145). -/
  | atomOr (o : M64)
  /-- ATOM_XOR (R145). -/
  | atomXor (o : M64)
  /-- ATOM_EXCH (R145). -/
  | atomExch (o : M64)
  /-- ATOM_CAS (R145). -/
  | atomCas (o : M64)
  /-- ATOM_FADD (R145). -/
  | atomFadd (o : M64)
  /-- RED_ADD (R146). -/
  | redAdd (o : M64)
  /-- RED_ADD_NOC (R147). -/
  | redAddNoc (o : M64)
  /-- RED_MIN (R146). -/
  | redMin (o : M64)
  /-- RED_MAX (R146). -/
  | redMax (o : M64)
  /-- RED_MIN_N (R146). -/
  | redMinN (o : M64)
  /-- RED_MAX_N (R146). -/
  | redMaxN (o : M64)
  /-- RED_AND (R146). -/
  | redAnd (o : M64)
  /-- RED_OR (R146). -/
  | redOr (o : M64)
  /-- RED_XOR (R146). -/
  | redXor (o : M64)
  /-- WAITA (R149). -/
  | waita (o : M64)
  /-- FENCE_ACQ (R151). -/
  | fenceAcq (o : M64)
  /-- FENCE_REL (R151). -/
  | fenceRel (o : M64)
  /-- FENCE_AR (R151). -/
  | fenceAr (o : M64)
  /-- ST_MC (R152). -/
  | stMc (o : M64)
  /-- KLD (R142). -/
  | kld (o : M64)
  /-- KST (R142). -/
  | kst (o : M64)
  /-- BAR_ARV (R156). -/
  | barArv (o : A64)
  /-- BAR_WAIT (R156). -/
  | barWait (o : A64)
  /-- BAR_SYNC (R156). -/
  | barSync (o : A64)
  /-- BAR_EXP (R156). -/
  | barExp (o : A64)
  /-- BAR_TEST (R156). -/
  | barTest (o : A64)
  /-- TAG_WAIT (R160). -/
  | tagWait (o : I64)
  /-- TAG_FFS (R160). -/
  | tagFfs (o : I64)
  /-- TAG_CLR (R160). -/
  | tagClr (o : I64)
  /-- TL_WAIT (R161). -/
  | tlWait (o : I64)
  /-- TL_RD (R161). -/
  | tlRd (o : I64)
  /-- RACQ (R128). -/
  | racq (o : I64)
  /-- RREL (R129). -/
  | rrel (o : I64)
  /-- BRM (R120). -/
  | brm (o : J64)
  /-- MLDS (R235). -/
  | mlds (o : E64)
  /-- MMA (R235). -/
  | mma (o : E64)
  /-- MLOOP (R236). -/
  | mloop (o : E64)
  /-- MZERO (R235). -/
  | mzero (o : E64)
  /-- MREL (R235). -/
  | mrel (o : E64)
  /-- MRD (R235). -/
  | mrd (o : E64)
  /-- MQNT (R235). -/
  | mqnt (o : E64)
  /-- MSCAC (R235). -/
  | mscac (o : E64)
  /-- MCBL (R235). -/
  | mcbl (o : E64)
  /-- MHND_GET (R235). -/
  | mhndGet (o : E64)
  /-- MHND_SET (R235). -/
  | mhndSet (o : E64)
  /-- CPY (R229). -/
  | cpy (o : E64)
  /-- GATH (R229). -/
  | gath (o : E64)
  /-- SCAT (R229). -/
  | scat (o : E64)
  /-- XLD (R221). -/
  | xld (o : E64)
  /-- XADD (R221). -/
  | xadd (o : E64)
  /-- XSET (R221). -/
  | xset (o : E64)
  /-- XQRY (R221). -/
  | xqry (o : E64)
  /-- COLL_ALL_REDUCE (R240). -/
  | collAllReduce (o : E64)
  /-- COLL_REDUCE_SCATTER (R240). -/
  | collReduceScatter (o : E64)
  /-- COLL_ALL_GATHER (R240). -/
  | collAllGather (o : E64)
  /-- COLL_ALL_TO_ALL (R240). -/
  | collAllToAll (o : E64)
  /-- COLL_BROADCAST (R240). -/
  | collBroadcast (o : E64)
  /-- GRPQ (R243). -/
  | grpq (o : E64)
  /-- OQRY (R164). -/
  | oqry (o : I64)
  /-- OHINT (R167). -/
  | ohint (o : I64)
  /-- OPIN (R167). -/
  | opin (o : I64)
  /-- OUNPIN (R167). -/
  | ounpin (o : I64)
  /-- OALLOC (R165). -/
  | oalloc (o : I64)
  /-- OFREE (R166). -/
  | ofree (o : I64)
  /-- OEXT (R166). -/
  | oext (o : I64)
  /-- OTRIM (R166). -/
  | otrim (o : I64)
  /-- OGRP (R167). -/
  | ogrp (o : I64)
  /-- SHP_RD (R245). -/
  | shpRd (o : I64)
  /-- SHP_WAIT (R245). -/
  | shpWait (o : I64)
  /-- SHP_PUB (R245). -/
  | shpPub (o : I64)
  /-- LAUNCH (R246). -/
  | launch (o : I64)
  /-- CANCEL (R247). -/
  | cancel (o : I64)
  /-- CTR_RD (R247). -/
  | ctrRd (o : I64)
  /-- SYS (R248). -/
  | sys (o : I64)
  /-- SLEEP (R248). -/
  | sleep (o : I64)
  /-- LANE_FAULT_TRAP (R278). -/
  | laneFaultTrap (team : Nat)
  /-- DISPATCH (R260). -/
  | dispatch (dev : Nat)
  /-- BLOCK_PLACE (R27). -/
  | blockPlace (node die core : Nat) (slot : SlotSel)
  /-- SCRATCHPAD_FILL_DONE (R26). -/
  | scratchpadFillDone (block : Nat)
  /-- NODE_AGING (R260). -/
  | nodeAging (node : Nat)
  /-- QUANTUM_END (R262). -/
  | quantumEnd (core : Nat)
  /-- SLOT_SWITCH (R281). -/
  | slotSwitch (core : Nat)
  /-- STREAM_OUT (R282). -/
  | streamOut (ctx : Nat)
  /-- STREAM_OUT_COMPLETE (R282). -/
  | streamOutComplete (ctx : Nat)
  /-- STREAM_IN (R284). -/
  | streamIn (ctx die core : Nat) (slot : SlotSel) (digestOk : Bool)
  /-- STREAM_IN_COMPLETE (R284). -/
  | streamInComplete (ctx : Nat)
  /-- BLOCK_LEAVE (R253). -/
  | blockLeave (block : Nat)
  /-- NOTIFY_WINDOW_EXPIRY (R265). -/
  | notifyWindowExpiry (dev timer : Nat)
  /-- GANG_RESERVE (R267). -/
  | gangReserve (gang : Nat)
  /-- GANG_RESERVE_TIMEOUT (R267). -/
  | gangReserveTimeout (gang : Nat)
  /-- SHAPE_RESOLVE (R272). -/
  | shapeResolve (node : Nat)
  /-- SLEEP_WAKE (R248). -/
  | sleepWake (team : Nat)
  /-- MATRIX_EXECUTE (R235). -/
  | matrixExecute (ctx : Nat)
  /-- SLOT_ALLOCATE (R233). -/
  | slotAllocate (block : Nat)
  /-- PLANE_LOAD_DONE (R238). -/
  | planeLoadDone (block : Nat)
  /-- ENGINE_START (R229). -/
  | engineStart (o : EngRef)
  /-- ENGINE_ACCESS (R224). -/
  | engineAccess (o : EngRef)
  /-- ENGINE_BYTES_LAND (R225). -/
  | engineBytesLand (o : EngRef) (bytes : Nat)
  /-- ENGINE_COMPLETE (R225). -/
  | engineComplete (o : EngRef)
  /-- COLL_SEQUENCE_START (R241). -/
  | collSequenceStart (gid seq : Nat) (abort : Bool)
  /-- HOME_SERVE (R172). -/
  | homeServe (req : Nat)
  /-- WAITA_RECHECK (R150). -/
  | waitaRecheck (team : Nat)
  /-- STUB_FORWARD (R178). -/
  | stubForward (req : Nat)
  /-- NOT_HERE_RECEIVE (R178). -/
  | notHereReceive (req : Nat)
  /-- ASK_RECEIVE (R178). -/
  | askReceive (req : Nat)
  /-- REGISTRY_LOOKUP (R171). -/
  | registryLookup (req : Nat)
  /-- REGISTRY_ANSWER (R190). -/
  | registryAnswer (req : Nat)
  /-- REPLY_RECEIVE (R190). -/
  | replyReceive (req : Nat)
  /-- STORE_ACK_RECEIVE (R292). -/
  | storeAckReceive (ctx set : Nat)
  /-- MIGRATION_REQUEST (R177). -/
  | migrationRequest (goid target : Nat) (tier2 : Bool)
  /-- FRAME_TRANSFER_DONE (R173). -/
  | frameTransferDone (move : Nat)
  /-- WINDOW_END (R191). -/
  | windowEnd (site : Nat)
  /-- PURGE (R180). -/
  | purge (site : Nat) (serials : List Nat)
  /-- PURGE_ACK (R180). -/
  | purgeAck (site die : Nat)
  /-- PAGE_FAULT_RESOLVED (R186). -/
  | pageFaultResolved (dev entry : Nat) (present : Bool)
  /-- FLIP_DEVICE_TO_HOST (R188). -/
  | flipDeviceToHost (dev entry : Nat)
  /-- FLIP_HOST_TO_DEVICE (R188). -/
  | flipHostToDevice (dev entry : Nat)
  /-- FLIT_RETRY (R294). -/
  | flitRetry (dev port : Nat) (crcOk : Bool)
  /-- PLANE_DOWN (R302). -/
  | planeDown (plane : Nat)
  /-- PLANE_RECOVERY_END (R302). -/
  | planeRecoveryEnd (plane : Nat)
  /-- REQUEST_TIMEOUT (R303). -/
  | requestTimeout (req : Nat)
  /-- SLUICE_EGRESS (R299). -/
  | sluiceEgress (req : Nat)
  /-- COMBINE_HOLD_EXPIRY (R299). -/
  | combineHoldExpiry (entry : Nat)
  /-- CREQ (R300). -/
  | creq (msg : Nat)
  /-- CRED (R300). -/
  | cred (msg : Nat)
  /-- CRSP (R300). -/
  | crsp (msg : Nat) (recordError : Bool)
  /-- CACK (R300). -/
  | cack (msg : Nat)
  /-- SPLIT (R300). -/
  | fabSplit (msg : Nat)
  /-- DONE (R300). -/
  | fabDone (msg : Nat)
  /-- LOST (R312). -/
  | fabLost (msg : Nat)
  /-- DRSP (R311). -/
  | drsp (msg : Nat)
  /-- MCAST_REPLICATE (R304). -/
  | mcastReplicate (msg : Nat)
  /-- MCAST_MEMBER_ANSWER (R304). -/
  | mcastMemberAnswer (msg rank : Nat)
  /-- MCAST_ACK_RECEIVE (R153). -/
  | mcastAckReceive (msg : Nat)
  /-- DOORBELL (R320). -/
  | doorbell (dev vf ring : Nat) (value : Dbl)
  /-- FIRMWARE_RING_POLL (R320). -/
  | firmwareRingPoll (dev vf : Nat)
  /-- RING_NODE (R320). -/
  | ringNode (dev vf ring : Nat)
  /-- RING_SVC (R320). -/
  | ringSvc (dev vf ring : Nat)
  /-- RING_CANCEL (R320). -/
  | ringCancel (dev vf ring : Nat)
  /-- RING_NOP (R320). -/
  | ringNop (dev vf ring : Nat)
  /-- SVC_NOP (R321). -/
  | svcNop (c : SvcCall)
  /-- UNIT_CREATE (R321). -/
  | unitCreate (c : SvcCall)
  /-- GROUP_SET (R321). -/
  | groupSet (c : SvcCall)
  /-- GROUP_CLEAR (R321). -/
  | groupClear (c : SvcCall)
  /-- MAP_INVAL (R321). -/
  | mapInval (c : SvcCall)
  /-- FAULT_READ (R321). -/
  | faultRead (c : SvcCall)
  /-- ATTEST (R330). -/
  | attest (c : SvcCall)
  /-- HOST_BAR_WRITE (R212). -/
  | hostBarWrite (a : HostAccess)
  /-- HOST_BAR_READ (R187). -/
  | hostBarRead (a : HostAccess)
  /-- HOST_ATOMICOP (R313). -/
  | hostAtomicop (a : HostAccess) (op : HostOp)
  /-- HALT (R290). -/
  | dbgHalt (team : Option Nat) (ctx : Nat)
  /-- RESUME (R290). -/
  | dbgResume (team : Nat)
  /-- STEP (R290). -/
  | dbgStep (team : Nat)
  /-- DETACH (R290). -/
  | dbgDetach (team lane : Nat)
  /-- LSTEP (R291). -/
  | lstep (team : Nat)
  /-- RUNTO (R290). -/
  | runto (team : Nat)
  /-- RUNTO_REACHED (R291). -/
  | runtoReached (team : Nat)
  /-- ATTACH (R290). -/
  | dbgAttach (team : Nat)
  /-- DEBUG_READ (R289). -/
  | debugRead (team : Nat) (what : DbgLoc)
  /-- DEBUG_WRITE (R289). -/
  | debugWrite (team : Nat) (what : DbgLoc) (value : Dbl)
  /-- VF_CORE_RESET (R314). -/
  | vfCoreReset (dev vf : Nat)
  /-- KILL (R275). -/
  | kill (dev : Nat) (vf : Option Nat)
  /-- KEY_SLOT_REVOKE (R331). -/
  | keySlotRevoke (dev slot : Nat)
  /-- FRAME_RETIRE (R323). -/
  | frameRetire (site : Nat) (f : FrameRef)
  /-- PATROL_SCRUB (R323). -/
  | patrolScrub (dev : Nat) (line : Nat)
  /-- REGISTER_WRITE (R176). -/
  | registerWrite (r : CfgReg) (value : Word)
  /-- POWER_ON (R332). -/
  | powerOn (dev : Nat) (step : Nat) (run : Boot)
  /-- POWER_SAMPLE (R333). -/
  | powerSample (dev watts : Nat) (temps : List Nat)
  /-- THERMAL_GATE_TICK (R333). -/
  | thermalGateTick (dev : Nat)
  /-- THERMAL_RESTORE_TICK (R333). -/
  | thermalRestoreTick (dev : Nat)
  /-- THERMAL_TRIP (R333). -/
  | thermalTrip (dev : Nat)
  /-- RUNNEL_PACKET_RX (R325). -/
  | runnelPacketRx (dev : Nat) (p : Packet)
  /-- RUNNEL_ACK_RX (R325). -/
  | runnelAckRx (dev msg : Nat)
  /-- RUNNEL_NACK_RX (R325). -/
  | runnelNackRx (dev msg : Nat) (kind : Nack)
  /-- RUNNEL_MSG_TIMEOUT (R325). -/
  | runnelMsgTimeout (dev msg : Nat)
  /-- QP_CONFIGURE (R326). -/
  | qpConfigure (dev : Nat) (c : QpConf)
  /-- QP_ENABLE (R326). -/
  | qpEnable (dev qp : Nat)
  /-- QP_RESET (R326). -/
  | qpReset (dev qp : Nat)
  /-- QP_CONTEXT_FETCHED (R327). -/
  | qpContextFetched (dev qp : Nat)
  /-- RUNNEL_SEND_WAIT_EXPIRY (R327). -/
  | runnelSendWaitExpiry (dev qp : Nat)
  /-- REGISTRATION_REVOKE (R328). -/
  | registrationRevoke (dev key : Nat)
  /-- REVOKE_COMPLETE (R328). -/
  | revokeComplete (dev key : Nat)
  /-- DEBUGGER_ATTACH (R286). -/
  | debuggerAttach (ctx : Nat)
  /-- DEBUGGER_DETACH (R286). -/
  | debuggerDetach (ctx : Nat)
  /-- SPURIOUS_WAKEUP (R149). -/
  | spuriousWakeup (team : Nat)
  /-- LINE_EVICTION (R197). -/
  | lineEviction (l1 : Bool) (where_ line : Nat)
  /-- SOFT_ERROR (R280). -/
  | softError (l : ErrLoc) (correctable : Bool)
  /-- GANG_REGISTRATION (R267). -/
  | gangRegistration (gang : Nat) (parts : List (Nat × Nat))
  /-- NOP_W (R125). -/
  | nopW
  /-- EXIT (R122). -/
  | exit
  /-- JOIN (R121). -/
  | join
  /-- RET (R123). -/
  | ret
  /-- YIELD (R125). -/
  | yield
  /-- ERET (R126). -/
  | eret
  /-- FENCE_REC (R151). -/
  | fenceRec
  /-- MSWP (R235). -/
  | mswp
deriving DecidableEq, Repr

end Sys2Proof
end

