-- ==== Sys2Proof/Machine/State.lean ====
section
/-! DEFINITION. The state of the machine: every piece of state the manual names, as plain data in tables by number, and the
machine right after reset. Each field cites the rule that names it. -/
namespace Sys2Proof.Machine

/-! ### Memory -/

/-- A range of memory keys that holds no promised value since a stamp (R165, R189). -/
structure OpenRange where
  lo : Nat
  hi : Nat
  stamp : Nat
deriving DecidableEq, Repr

/-- Bytes that writes have reached, by memory key, and the ranges that hold no promised value. An unlisted byte outside
every open range reads 0. -/
structure Memory where
  cells : List Host.Cell := []
  open_ : List OpenRange := []
  /-- R189: the key slot under which each line of device physical memory was last written, by line key; default 0. -/
  slots : Tbl Nat := []
deriving DecidableEq, Repr

/-! ### Teams -/

/-- R117: a path of a frame: a program counter and its lanes. -/
structure Path where
  pc : Dbl
  lanes : LaneSet
deriving DecidableEq, Repr

/-- R117: a frame of the frame stack, its pending paths earliest first. -/
structure Frame where
  join : Dbl
  pending : List Path := []
  arrived : LaneSet := 0
deriving DecidableEq, Repr

/-- R123: an entry of the call stack. -/
structure CallEntry where
  ret : Dbl
  depth : Nat
deriving DecidableEq, Repr

/-- R271: a cause held while its block is provisional, with the detail of R276 and the address it will report. -/
structure HeldCause where
  cause : Nat
  info : Word
  pc : Dbl
deriving DecidableEq, Repr

/-- R149, R150: a watched word: its memory key, its bytes, the value it held, and whether a monitor watches it. -/
structure Watch where
  key : Nat
  bytes : Nat
  value : Nat
  mon : Bool
deriving DecidableEq, Repr

/-- R31, R245-R248: what a team waits for. R149: a WAITA holds whether it was woken, the time of its last check, and what it
watches. -/
inductive Wait where
  | none | barrier | tag | timeline | hold | queued | page | queueFull | shape | launch | sys | move | handle
  | release | planes
  | racq (mask : Nat)
  | waita (woken : Bool) (since : Nat) (watch : List Watch)
  | sleep (until_ : Nat)
deriving DecidableEq, Repr

/-- R215: a tile record held in a tile register (R220). -/
structure TileRec where
  base : Dbl
  rows : Nat
  cols : Nat
  pitch : Nat
  format : Nat
  swizzle : Nat
  fillMode : Nat
  vrows : Nat
  vcols : Nat
  fillValue : Word
deriving DecidableEq, Repr

/-- R233: what a handle will name once every issued operation has executed: nothing, a slot, or the slot that the
operation of a timeline number allocates. -/
inductive HandleView where
  | none
  | slot (id : Nat)
  | alloc (num : Nat)
deriving DecidableEq, Repr

/-- R290: a detached lane, with its debug PC and the frame depth of the detach. -/
structure Detach where
  lane : Nat
  pc : Dbl
  depth : Nat
deriving DecidableEq, Repr

/-- A team: its registers and control state. Tables default: lane registers, uniform registers 0; predicates false;
handles 0xFF (R98). -/
structure Team where
  /-- R15, R16: the block, the team number, its size, role, budget and register budget (R23). -/
  block : Nat
  num : Nat
  size : Nat
  role : Nat := 3
  budget : Nat := 0
  /-- R15: the program counter. -/
  pc : Dbl
  /-- R18: the mask of the current path. -/
  mask : LaneSet
  /-- R7: lane registers, key lane × 128 + n; predicates, key lane, bit n; uniform registers. -/
  v : Tbl Word := []
  p : Tbl Byte := []
  k : Tbl Word := []
  /-- R220: loaded tile registers. R233: handles, default 0xFF, and those that wait for the slot of an operation. -/
  x : Tbl TileRec := []
  a : Tbl Nat := []
  ia : Tbl HandleView := []
  /-- R289: what a debugger has left in tile registers that are not loaded (default zero). -/
  xu : Tbl TileRec := []
  /-- R22: extended chunks held. -/
  e1 : Bool := false
  e2 : Bool := false
  /-- R117, R123: the stacks, top first. -/
  frames : List Frame := []
  calls : List CallEntry := []
  /-- R45, R116, R278. -/
  fpflags : Word := 0
  fptrap : Word := 0
  trapcause : Word := 0
  trappc : Dbl := 0
  trapinfo : Word := 0
  lfmode : Word := 0
  lfmask : LaneSet := 0
  lfcause : Tbl Word := []
  /-- R278: lane faults recorded and not yet trapped. -/
  lfnew : LaneSet := 0
  /-- R126: the handler flag. -/
  handler : Bool := false
  /-- R31: what the team waits for. -/
  wait : Wait := .none
  /-- R271: the held cause. -/
  held : Option HeldCause := none
  /-- R134, R168: lanes of the instruction being issued whose access needs no further issue; bit 0 stands for a uniform
  form. R288: its watchpoint hits (watchpoint, lane). -/
  served : LaneSet := 0
  watch : List (Nat × Nat) := []
  /-- R281, R285: the first mask word of the instruction that has not been swept, and the word before which this issue
  stops. -/
  swept : Nat := 0
  stopAt : Option Nat := none
  /-- R280: registers that hold an uncorrectable error: lane registers (key lane × 128 + n), uniform registers, predicates
  (key lane × 8 + n) and tile registers. -/
  bad : List Nat := []
  badK : List Nat := []
  badP : List Nat := []
  badX : List Nat := []
  /-- R18: the team has ended. -/
  ended : Bool := false
  /-- R156: per barrier, the phase of the last counted arrival. -/
  counted : Tbl Nat := []
  /-- R153: group entries whose failed delivery has not been raised. -/
  mcfail : List Nat := []
  /-- R339: when the team last issued on a sweep pipe, the uniform unit and the load-store unit; 0 is never. -/
  lastPipe : Nat := 0
  lastUni : Nat := 0
  lastLsu : Nat := 0
  /-- R125: the issue count at its YIELD. -/
  yielded : Option Nat := none
  /-- R289, R290: halted with its reason and detail; one step asked; run-to asked; the detached lane; the next instruction
  matches no breakpoint (R287). -/
  halt : Option (Nat × Word) := none
  stepping : Bool := false
  running : Bool := false
  detach : Option Detach := none
  skipBreak : Bool := false
  /-- R290: a HALT that waits for the end of the instruction under way; the lanes detached before the present one (log 28); the
  detached lanes that have made their part of the instruction under way. -/
  haltDue : Bool := false
  under : List Detach := []
  made : LaneSet := 0
  /-- R280: handles that hold an uncorrectable error. -/
  badA : List Nat := []
deriving DecidableEq, Repr

/-! ### Blocks and engines -/

/-- R156: a barrier: phase, the two byte counters, the members that arrived, overrun. -/
structure Bar where
  phase : Nat := 0
  c0 : Int := 0
  c1 : Int := 0
  arrived : List Nat := []
  overrun : Bool := false
deriving DecidableEq, Repr

/-- R160: a tag. -/
structure Tag where
  count : Nat := 0
  ready : Bool := true
  err : Bool := false
deriving DecidableEq, Repr

/-- R161, R162: a timeline: last number issued, the counter, numbers completed beyond it, failed and unreported numbers. -/
structure Timeline where
  issued : Nat := 0
  count : Nat := 0
  ahead : List Nat := []
  failed : List Nat := []
deriving DecidableEq, Repr

/-- R223: where a copy or gather operation credits its bytes: the barrier and the captured parity. -/
structure Credit where
  bar : Nat
  parity : Nat
deriving DecidableEq, Repr

/-- R228: CPY, GATH, SCAT. -/
inductive EngKind where
  | cpy | gath | scat
deriving DecidableEq, Repr

/-- R225: bytes of one 16-byte chunk of the destination on their way: (memory key, value, bits written). -/
structure Chunk where
  cells : List (Nat × Byte × Byte)
deriving DecidableEq, Repr

/-- R223: a copy or gather operation, issued. -/
structure EngOp where
  num : Nat
  team : Nat
  kind : EngKind
  dst : TileRec
  src : TileRec
  index : Nat
  tag : Option Nat
  credit : Option Credit
  started : Bool := false
  /-- R229: the indices, read at its start. -/
  idx : List Nat := []
  row : Nat := 0
  landing : List Chunk := []
  stalled : Bool := false
  credited : Nat := 0
  total : Nat := 0
  /-- R249: the parked counter set that counts its bytes. -/
  set : Option Nat := none
  /-- R173, R224: what names it in a Flume queue, while an access of it is queued behind a move. -/
  ticket : Option Nat := none
deriving DecidableEq, Repr

/-- R231: a plane: the record it came from, its N and K, its format and codebook, the bytes of its rows, and the codebook
entries its elements name (R51, R235). A plane of a context that was streamed out holds nothing until it has been loaded again
from its record (R231, R282). -/
structure Plane where
  src : TileRec
  n : Nat
  k : Nat
  fmt : Nat
  book : Nat
  data : List Byte := []
  entries : List Half := []
  loaded : Bool := true
deriving DecidableEq, Repr

/-- R230: the queued matrix instructions. -/
inductive MatKind where
  | mlds | mswp | mma | mloop | mzero | mrel | mrd | mqnt | mscac | mcbl
deriving DecidableEq, Repr

/-- R223, R232: a matrix operation with what it captured at issue. -/
structure MatOp where
  num : Nat
  team : Nat
  kind : MatKind
  x1 : Option TileRec := none
  x2 : Option TileRec := none
  handle : Nat := 0
  dst : HandleView := .none
  src : HandleView := .none
  fa : Nat := 0
  fb : Nat := 0
  /-- R56: the shape. -/
  m : Nat := 0
  n : Nat := 0
  k : Nat := 0
  /-- OVW or ACC; TRI or INT; PRE. -/
  ovw : Bool := false
  tri : Bool := false
  pre : Bool := false
  params : List Word := []
  tag : Option Nat := none
  credit : Option Credit := none
  /-- R230: its place among the operations of the context; R238: its plane is loading. -/
  order : Nat := 0
  loading : Bool := false
  /-- R249: the rows (of the current step) that have been computed. -/
  row : Nat := 0
deriving DecidableEq, Repr

/-- R53: the kind of an accumulator slot. -/
inductive AccKind where
  | a40 | int40
deriving DecidableEq, Repr

/-- R53, R233: an allocated accumulator slot: its block, kind, rows and columns, elements by i × N + j, and whether it
holds an uncorrectable error (R280). -/
structure AccSlot where
  block : Nat
  kind : AccKind := .a40
  m : Nat := 0
  n : Nat := 0
  data : List (BitVec 40) := []
  bad : Bool := false
deriving DecidableEq, Repr

/-- R233, R252: a slot of the issued view: what names it, its kind, rows and columns. -/
structure ISlot where
  view : HandleView
  kind : AccKind
  m : Nat
  n : Nat
deriving DecidableEq, Repr

/-- A block: R25, R26, R60, R154-R162, R223-R233, R253, R270-R272. -/
structure Block where
  ctx : Nat
  node : Nat
  ordinal : Nat
  rank : Nat := 0
  teams : List Nat
  spad : Nat := 0
  filled : Bool := false
  tags : Tbl Tag := []
  copy : Timeline := {}
  gath : Timeline := {}
  mat : Timeline := {}
  qsat : Word := 0
  errlog : Word := 0
  barMask : Tbl Nat := []
  bars : Tbl Bar := []
  copyQ : List EngOp := []
  gathQ : List EngOp := []
  matQ : List MatOp := []
  active : Option Plane := none
  shadow : Option Plane := none
  iactive : Option Plane := none
  ishadow : Option Plane := none
  /-- R233, R252: the slots allocated to the block in the issued view. -/
  islots : List ISlot := []
  quota : Nat := 0
  provisional : Bool := false
  squashed : Bool := false
  exited : Bool := false
  left : Bool := false
  /-- R278: the lane-fault report has been posted. -/
  reported : Bool := false
deriving DecidableEq, Repr

/-! ### Contexts -/

/-- R29: the state of a context and of the slot it holds. -/
inductive CtxState where
  | ready | running | streamingOut | saved | streamingIn | left
  /-- R29, R33: a context of a cooperative launch that has its slot and waits for its core's stream. -/
  | assigned
deriving DecidableEq, Repr

/-- R306: an entry of the group table; members and failure by rank. -/
structure Group where
  valid : Bool := true
  gid : Nat
  members : LaneSet
  rank : Nat
  size : Nat
  seq : Nat := 0
  base : Dbl
  bytes : Dbl
  failure : LaneSet := 0
  /-- R308: a collective failed before this member had issued its part. -/
  late : Bool := false
deriving DecidableEq, Repr

/-- R249: a credit or completion held while the context is streamed out. -/
inductive HeldEvent where
  | credit (block bar parity bytes : Nat)
  | done (block : Nat) (gather : Bool) (num : Nat) (tag : Option Nat) (failed : Bool)
  | coll (block num : Nat) (tag : Option Nat) (failed : Bool)
deriving DecidableEq, Repr

/-- R283, R292: a parked counter set: the core that holds it, its number and its count. -/
structure Parked where
  core : Nat
  set : Nat
  count : Nat
deriving DecidableEq, Repr

/-- R184: a cached translation of one 4 KiB page: physical base, writable, host bias. -/
structure Xlat where
  pa : Nat
  w : Bool
  host : Bool
  /-- R189: the key slot of the page's owner. -/
  key : Nat := 0
deriving DecidableEq, Repr

/-- R282: a saved context image: the area of the owner's memory that firmware assigned (device physical address), the key slot
it is encrypted under, and the digest firmware keeps. -/
structure Image where
  area : Nat
  key : Nat
  digest : Dbl
  /-- The die it was saved from. -/
  die : Nat
deriving DecidableEq, Repr

/-- A context: R25, R26, R29, R51, R53, R184, R208, R233, R282-R286, R292, R306. -/
structure Ctx where
  dev : Nat
  die : Nat
  core : Nat
  slot : SlotSel
  vf : Nat
  key : Nat := 1
  node : Nat
  state : CtxState := .ready
  since : Nat := 0
  blocks : List Nat := []
  partition : Nat := 0
  /-- R26, R196: L1 lines by line key, 64 bytes each. -/
  l1 : Tbl (List Byte) := []
  /-- R208: record cache, 32 bytes by memory key. -/
  records : Tbl (List Byte) := []
  slots : Tbl AccSlot := []
  /-- R51: codebook registers, key register × 256 + entry, default 0. -/
  books : Tbl Half := []
  coll : Timeline := {}
  flume : Timeline := {}
  /-- R292, R283: the live counter set and the parked ones. -/
  out : Nat := 0
  set : Nat := 0
  parked : List Parked := []
  /-- R128: teams blocked in RACQ, in the order they blocked. -/
  racq : List Nat := []
  groups : Tbl Group := []
  /-- R233: the lowest accumulator slot id of the context. -/
  slotBase : Nat := 0
  /-- R184: root tables of regions 0, 1 and 3, as device physical addresses. -/
  roots : Tbl Nat := []
  /-- R184: cached translations, key region × 2^48 + virtual page number. -/
  tlb : Tbl Xlat := []
  /-- R286. -/
  attached : Bool := false
  dba : Tbl Dbl := []
  dbc : Tbl Word := []
  dwb : Tbl Dbl := []
  dwl : Tbl Dbl := []
  dwc : Tbl Word := []
  heldEvents : List HeldEvent := []
  /-- R282: the image, while the context is saved. -/
  image : Option Image := none
  /-- R280: codebook registers that hold an uncorrectable error. -/
  badBooks : List Nat := []
deriving DecidableEq, Repr

/-! ### Launches -/

/-- R255: graph, phase, job and launch units. -/
structure WorkUnit where
  parent : Nat := 0
  counter : Nat := 0
  failed : Bool := false
  /-- R275: the cause of a cancel or kill. -/
  cause : Option Nat := none
  cancelled : Bool := false
  final : Bool := false
  /-- Children that have not reached a final state, and whether it has had any (R264). -/
  open_ : Nat := 0
  vf : Nat := 0
deriving DecidableEq, Repr

/-- R256: one team of the descriptor. -/
structure TeamDesc where
  entry : Nat
  size : Nat
  role : Nat
  budget : Nat
deriving DecidableEq, Repr

/-- R256: the node descriptor as firmware has read it. -/
structure NodeDesc where
  kernel : Dbl
  grid : Nat
  x : Nat := 0
  y : Nat := 0
  z : Nat := 0
  cluster : Nat := 0
  coop : Bool := false
  wide : Bool := false
  notify : Bool := false
  shape : Bool := false
  gang : Bool := false
  priority : Nat := 24
  parent : Nat := 0
  seed : Dbl := 0
  record : Nat := 0
  notifyAt : Nat := 0
  window : Nat := 0
  vector : Nat := 0
  part : Nat := 0
  gangId : Nat := 0
  handler : Option Nat := none
  spad : Nat := 0
  acc : Nat := 0
  barMask : Tbl Nat := []
  private_ : Nat := 0
  teams : List TeamDesc := []
  edges : List (Nat × Nat) := []
  operands : List (Dbl × Nat) := []
  cell : Dbl := 0
  floor : Nat := 0
  cap : Nat := 0
  divisor : Nat := 1
  mode : Nat := 0
  margin : Nat := 0
  retract : List (Dbl × Nat) := []
  kargs : Tbl Word := []
deriving DecidableEq, Repr

/-- R258: the states of a node. -/
inductive NodeState where
  | waiting | ready | dispatching | provisional | running | draining | complete | failed | cancelled
deriving DecidableEq, Repr

/-- A node: R256-R272. -/
structure Node where
  dev : Nat
  vf : Nat
  entry : Nat
  ident : Nat
  desc : NodeDesc
  state : NodeState
  priority : Nat
  readyAt : Nat := 0
  waitedAt : Nat := 0
  order : Nat := 0
  die : Nat := 0
  /-- R209: memory as it stood at the dispatch, from which the launch's code is fetched, and the size of its code object. -/
  code : Memory := {}
  codeSize : Nat := 0
  next : Nat := 0
  /-- R272: blocks this node is to have (b(P), then b(T)). -/
  blocks : Nat := 0
  left : Nat := 0
  started : Nat := 0
  p : Dbl := 0
  t : Option Dbl := none
  speculating : Bool := false
  failing : Bool := false
  cause : Option (Nat × Nat × Nat) := none
  cancel : Option Nat := none
  byEdge : Bool := false
  mcfail : Bool := false
  /-- R267: committed with its gang, and the slots (die, core, slot) reserved for its blocks. -/
  reserved : Bool := false
  resv : List (Nat × Nat × SlotSel) := []
  /-- R16, R154: grid and cluster barriers of the launch, key cluster × 32 + number. -/
  bars : Tbl Bar := []
  /-- R265: the true shape that the dispatcher has read while the launch runs on another (R270). -/
  seen : Option Dbl := none
deriving DecidableEq, Repr

/-! ### Objects and memory -/

/-- R170: the states of an object at a site. -/
inductive ObjState where
  | home | movingOut | stub | collected | dead
deriving DecidableEq, Repr

/-- R172, R175, R179: an object-table entry. -/
structure ObjEntry where
  state : ObjState
  size : Nat := 0
  cap : Nat := 0
  tier2 : Bool := false
  twin : Bool := false
  retract : Bool := false
  /-- R189: its key slot; R257: the VF it belongs to (16: system software). -/
  key : Nat := 0
  owner : Nat := 0
  pinned : Bool := false
  /-- R172: the frame list, as numbers of frames of the tier at the site, and that of a twin's copy at the partner (R182). -/
  frames : List Nat := []
  copy : List Nat := []
  moves : Nat := 0
  dest : Nat := 0
  /-- R178, R191: requests forwarded in this window, quiet windows in a row, the window it became a stub. -/
  forwarded : Nat := 0
  quiet : Nat := 0
  born : Nat := 0
  /-- R175: accesses from the home site and of the 4 heaviest others in this window; streaks of windows over H × local. -/
  local_ : Nat := 0
  sketch : List (Nat × Nat) := []
  streaks : Tbl Nat := []
  /-- R177: the counts of the window before. -/
  lastLocal : Nat := 0
  lastSketch : List (Nat × Nat) := []
deriving DecidableEq, Repr

/-- R171: the states of a serial; an unlisted serial is unused. -/
inductive SerialState where
  | live | moving | dead | purging | free
deriving DecidableEq, Repr

/-- R171: a registry entry. -/
structure RegEntry where
  state : SerialState
  site : Nat
  pinned : Bool := false
  group : Option Nat := none
  moves : Nat := 0
deriving DecidableEq, Repr

/-- R178: a locator entry. -/
structure Locator where
  goid : Nat
  site : Nat
  moves : Nat
deriving DecidableEq, Repr

/-- R296, R299: a constituent of a combined request: requester site, request tag, signed operand, and the prefix offset that a
record or a receipt keeps for it. -/
structure Constituent where
  site : Nat
  tag : Nat
  operand : Int
  off : Nat
deriving DecidableEq, Repr

/-- R300, R311: a receipt of a Tabor: record id, plane, port, constituents with their prefix offsets, old value, the home and
the move count of the object, the counter's address. -/
structure Receipt where
  record : Nat
  plane : Nat
  port : Nat
  list : List Constituent
  old : Nat
  home : Nat
  moves : Nat
  addr : Nat
  wide : Bool
deriving DecidableEq, Repr

/-- R181: a co-location group, kept at the registry of site k mod 1,024. -/
structure CoGroup where
  home : Nat
  members : List Nat
deriving DecidableEq, Repr

/-- A site: R170-R192, R202, R296, R300. -/
structure Site where
  objects : Tbl ObjEntry := []
  registry : Tbl RegEntry := []
  freed : List Nat := []
  unused : Nat := 0
  /-- R172, R323: how many frames of each tier no object holds and no move has taken, and the numbers of those retired. -/
  frames1 : Nat := Config.tier1Frames
  frames2 : Nat := Config.tier2Frames
  retired1 : List Nat := []
  retired2 : List Nat := []
  locator : Tbl (List Locator) := []
  l2 : Tbl (List Byte) := []
  osite : Word := 0x0000443F
  flips : Tbl Nat := []
  flipStreaks : Tbl Nat := []
  receipts : List Receipt := []
  groups : Tbl CoGroup := []
  /-- R296: the next request tag of the die on each plane. -/
  tags : Tbl Nat := []
  window : Nat := 0
  purging : List Nat := []
  purgeAcks : List Nat := []
  /-- R280: the copies of the die's L2 that hold an uncorrectable error, by line key. -/
  l2bad : List Nat := []
deriving DecidableEq, Repr

/-- R173, R174, R177: a move in progress: the object moving, its tier at the destination and the frames taken there (and at
the partner, for a twin), the frame in transfer, its queued requests in arrival order, who asked for it, the members still to
move with the tier and the frames of each. -/
structure Move where
  goid : Nat
  src : Nat
  dst : Nat
  tier2 : Bool
  got : List Nat := []
  copy : List Nat := []
  frame : Nat := 0
  frames : Nat := 0
  queue : List Nat := []
  asked : List (Nat × Nat) := []
  rest : List (Nat × Bool × List Nat × List Nat) := []
  group : Option Nat := none
deriving DecidableEq, Repr

/-- R139, R145: what an access does at its location: read `size` bytes, write its operand, or an atomic operation. -/
inductive AtomOp where
  | add | min | max | minN | maxN | and | or | xor | exch | cas | fadd
deriving DecidableEq, Repr
inductive AccKindOp where
  | load (sext nc : Bool)
  | store
  | atom (op : AtomOp)
  | red (op : AtomOp)
  | watch
deriving DecidableEq, Repr

/-- One lane's access: the lane (none for a uniform form), its pointer, the runs of memory keys it covers as (key, bytes),
its operand and comparand. -/
structure Item where
  lane : Option Nat
  ptr : Dbl
  runs : List (Nat × Nat) := []
  data : Nat := 0
  compare : Nat := 0
deriving DecidableEq, Repr

/-- The answer to one item: the value read, or the cause its lane is faulted with (0: none). -/
structure Ans where
  lane : Option Nat
  value : Nat
  fault : Nat := 0
deriving DecidableEq, Repr

/-- R178, R190, R299: where a request is. -/
inductive ReqPhase where
  | toSite | registry | answered | queued | forwarding | asked | notHere | replied
  | egress | combining
  /-- R137: the load-store unit holds it while the Flume queue is full. -/
  | held
deriving DecidableEq, Repr

/-- R190: a request of one instruction, with its answers once it has been served. The lanes of one location of an operation
that sends one request per lane (R146) go together, each with a tag of its own: `single`. -/
structure Req where
  team : Nat
  ctx : Nat
  from_ : Nat
  kind : AccKindOp
  size : Nat
  dest : Nat
  items : List Item
  site : Nat
  hops : Nat := 0
  phase : ReqPhase
  /-- R173: forwarded by the source of a move under way. -/
  viaMove : Bool := false
  /-- The reply's site and move count, and whether a site sent them (R178); the answers, and whether a home has applied the
  request (R302). -/
  home : Nat := 0
  moves : Nat := 0
  fromHome : Bool := false
  applied : Bool := false
  answers : List Ans := []
  plane : Nat := 0
  /-- R296: its request tag, the first of its lanes' tags, and the plane that numbers it; none until it is numbered. -/
  tag : Nat := 0
  origin : Option Nat := none
  /-- R303: the device time at which it left. -/
  sent : Nat := 0
  sum : Int := 0
  resent : Bool := false
  /-- R298: its instruction may combine. -/
  combine : Bool := false
  single : Bool := false
  /-- R292: the counter set that counts it, when it waits for an acknowledgement. -/
  set : Option Nat := none
  /-- R295: the step at which it last left a port, and the device whose port that was. -/
  left : Nat := 0
  port : Nat := 0
  /-- R301: the home it was sent to has been reset since, so that no answer comes. -/
  lost : Bool := false
deriving DecidableEq, Repr

/-- R299: an open entry of a combining table. -/
structure CombEntry where
  plane : Nat
  port : Nat
  site : Nat
  addr : Nat
  red : Bool
  wide : Bool
  list : List Nat
  /-- R299: when its first constituent reached the head of the queue, and whether it has. -/
  since : Nat := 0
  head : Bool := true
deriving DecidableEq, Repr

/-- R299: a decombining record. -/
structure Record where
  plane : Nat
  port : Nat
  list : List Constituent
  bad : Bool := false
deriving DecidableEq, Repr

/-- R296: messages between Sluices and homes. -/
inductive Msg where
  | creq (record plane port site addr : Nat) (wide : Bool) (list : List Constituent) (sum hops : Nat)
  | cred (plane port site addr : Nat) (wide : Bool) (list : List Constituent) (sum hops : Nat)
  | crsp (record plane port home : Nat) (old moves : Nat) (wide : Bool)
  | cack (plane : Nat) (list : List Constituent) (home moves : Nat)
  | split (record plane port : Nat)
  | done (record plane port site : Nat)
  | lost (record plane port site : Nat)
  /-- R311: the plane it travels on, and the plane and tag of its constituent's request. -/
  | drsp (via plane site tag value home moves : Nat)
  /-- R304: the bytes that one instruction writes in one line of the window, as (offset, bytes), lowest lane first. -/
  | mcast (team ctx entry gid plane set : Nat) (data : List (Nat × List Byte)) (pending : List Nat) (failed : LaneSet)
      (sent : Bool)
deriving DecidableEq, Repr

/-- R240, R241: one member's contribution to a collective. -/
structure Contribution where
  gid : Nat
  seq : Nat
  /-- The member's rank. -/
  member : Nat
  ctx : Nat
  block : Nat
  team : Nat
  entry : Nat
  num : Nat
  op : Nat
  red : Nat
  fmt : Nat
  root : Nat
  src : TileRec
  dst : TileRec
  tag : Option Nat
  credit : Option Credit
  /-- R307: the team, block, context and node that issued it, once the node has ended. -/
  kept : Option (Team × Block × Ctx × Node) := none
deriving DecidableEq, Repr

/-! ### Devices, host, package -/

/-- R315, R320: a firmware ring: its control block in host memory, and the type of the valid slot firmware has found. -/
structure Ring where
  control : Nat
  pending : Option Nat := none
deriving DecidableEq, Repr

/-- R278, R303: an entry of the fault log. -/
structure FaultEntry where
  ordinal : Nat
  count : Nat
  lane : Nat
  cause : Nat
deriving DecidableEq, Repr

/-- R186: a posted replayable fault: context, region, address, kind. -/
structure PagePost where
  ctx : Nat
  region : Nat
  addr : Nat
  write : Bool
deriving DecidableEq, Repr

/-- R323: the report of a line with an uncorrectable error: its site, whether it is in tier 2, its pile, its physical address and
its key slot. -/
structure LineReport where
  site : Nat
  tier2 : Bool
  pile : Nat
  addr : Nat
  slot : Nat
deriving DecidableEq, Repr

/-- R314: a VF core. -/
structure VfCore where
  rings : Tbl Ring := []
  log : List FaultEntry := []
  corrected : Nat := 0
  posts : List PagePost := []
  /-- R323: the lines under its key slots that were found with an uncorrectable error. -/
  lines : List LineReport := []
  /-- R313: its MSI-X table, by byte (default 0); R290: whether the debug unit carried out the last command of its mailbox. -/
  table : Tbl Byte := []
  status : Option Bool := none
  /-- R313: what the host last wrote into the debug mailbox, by byte (default 0). -/
  mail : Tbl Byte := []
deriving DecidableEq, Repr

/-- R265: a running notification window: the descriptor and its VF. -/
structure Timer where
  desc : Nat
  vf : Nat
  /-- The device time at which its window ends. -/
  due : Nat := 0
deriving DecidableEq, Repr

/-- R269: a predictor entry: shapes newest first, when it was last used. -/
structure Predict where
  shapes : List Dbl
  used : Nat
deriving DecidableEq, Repr

/-- R267: a gang: its parts (device, part) and the nodes that carry it. -/
structure Gang where
  parts : List (Nat × Nat)
  nodes : List Nat := []
  reserved : Bool := false
  /-- The device time of its first part's device at which a reservation that has not committed is given up, and the time before
  which it is not tried again. -/
  until_ : Option Nat := none
  retry : Nat := 0
deriving DecidableEq, Repr

/-- R326: the states of a queue pair. -/
inductive QpState where
  | reset | init | ready | error
deriving DecidableEq, Repr

/-- R324: a transfer a queue pair is to send: the context whose tables lead to its source, the source, its bytes, the key and the
offset of the target, and whether it is a send. -/
structure Transfer where
  ctx : Nat
  src : Dbl
  bytes : Nat
  key : Nat
  off : Nat
  send : Bool
deriving DecidableEq, Repr

/-- R326, R327, R328: a queue pair. -/
structure QueuePair where
  state : QpState := .reset
  /-- R326: the source address of its peer, and the region keys it may use; set as it leaves reset. -/
  peer : Nat := 0
  keys : List Nat := []
  resident : Bool := false
  stalled : Bool := false
  /-- R327: the sends that wait for the fetch, each with the device time of its arrival; R324: the transfers not yet sent. -/
  waiting : List (Nat × Packet) := []
  work : List Transfer := []
deriving DecidableEq, Repr

/-- R324, R328: a registered region: base pointer, size, its context, revoked, drained. -/
structure Registration where
  base : Dbl
  bytes : Nat
  ctx : Nat
  revoked : Bool := false
  known : List (Nat × Nat) := []
deriving DecidableEq, Repr

/-- R325: a message being received: the packets placed and their bytes. -/
structure RxMsg where
  qp : Nat
  key : Nat
  placed : List Nat
  bytes : Nat
deriving DecidableEq, Repr

/-- R325: a message being sent: its packets, those not known to have been placed, the resends so far, and when its timer
expires. -/
structure TxMsg where
  qp : Nat
  packets : List Packet := []
  missing : List Nat
  resends : Nat := 0
  due : Nat := 0
deriving DecidableEq, Repr

/-- R324-R328: the Runnel adapter of a device, with the answers and the packets it has sent. -/
structure Runnel where
  rx : Tbl RxMsg := []
  tx : Tbl TxMsg := []
  qps : Tbl QueuePair := []
  late : List (Nat × Nat) := []
  posted : List (Nat × Nat) := []
  /-- R326: messages that ended with error. -/
  failed : List (Nat × Nat) := []
  regs : Tbl Registration := []
  answers : List (Nat × Nat × Nat) := []
  sent : List Packet := []
  next : Nat := 0
deriving DecidableEq, Repr

/-- A device: R116, R255-R269, R280, R314, R323, R331-R334. -/
structure Device where
  /-- R116: the machine's time (`State.now`) when the device left reset. -/
  base : Nat := 0
  units : Tbl WorkUnit := []
  serial : Nat := 1
  admitted : Nat := 0
  vfsch : Tbl Word := []
  age : Tbl Nat := []
  reservation : Nat := 1000
  collCores : Nat := 0
  /-- R262: partitions: key VF, the clusters (die × 16 + number); a VF that is not listed has every cluster. -/
  partitions : Tbl (List Nat) := []
  predictor : Tbl (Tbl Predict) := []
  revoked : List Nat := []
  vfcores : Tbl VfCore := []
  timers : Tbl Timer := []
  msix : List (Nat × Nat) := []
  advisories : List (Nat × List Nat) := []
  /-- R187: flip requests posted to the host driver: page numbers of device memory. -/
  flipPosts : List Nat := []
  /-- R188: the pages whose flip to host bias the driver has been told of. -/
  flipTold : List Nat := []
  /-- R313: what was last written into the root core's mailbox. -/
  mailbox : Nat := 0
  errors : List LineReport := []
  /-- R329, R330: the firmware images running, as measured: root firmware, then that of each VF. R334: the power limit. -/
  images : List FwImage := []
  limit : Nat := 2300
  /-- R323: the device times of the corrected errors of a frame in the last day, and the frames reported for them. -/
  frameErrs : Tbl (List Nat) := []
  frameAdvisories : List Nat := []
  bringup : Nat := 8
  recovery : Bool := false
  powered : Bool := true
  /-- R333: the clusters (die × 16 + number) that are gated, and those whose contexts are streamed out to be gated. -/
  gated : List Nat := []
  gating : List Nat := []
  watts : Nat := 0
  /-- R333: the 64 junction sensors of die H0, then those of H1, in degrees Celsius. -/
  temps : List Nat := List.replicate 128 0
  runnel : Runnel := {}
deriving DecidableEq, Repr

/-- R29, R262: a core: the VF whose turn it is, and the device time at which its turn began. -/
structure Core where
  turn : Nat := 0
  since : Nat := 0
deriving DecidableEq, Repr

/-- R280: a line that holds an uncorrectable error: the cause of its location, the bytes not yet rewritten. -/
structure LineError where
  cause : Nat
  left : Dbl
deriving DecidableEq, Repr

/-- R294-R304: the fabric: the planes down, and those whose recovery has not ended; devices whose membership is withdrawn;
SLCTL (key plane × 512 + port, default 0x0001_0000); combining tables; records (key (plane × 512 + port) × 4096 + number);
messages; failed tries per link (key device × 32 + port); error counters of the planes. -/
structure Fabric where
  /-- Devices of the pod (log 6). -/
  devices : Nat := 512
  down : List Nat := []
  /-- R302: recoveries under way: the plane, whether it returns at the end, and the devices that have yet to acknowledge. -/
  recovering : Tbl (Bool × List Nat) := []
  absent : List Nat := []
  slctl : Tbl Word := []
  combs : Tbl CombEntry := []
  records : Tbl Record := []
  msgs : Tbl Msg := []
  retries : Tbl Nat := []
  counters : Tbl Nat := []
deriving DecidableEq, Repr

/-- What moves next (log 1): a team issues; a team issues and some mask words of its instruction are swept before it stops
(R281, R285); a matrix sequencer runs some rows of its operation before it stops (R249); or an event of the table happens. -/
inductive Occur where
  | issue (team : Nat)
  | sweep (team words : Nat)
  | rows (ctx rows : Nat)
  | event (i : Instr)
deriving DecidableEq, Repr

/-- The whole machine. -/
structure State where
  /-- The order in which agents and the outside move (log 1); when empty the machine's own order applies. -/
  agenda : List Occur := []
  /-- The team an instruction executes for. -/
  cur : Nat := 0
  /-- Steps taken so far, from which each device's clock follows (log 5). -/
  now : Nat := 0
  /-- Free values drawn so far, issues so far, identifiers given out (the model's own). -/
  stamp : Nat := 0
  issues : Nat := 0
  fresh : Nat := 0
  /-- What the last host read, AtomicOp or debugger READ returned (R187, R313, R289); none when it was refused. -/
  answer : Option Nat := none
  teams : Tbl Team := []
  blocks : Tbl Block := []
  ctxs : Tbl Ctx := []
  /-- Nodes by device × 65,536 + ready-pool entry (R258). -/
  nodes : Tbl Node := []
  devs : Tbl Device := []
  sites : Tbl Site := []
  cores : Tbl Core := []
  moves : Tbl Move := []
  reqs : Tbl Req := []
  colls : Tbl Contribution := []
  gangs : Tbl Gang := []
  fabric : Fabric := {}
  /-- R280: lines with an uncorrectable error, by line key (memory key ÷ 64). -/
  errors : Tbl LineError := []
  mem : Memory
deriving DecidableEq, Repr

/-- Why a run stops with a fault. The model raises none: every cause of R275 is a next state. -/
inductive Fault where
  /-- Never raised: kept so that the type of reasons is not empty. Safe. -/
  | none
deriving DecidableEq, Repr

/-- Why an instruction is refused. The model refuses none. -/
inductive Refusal where
  /-- No meaning yet, by mnemonic. Never raised. Safe. -/
  | notModelled (mnemonic : String)
deriving DecidableEq, Repr

/-- R165, R189, log 4: device physical memory and host memory hold no promised value at power-on. -/
def powerOnRanges : List OpenRange := [⟨2 ^ 64, 601 * 2 ^ 64, 0⟩]

/-- The machine right after reset: nothing placed, no object, no context; every device's clock 0 (R116), OSITE, AGE, VFSCH and
SLCTL at their reset values (the defaults of their tables). -/
def State.reset : State := { mem := { open_ := powerOnRanges } }

end Sys2Proof.Machine
end

