-- ==== Sys2Proof/Machine/Tbl.lean ====
section
/-! DEFINITION. Tables by number in one canonical form: keys strictly rising. The machine keeps everything of which the
manual gives a numbered set in one of them (R7, R25). -/
namespace Sys2Proof.Machine

/-- The entry of key `k`, if there is one. -/
def tget {α : Type} : Tbl α → Nat → Option α
  | [], _ => none
  | (j, x) :: t, k => if j = k then some x else tget t k

/-- The entry of key `k`, or the default. -/
def tgetD {α : Type} (t : Tbl α) (k : Nat) (d : α) : α := (tget t k).getD d

/-- Enters `x` under key `k`, replacing what stood there. -/
def tput {α : Type} : Tbl α → Nat → α → Tbl α
  | [], k, x => [(k, x)]
  | (j, y) :: t, k, x => if j = k then (k, x) :: t else if k < j then (k, x) :: (j, y) :: t else (j, y) :: tput t k x

/-- Removes every entry of key `k`. -/
def tdel {α : Type} : Tbl α → Nat → Tbl α
  | [], _ => []
  | (j, y) :: t, k => if j = k then tdel t k else (j, y) :: tdel t k

/-- Enters `x` unless it is the default, which is not listed. -/
def tset {α : Type} [DecidableEq α] (d : α) (t : Tbl α) (k : Nat) (x : α) : Tbl α :=
  if x = d then tdel t k else tput t k x

/-- Changes the entry of key `k` where there is one. -/
def tmod {α : Type} (t : Tbl α) (k : Nat) (f : α → α) : Tbl α :=
  match tget t k with
  | some x => tput t k (f x)
  | none => t

/-- The keys, rising. -/
def tkeys {α : Type} (t : Tbl α) : List Nat := t.map Prod.fst

/-- Canonical form: keys strictly rising. -/
def twf {α : Type} : Tbl α → Bool
  | [] => true
  | [_] => true
  | (j, _) :: (k, y) :: t => decide (j < k) && twf ((k, y) :: t)

/-- A key larger than every key of the table. -/
def tfresh {α : Type} : Tbl α → Nat
  | [] => 0
  | (j, _) :: t => max (j + 1) (tfresh t)

end Sys2Proof.Machine
end

