-- ==== Sys2Proof/WellFormed.lean ====
section
/-! DEFINITION. Which encoded instructions are legal: R83 step 4, "every reserved field zero; every field value legal"
(cause 0x002 otherwise), for every row that has an encoding. Pairs, quads and unacquired registers (steps 5 and 6) depend
on the team and are checked where it issues (Machine/Operands.lean). -/
namespace Sys2Proof

/-- Bits [lo+n-1 : lo] of a field as a number (R4). -/
def sub {w : Nat} (x : BitVec w) (lo n : Nat) : Nat := x.toNat / 2 ^ lo % 2 ^ n

/-- Bits [lo+n-1 : lo] are zero. -/
def bitsZero {w : Nat} (x : BitVec w) (lo n : Nat) : Bool := sub x lo n == 0

/-- The index bits of the minor (R75) are cleared in the payload. -/
def noIndex {w : Nat} (m : BitVec w) (k : Nat) : Bool := m.toNat % k == 0

/-- R67: a guard of p0 with negate set is illegal. -/
def guardOk (n : Bool) (g : BitVec 3) : Bool := !(n && g == 0)

/-- R68: the legal permutation bytes. -/
def permOk (p : BitVec 8) : Bool :=
  match sub p 5 3 with
  | 0 => sub p 0 5 == 0
  | 1 => decide (1 ≤ sub p 0 5)
  | 2 => decide (1 ≤ sub p 0 5) && decide (sub p 0 5 ≤ 7)
  | 3 => decide (1 ≤ sub p 0 5) && decide (sub p 0 5 ≤ 5)
  | 4 => true
  | _ => false

/-- A lane source that the operation does not read is a reserved field, and so is its permutation byte (R83). -/
def noSrc (v : BitVec 7) (p : BitVec 8) : Bool := v == 0 && p == 0

/-- A second source `vb` with its permutation, or its absence. -/
def srcB (used : Bool) (o : A64) : Bool := if used then permOk o.pb else noSrc o.vb o.pb

/-- R76: an operation of major 0x01 with the operands and modifiers of its row. -/
def legalInt (o : A64) (useB useC allowN allowSat : Bool) : Bool :=
  guardOk o.n o.g && noIndex o.m 32 && permOk o.pa && srcB useB o && (useC || o.vc == 0) &&
  (allowN || bitsZero o.m 6 1) && (allowSat || bitsZero o.m 7 1)

/-- R76: ISEL carries its predicate in the low bits of vc. -/
def legalIsel (o : A64) : Bool := legalInt o true true false false && bitsZero o.vc 3 4

/-- R76: ICMP carries its condition in vc and its predicate in vd. -/
def legalIcmp (o : A64) : Bool :=
  legalInt o true true true false && bitsZero o.vc 4 3 && decide (sub o.vc 0 4 ≤ 5) && bitsZero o.vd 3 4

/-- R77: an operation of major 0x02; type 3 is reserved. -/
def legalFloat (o : A64) (useB useC : Bool) : Bool :=
  guardOk o.n o.g && noIndex o.m 16 && decide (sub o.m 4 2 ≠ 3) && permOk o.pa && srcB useB o && (useC || o.vc == 0)

/-- R77: FCMP takes type 0 and rounding 0, a condition 0 to 7 and a predicate destination. -/
def legalFcmp (o : A64) : Bool :=
  legalFloat o true true && bitsZero o.m 4 4 && bitsZero o.vc 3 4 && bitsZero o.vd 3 4

/-- R78: the destination and source type codes and the rounding mode of major 0x03. -/
def cvtD (o : A64) : Nat := sub o.vc 0 5
def cvtS (o : A64) : Nat := sub o.pb 0 5
def cvtMode (o : A64) : Nat := sub o.m 2 3
def notRs (o : A64) : Bool := decide (cvtMode o ≠ 4)

/-- R78: vb holds the random word under rs and is v0 otherwise. -/
def legalCvtFields (o : A64) : Bool :=
  guardOk o.n o.g && noIndex o.m 4 && bitsZero o.m 5 3 && decide (cvtMode o ≤ 4) && bitsZero o.vc 5 2 &&
  bitsZero o.pb 5 3 && permOk o.pa && (decide (cvtMode o = 4) || o.vb == 0)

/-- R78: the float types of I2F, F2I and FRND. -/
def laneFmt (f : Nat) : Bool := f == 0 || f == 2 || f == 3

/-- R78: the types of FCVT. -/
def fcvtFmt (f : Nat) : Bool := decide (f ≤ 3) || (decide (5 ≤ f) && decide (f ≤ 7)) || (decide (10 ≤ f) && decide (f ≤ 13))

/-- R48: significand bits of the float formats, the implied bit counted. -/
def significand (f : Nat) : Nat :=
  match f with
  | 0x00 => 24 | 0x01 => 11 | 0x02 => 8 | 0x03 => 11 | 0x05 => 3 | 0x06 => 4 | 0x07 => 5
  | 0x0A => 3 | 0x0B => 4 | 0x0C => 2 | 0x0D => 3 | _ => 0

/-- R78, R42: FCVT between different types; rs only where the destination has fewer significand bits. -/
def legalFcvt (o : A64) : Bool :=
  legalCvtFields o && fcvtFmt (cvtS o) && fcvtFmt (cvtD o) && decide (cvtS o ≠ cvtD o) &&
  (notRs o || decide (significand (cvtD o) < significand (cvtS o)))

/-- R107: the segment field of major 0x04. -/
def legalSeg (o : A64) (limit : Nat) : Bool := bitsZero o.vc 4 3 && decide (sub o.vc 0 4 ≤ limit)

/-- R108. -/
def legalShfl (o : A64) : Bool :=
  guardOk o.n o.g && noIndex o.m 4 && bitsZero o.m 5 3 && permOk o.pa && permOk o.pb && legalSeg o 5

/-- R109. -/
def legalVote (o : A64) (limit : Nat) : Bool :=
  guardOk o.n o.g && o.m == 0 && bitsZero o.va 4 3 && o.vb == 0 && o.pa == 0 && o.pb == 0 && legalSeg o limit

/-- R110. -/
def legalScan (o : A64) : Bool :=
  guardOk o.n o.g && noIndex o.m 4 && decide (sub o.m 2 4 ≤ 10) && bitsZero o.m 7 1 && permOk o.pa &&
  noSrc o.vb o.pb && legalSeg o 10

/-- R106. -/
def legalPtr (o : A64) (useB : Bool) : Bool :=
  guardOk o.n o.g && o.m == 0 && permOk o.pa && srcB useB o && o.vc == 0

/-- R112: PLOP keeps its lookup table in [63:56]. -/
def legalPlop (o : A64) : Bool :=
  guardOk o.n o.g && o.m == 0 && bitsZero o.vd 3 4 && bitsZero o.va 3 4 && bitsZero o.vb 3 4 && bitsZero o.vc 3 4 &&
  o.pa == 0

/-- R112: the modifiers and unused fields of K2V and V2K. -/
def legalKv (o : A64) : Bool :=
  noIndex o.m 4 && bitsZero o.m 2 3 && bitsZero o.m 6 2 && noSrc o.vb o.pb && o.vc == 0

/-- R155: fields common to the barrier instructions, the greatest barrier allowed given. -/
def legalBar (o : A64) (limit : Nat) : Bool :=
  !o.n && o.g == 0 && o.m == 0 && bitsZero o.vc 5 2 && decide (sub o.vc 0 5 ≤ limit) && o.vb == 0

/-- The guard and negate of an instruction that acts once per team are zero. -/
def once (o : I64) : Bool := !o.n && o.g == 0

/-- kd in [19:14] and ka in [26:21], with [20] and [27] zero. -/
def kFields (o : I64) : Bool := bitsZero o.vd 6 1 && bitsZero o.va 6 1

/-- R116: per lane, or shared; width; access. -/
inductive SpecialKind where
  | perLane | shared
deriving DecidableEq, Repr

/-- R116: number → (held per lane or shared, width in bits, number of indices, writable). -/
def special (num : Nat) : Option (SpecialKind × Nat × Nat × Bool) :=
  match num with
  | 0x000 => some (.perLane, 32, 1, false)
  | 0x001 | 0x002 | 0x003 | 0x004 | 0x005 | 0x006 | 0x007 | 0x00A => some (.shared, 32, 1, false)
  | 0x009 => some (.shared, 64, 1, false)
  | 0x010 | 0x011 | 0x012 | 0x013 => some (.shared, 32, 1, false)
  | 0x020 => some (.shared, 32, 32, false)
  | 0x021 => some (.shared, 32, 1, false)
  | 0x030 | 0x031 | 0x032 | 0x033 | 0x034 | 0x040 | 0x041 | 0x050 | 0x081 => some (.shared, 64, 1, false)
  | 0x060 | 0x061 | 0x062 | 0x070 | 0x072 | 0x07A => some (.shared, 32, 1, true)
  | 0x071 => some (.shared, 64, 1, true)
  | 0x078 => some (.shared, 32, 32, false)
  | 0x079 => some (.perLane, 32, 1, false)
  | 0x080 => some (.shared, 32, 256, false)
  | _ => none

/-- R115: imm32 of SRD and SWR: register number and index. -/
def spNum (o : I64) : Nat := sub o.imm 0 12
def spIdx (o : I64) : Nat := sub o.imm 12 8

/-- R115: the number, index and `.d` agree with R116; `write` asks for an RW register. -/
def legalSpecial (o : I64) (laneSide write : Bool) : Bool :=
  bitsZero o.imm 20 12 &&
  match special (spNum o) with
  | none => false
  | some (k, w, n, rw) =>
    decide (spIdx o < n) && (o.m.getLsbD 2 == decide (w = 64)) && (laneSide || k == .shared) && (!write || rw)

/-- R115: SRD on its lane side or its uniform side. -/
def legalSrd (o : I64) : Bool :=
  noIndex o.m 4 && bitsZero o.m 4 2 && o.va == 0 &&
  if o.m.getLsbD 3 then once o && bitsZero o.vd 6 1 && legalSpecial o false false
  else guardOk o.n o.g && legalSpecial o true false

/-- R115: SWR is always on the uniform side. -/
def legalSwr (o : I64) : Bool :=
  noIndex o.m 4 && bitsZero o.m 4 2 && o.m.getLsbD 3 && o.vd == 0 && once o && bitsZero o.va 6 1 &&
  legalSpecial o false true

/-- R80: scope codes 1 to 5. -/
def scopeOk (sc : BitVec 3) : Bool := decide (1 ≤ sc.toNat) && decide (sc.toNat ≤ 5)

/-- R80: an ordered access takes a scope of 1 to 5, a plain one scope 0. -/
def orderOk (ordered : Bool) (sc : BitVec 3) : Bool := if ordered then scopeOk sc else sc == 0

/-- R80: with a uniform base, bit [29] is zero. -/
def baseOk (o : M64) : Bool := !o.m.getLsbD 6 || bitsZero o.va 6 1

/-- R80: LD and ST. -/
def legalMem (o : M64) : Bool :=
  guardOk o.n o.g && bitsZero o.m 7 1 && decide (sub o.m 0 3 ≤ 4) && (bitsZero o.m 3 1 || decide (sub o.m 0 3 ≤ 1)) &&
  orderOk (o.m.getLsbD 5) o.sc

/-- R143: ATOM and RED. -/
def legalAtom (o : M64) : Bool := guardOk o.n o.g && noIndex o.m 16 && scopeOk o.sc && baseOk o

/-- R149. -/
def legalWaita (o : M64) : Bool :=
  guardOk o.n o.g && noIndex o.m 4 && bitsZero o.m 4 2 && bitsZero o.m 7 1 && orderOk (o.m.getLsbD 3) o.sc && baseOk o

/-- R151: every field except the minor and the scope is zero. -/
def legalFence (o : M64) : Bool :=
  o.m == 0 && o.imm == 0 && !o.n && o.g == 0 && o.vi == 0 && o.va == 0 && o.vd == 0

/-- R152. -/
def legalStMc (o : M64) : Bool :=
  guardOk o.n o.g && noIndex o.m 4 && decide (sub o.m 2 3 ≤ 4) && bitsZero o.m 6 2 && o.vi == 0 &&
  decide (o.imm.toNat < 256) && (if o.m.getLsbD 5 then decide (3 ≤ o.sc.toNat) && decide (o.sc.toNat ≤ 5) else o.sc == 0)

/-- R142. -/
def legalKmem (o : M64) : Bool :=
  !o.n && o.g == 0 && o.vi == 0 && noIndex o.m 2 && bitsZero o.m 7 1 && bitsZero o.va 6 1 && bitsZero o.vd 6 1 &&
  decide (sub o.m 1 3 ≤ 3) && (bitsZero o.m 4 1 || decide (sub o.m 1 3 ≤ 1)) && orderOk (o.m.getLsbD 5) o.sc

/-- R222: TG ([63]) and BC ([62]) with their fields; [61:60] zero. -/
def engFlags (o : E64) : Bool :=
  bitsZero o.fl 0 2 && (o.fl.getLsbD 3 || o.tb == 0) && (o.fl.getLsbD 2 || o.kq == 0)

/-- R51: the formats whose elements are indices into a codebook. -/
def isC (f : Nat) : Bool := decide (0x1A ≤ f ∧ f ≤ 0x1D)

/-- R232: an instruction that names no parameter word leaves kp zero. -/
def kpNamed (named : Bool) (o : E64) : Bool := named || o.kp == 0

/-- R234: the formats of MQNT. -/
def quantFmt (f : Nat) : Bool := (decide (0x13 ≤ f) && decide (f ≤ 0x19)) || f == 0x1E || f == 0x1F

/-- R221: the selectors of XQRY; selector 11 names its tile register in kq, 11 and 16 leave x1 zero. -/
def xqrySel (o : E64) : Bool :=
  let s := sub o.m 2 6
  (decide (s ≤ 12) || s == 16) && (if s == 11 || s == 16 then o.x1 == 0 else true) &&
  (if s == 11 then bitsZero o.kq 4 2 else o.kq == 0) && o.fl == 0 && o.tb == 0

/-- R82: a condition of p0 with negate set marks an unused pair, whose offset is zero. -/
def pairOk (c : BitVec 4) (off : BitVec 10) : Bool := !(c == 8) || off == 0

/-- R244. -/
def legalCtr (o : I64) : Bool := once o && kFields o && noIndex o.m 8 && bitsZero o.m 5 1 && o.imm == 0

/-- R248. -/
def legalSys (o : I64) : Bool := once o && kFields o && o.m == 0 && decide (o.imm.toNat < 65536)
def legalSleep (o : I64) : Bool := once o && kFields o && o.m == 0 && o.vd == 0

/-- R83 step 4 for every instruction; an event has no encoding. -/
def Instr.legal : Instr → Bool
  | .movC16 _ => true
  | .iaddC16 _ => true
  | .isubC16 _ => true
  | .imulC16 _ => true
  | .iandC16 _ => true
  | .iorC16 _ => true
  | .ixorC16 _ => true
  | .ishlC16 _ => true
  | .ishrC16 _ => true
  | .isarC16 _ => true
  | .iminC16 _ => true
  | .imaxC16 _ => true
  | .faddC16 _ => true
  | .fsubC16 _ => true
  | .fmulC16 _ => true
  | .fmaxC16 _ => true
  | .iaddL3 _ => true
  | .isubL3 _ => true
  | .imulL3 _ => true
  | .imulhL3 _ => true
  | .iandL3 _ => true
  | .iorL3 _ => true
  | .ixorL3 _ => true
  | .ishlL3 _ => true
  | .ishrL3 _ => true
  | .isarL3 _ => true
  | .iminL3 _ => true
  | .imaxL3 _ => true
  | .faddL3 _ => true
  | .fsubL3 _ => true
  | .fmulL3 _ => true
  | .iaddRi _ => true
  | .iandRi _ => true
  | .iorRi _ => true
  | .ixorRi _ => true
  | .ishlRi _ => true
  | .ishrRi _ => true
  | .isarRi _ => true
  | .movRi _ => true
  | .kmov _ => true
  | .kadd _ => true
  | .ksub _ => true
  | .kmul _ => true
  | .kand _ => true
  | .kor _ => true
  | .kxor _ => true
  | .kshl _ => true
  | .kshr _ => true
  | .ksar _ => true
  | .kmin _ => true
  | .kmax _ => true
  | .kminN _ => true
  | .kmaxN _ => true
  | .kcmp o => decide (o.c.toNat ≤ 9)
  | .bra o => guardOk o.n o.p
  | .call _ => true
  | .div _ => true
  | .ldBM _ => true
  | .ldHM _ => true
  | .ldWM _ => true
  | .ldDM _ => true
  | .ldQM _ => true
  | .stBM _ => true
  | .stHM _ => true
  | .stWM _ => true
  | .stDM _ => true
  | .stQM _ => true
  | .bkpt _ => true
  | .trap _ => true
  | .iadd o => legalInt o true false true true
  | .isub o => legalInt o true false true true
  | .imul o => legalInt o true false true true
  | .imulh o => legalInt o true false true false
  | .imad o => legalInt o true true true true
  | .imin o => legalInt o true false true false
  | .imax o => legalInt o true false true false
  | .iabs o => legalInt o false false false true
  | .iand o => legalInt o true false false false
  | .ior o => legalInt o true false false false
  | .ixor o => legalInt o true false false false
  | .ishl o => legalInt o true false false false
  | .ishr o => legalInt o true false false false
  | .isar o => legalInt o true false false false
  | .irot o => legalInt o true false false false
  | .ipopc o => legalInt o false false false false
  | .iclz o => legalInt o false false false false
  | .ibrev o => legalInt o false false false false
  | .ibfx o => legalInt o true true true false
  | .ibfi o => legalInt o true true false false
  | .isel o => legalIsel o
  | .icmp o => legalIcmp o
  | .mov o => legalInt o false false false false
  | .fadd o => legalFloat o true false
  | .fsub o => legalFloat o true false
  | .fmul o => legalFloat o true false
  | .ffma o => legalFloat o true true
  | .fmin o => legalFloat o true false && bitsZero o.m 6 2
  | .fmax o => legalFloat o true false && bitsZero o.m 6 2
  | .fcmp o => legalFcmp o
  | .frcp o => legalFloat o false false
  | .frsq o => legalFloat o false false
  | .fexp2 o => legalFloat o false false
  | .flog2 o => legalFloat o false false
  | .fclass o => legalFloat o false false && bitsZero o.m 4 4
  | .fcvt o => legalFcvt o
  | .i2f o => legalCvtFields o && decide ((cvtS o) < 4) && laneFmt (cvtD o) && notRs o
  | .f2i o => legalCvtFields o && laneFmt (cvtS o) && decide ((cvtD o) < 4) && notRs o
  | .frnd o => legalCvtFields o && laneFmt (cvtS o) && decide (cvtD o = cvtS o) && notRs o
  | .shfl o => legalShfl o
  | .voteAny o => legalVote o 10 && bitsZero o.vd 3 4
  | .voteAll o => legalVote o 10 && bitsZero o.vd 3 4
  | .voteBallot o => legalVote o 5
  | .voteFfs o => legalVote o 10
  | .redux o => legalScan o && bitsZero o.m 6 1
  | .scan o => legalScan o
  | .padd o => legalPtr o true
  | .pmake o => legalPtr o true
  | .pgoid o => legalPtr o false
  | .poff o => legalPtr o false
  | .plop o => legalPlop o
  | .pmovGet o => guardOk o.n o.g && o.m == 0 && noSrc o.va o.pa && noSrc o.vb o.pb && o.vc == 0
  | .pmovSet o => guardOk o.n o.g && o.m == 0 && permOk o.pa && noSrc o.vb o.pb && o.vc == 0 && o.vd == 0
  | .k2v o => guardOk o.n o.g && legalKv o && bitsZero o.va 6 1 && o.pa == 0
  | .v2k o => guardOk o.n o.g && legalKv o && bitsZero o.vd 6 1 && permOk o.pa
  | .iaddImm o => guardOk o.n o.g && noIndex o.m 32
  | .imulImm o => guardOk o.n o.g && noIndex o.m 32
  | .iminImm o => guardOk o.n o.g && noIndex o.m 32
  | .imaxImm o => guardOk o.n o.g && noIndex o.m 32
  | .iandImm o => guardOk o.n o.g && noIndex o.m 32
  | .iorImm o => guardOk o.n o.g && noIndex o.m 32
  | .ixorImm o => guardOk o.n o.g && noIndex o.m 32
  | .ishlImm o => guardOk o.n o.g && noIndex o.m 32
  | .ishrImm o => guardOk o.n o.g && noIndex o.m 32
  | .isarImm o => guardOk o.n o.g && noIndex o.m 32
  | .irotImm o => guardOk o.n o.g && noIndex o.m 32
  | .icmpImm o => guardOk o.n o.g && noIndex o.m 32 && decide ((sub o.vd 3 4) ≤ 9)
  | .movImm o => guardOk o.n o.g && noIndex o.m 32 && o.va == 0
  | .faddImm o => guardOk o.n o.g && noIndex o.m 16
  | .fsubImm o => guardOk o.n o.g && noIndex o.m 16
  | .fmulImm o => guardOk o.n o.g && noIndex o.m 16
  | .fminImm o => guardOk o.n o.g && o.m == 0
  | .fmaxImm o => guardOk o.n o.g && o.m == 0
  | .fcmpImm o => guardOk o.n o.g && o.m == 0 && bitsZero o.vd 6 1
  | .kmovImm o => once o && kFields o && o.m == 0 && o.va == 0
  | .kaddImm o => once o && kFields o && o.m == 0
  | .ksubImm o => once o && kFields o && o.m == 0
  | .kmulImm o => once o && kFields o && o.m == 0
  | .kandImm o => once o && kFields o && o.m == 0
  | .korImm o => once o && kFields o && o.m == 0
  | .kxorImm o => once o && kFields o && o.m == 0
  | .kshlImm o => once o && kFields o && o.m == 0
  | .kshrImm o => once o && kFields o && o.m == 0
  | .ksarImm o => once o && kFields o && o.m == 0
  | .kminImm o => once o && kFields o && o.m == 0
  | .kmaxImm o => once o && kFields o && o.m == 0
  | .kminNImm o => once o && kFields o && o.m == 0
  | .kmaxNImm o => once o && kFields o && o.m == 0
  | .kcmpImm o => once o && kFields o && decide (16 ≤ o.m.toNat) && decide (o.m.toNat ≤ 25)
  | .srd o => legalSrd o
  | .swr o => legalSwr o
  | .kloop o => once o && kFields o && o.m == 0 && o.va == 0 && !(o.vd == 0)
  | .ld o => legalMem o && baseOk o
  | .st o => legalMem o && baseOk o && bitsZero o.m 3 2
  | .atomAdd o => legalAtom o
  | .atomAddCmb o => legalAtom o
  | .atomAddNoc o => legalAtom o
  | .atomAddCmbNoc o => legalAtom o
  | .atomMin o => legalAtom o
  | .atomMax o => legalAtom o
  | .atomMinN o => legalAtom o
  | .atomMaxN o => legalAtom o
  | .atomAnd o => legalAtom o
  | .atomOr o => legalAtom o
  | .atomXor o => legalAtom o
  | .atomExch o => legalAtom o
  | .atomCas o => legalAtom o
  | .atomFadd o => legalAtom o && bitsZero o.m 7 1
  | .redAdd o => legalAtom o && bitsZero o.m 4 1
  | .redAddNoc o => legalAtom o && bitsZero o.m 4 1
  | .redMin o => legalAtom o && bitsZero o.m 4 1
  | .redMax o => legalAtom o && bitsZero o.m 4 1
  | .redMinN o => legalAtom o && bitsZero o.m 4 1
  | .redMaxN o => legalAtom o && bitsZero o.m 4 1
  | .redAnd o => legalAtom o && bitsZero o.m 4 1
  | .redOr o => legalAtom o && bitsZero o.m 4 1
  | .redXor o => legalAtom o && bitsZero o.m 4 1
  | .waita o => legalWaita o
  | .fenceAcq o => legalFence o && scopeOk o.sc
  | .fenceRel o => legalFence o && scopeOk o.sc
  | .fenceAr o => legalFence o && scopeOk o.sc
  | .stMc o => legalStMc o
  | .kld o => legalKmem o
  | .kst o => legalKmem o && bitsZero o.m 4 1 && bitsZero o.m 6 1
  | .barArv o => legalBar o 27 && noSrc o.va o.pa && o.pb == 0 && o.vd == 0
  | .barWait o => legalBar o 27 && noSrc o.va o.pa && o.pb == 0 && o.vd == 0
  | .barSync o => legalBar o 27 && noSrc o.va o.pa && o.pb == 0 && o.vd == 0
  | .barExp o => legalBar o 23 && bitsZero o.va 6 1 && o.vd == 0
  | .barTest o => legalBar o 27 && noSrc o.va o.pa && o.pb == 0 && bitsZero o.vd 6 1
  | .tagWait o => once o && kFields o && noIndex o.m 8 && bitsZero o.m 4 2 && o.vd == 0
  | .tagFfs o => once o && kFields o && o.m == 0
  | .tagClr o => once o && kFields o && o.m == 0 && o.vd == 0
  | .tlWait o => once o && kFields o && noIndex o.m 8 && decide ((sub o.m 3 3) ≤ 4) && o.vd == 0
  | .tlRd o => once o && kFields o && noIndex o.m 8 && decide ((sub o.m 3 3) ≤ 4) && o.va == 0 && decide (o.imm.toNat ≤ 1)
  | .racq o => once o && kFields o && noIndex o.m 2 && bitsZero o.m 2 4 && decide (o.imm.toNat ≤ 3) && o.va == 0 && (o.m.getLsbD 1 || o.vd == 0)
  | .rrel o => once o && kFields o && o.m == 0 && decide (o.imm.toNat ≤ 3) && o.va == 0 && o.vd == 0
  | .brm o => pairOk o.c0 o.o0 && pairOk o.c1 o.o1 && pairOk o.c2 o.o2 && pairOk o.c3 o.o3
  | .mlds o => kpNamed (isC o.fb.toNat) o && o.m == 0 && o.fl == 0 && o.tb == 0 && o.kq == 0 && o.fa == 0 && o.h == 0 && o.x1 == 0
  | .mma o => kpNamed (isC o.fa.toNat || isC o.fb.toNat || o.fl.getLsbD 1) o && o.m == 0 && o.tb == 0 && bitsZero o.fl 2 2 && o.kq == 0 && o.x2 == 0
  | .mloop o => o.m == 0 && o.tb == 0 && bitsZero o.fl 3 1 && o.kq == 0
  | .mzero o => o.m == 0 && o.tb == 0 && bitsZero o.fl 1 3 && o.kq == 0 && o.kp == 0 && o.fb == 0 && o.fa == 0 && o.x2 == 0 && o.x1 == 0 && decide (o.sh.toNat < 8)
  | .mrel o => o.m == 0 && o.fl == 0 && o.tb == 0 && o.kq == 0 && o.kp == 0 && o.sh == 0 && o.fb == 0 && o.fa == 0 && o.x2 == 0 && o.x1 == 0
  | .mrd o => o.m == 0 && engFlags o && o.kp == 0 && o.sh == 0 && o.fb == 0 && o.x2 == 0 && decide (o.fa.toNat ≤ 0x11)
  | .mqnt o => kpNamed (decide (o.fa.toNat < 0x1E)) o && o.m == 0 && engFlags o && o.sh == 0 && o.fb == 0 && o.x2 == 0 && quantFmt o.fa.toNat
  | .mscac o => noIndex o.m 16 && bitsZero o.m 7 1 && o.tb == 0 && bitsZero o.fl 1 3 && o.kq == 0 && o.kp == 0 && o.sh == 0 && o.fb == 0 && o.fa == 0
  | .mcbl o => o.m == 0 && o.fl == 0 && o.tb == 0 && o.kq == 0 && o.sh == 0 && o.fb == 0 && o.fa == 0 && o.h == 0 && o.x2 == 0
  | .mhndGet o => o.m == 0 && o.fl == 0 && o.tb == 0 && o.kq == 0 && o.sh == 0 && o.fb == 0 && o.fa == 0 && o.x2 == 0 && o.x1 == 0
  | .mhndSet o => o.m == 0 && o.fl == 0 && o.tb == 0 && o.kq == 0 && o.sh == 0 && o.fb == 0 && o.fa == 0 && o.x2 == 0 && o.x1 == 0
  | .cpy o => o.m == 0 && engFlags o && o.kp == 0 && o.sh == 0 && o.fb == 0 && o.fa == 0 && o.h == 0
  | .gath o => o.m == 0 && engFlags o && o.sh == 0 && o.fb == 0 && o.fa == 0 && o.h == 0
  | .scat o => o.m == 0 && engFlags o && o.sh == 0 && o.fb == 0 && o.fa == 0 && o.h == 0
  | .xld o => o.m == 0 && o.fl == 0 && o.tb == 0 && o.kq == 0 && o.sh == 0 && o.fb == 0 && o.fa == 0 && o.h == 0 && o.x2 == 0
  | .xadd o => o.m == 0 && o.fl == 0 && o.tb == 0 && o.kq == 0 && o.sh == 0 && o.fb == 0 && o.fa == 0 && o.h == 0
  | .xset o => noIndex o.m 4 && o.fl == 0 && o.tb == 0 && o.kq == 0 && o.sh == 0 && o.fb == 0 && o.fa == 0 && o.h == 0 && o.x2 == 0 && decide ((sub o.m 2 6) ≤ 10)
  | .xqry o => noIndex o.m 4 && o.fl == 0 && o.tb == 0 && o.sh == 0 && o.fb == 0 && o.fa == 0 && o.h == 0 && o.x2 == 0 && xqrySel o
  | .collAllReduce o => noIndex o.m 16 && bitsZero o.m 6 2 && engFlags o && o.sh == 0 && o.fb == 0 && o.h == 0 && o.x2 == 0 && o.fl.getLsbD 2 && decide ((sub o.m 4 2) ≠ 3)
  | .collReduceScatter o => noIndex o.m 16 && bitsZero o.m 6 2 && engFlags o && o.sh == 0 && o.fb == 0 && o.h == 0 && o.fl.getLsbD 2 && decide ((sub o.m 4 2) ≠ 3)
  | .collAllGather o => noIndex o.m 16 && bitsZero o.m 6 2 && engFlags o && o.sh == 0 && o.fb == 0 && o.h == 0 && o.fl.getLsbD 2 && decide ((sub o.m 4 2) ≠ 3)
  | .collAllToAll o => noIndex o.m 16 && bitsZero o.m 6 2 && engFlags o && o.sh == 0 && o.fb == 0 && o.h == 0 && o.fl.getLsbD 2 && decide ((sub o.m 4 2) ≠ 3)
  | .collBroadcast o => noIndex o.m 16 && bitsZero o.m 6 2 && engFlags o && o.sh == 0 && o.fb == 0 && o.h == 0 && o.x2 == 0 && o.fl.getLsbD 2 && decide ((sub o.m 4 2) ≠ 3)
  | .grpq o => noIndex o.m 2 && bitsZero o.m 4 4 && o.fl == 0 && o.tb == 0 && o.sh == 0 && o.fb == 0 && o.fa == 0 && o.h == 0 && o.x2 == 0 && o.x1 == 0 && decide ((sub o.m 1 3) ≠ 7)
  | .oqry o => once o && kFields o && o.m == 0 && decide (o.imm.toNat ≤ 2)
  | .ohint o => once o && kFields o && o.m == 0 && decide (o.imm.toNat < 2048)
  | .opin o => once o && kFields o && o.m == 0 && o.imm == 0 && o.vd == 0
  | .ounpin o => once o && kFields o && o.m == 0 && o.imm == 0 && o.vd == 0
  | .oalloc o => once o && kFields o && noIndex o.m 16 && bitsZero o.m 5 1 && decide (o.imm.toNat < 32768)
  | .ofree o => once o && kFields o && o.m == 0 && o.imm == 0 && o.vd == 0
  | .oext o => once o && kFields o && noIndex o.m 16 && bitsZero o.m 5 1 && o.imm == 0
  | .otrim o => once o && kFields o && o.m == 0 && o.imm == 0 && o.vd == 0
  | .ogrp o => once o && kFields o && o.m == 0 && decide (sub o.imm 12 19 = 0)
  | .shpRd o => once o && kFields o && o.m == 0 && o.va == 0 && o.imm == 0
  | .shpWait o => once o && kFields o && o.m == 0 && o.va == 0 && o.imm == 0
  | .shpPub o => once o && kFields o && o.m == 0 && decide (o.imm.toNat ≤ 1)
  | .launch o => once o && kFields o && o.m == 0 && o.imm == 0
  | .cancel o => once o && kFields o && noIndex o.m 8 && bitsZero o.m 5 1 && o.imm == 0 && o.vd == 0
  | .ctrRd o => legalCtr o
  | .sys o => legalSys o
  | .sleep o => legalSleep o
  | .laneFaultTrap _ => true
  | .dispatch _ => true
  | .blockPlace _ _ _ _ => true
  | .scratchpadFillDone _ => true
  | .nodeAging _ => true
  | .quantumEnd _ => true
  | .slotSwitch _ => true
  | .streamOut _ => true
  | .streamOutComplete _ => true
  | .streamIn _ _ _ _ _ => true
  | .streamInComplete _ => true
  | .blockLeave _ => true
  | .notifyWindowExpiry _ _ => true
  | .gangReserve _ => true
  | .gangReserveTimeout _ => true
  | .shapeResolve _ => true
  | .sleepWake _ => true
  | .matrixExecute _ => true
  | .slotAllocate _ => true
  | .planeLoadDone _ => true
  | .engineStart _ => true
  | .engineAccess _ => true
  | .engineBytesLand _ _ => true
  | .engineComplete _ => true
  | .collSequenceStart _ _ _ => true
  | .homeServe _ => true
  | .waitaRecheck _ => true
  | .stubForward _ => true
  | .notHereReceive _ => true
  | .askReceive _ => true
  | .registryLookup _ => true
  | .registryAnswer _ => true
  | .replyReceive _ => true
  | .storeAckReceive _ _ => true
  | .migrationRequest _ _ _ => true
  | .frameTransferDone _ => true
  | .windowEnd _ => true
  | .purge _ _ => true
  | .purgeAck _ _ => true
  | .pageFaultResolved _ _ _ => true
  | .flipDeviceToHost _ _ => true
  | .flipHostToDevice _ _ => true
  | .flitRetry _ _ _ => true
  | .planeDown _ => true
  | .planeRecoveryEnd _ => true
  | .requestTimeout _ => true
  | .sluiceEgress _ => true
  | .combineHoldExpiry _ => true
  | .creq _ => true
  | .cred _ => true
  | .crsp _ _ => true
  | .cack _ => true
  | .fabSplit _ => true
  | .fabDone _ => true
  | .fabLost _ => true
  | .drsp _ => true
  | .mcastReplicate _ => true
  | .mcastMemberAnswer _ _ => true
  | .mcastAckReceive _ => true
  | .doorbell _ _ _ _ => true
  | .firmwareRingPoll _ _ => true
  | .ringNode _ _ _ => true
  | .ringSvc _ _ _ => true
  | .ringCancel _ _ _ => true
  | .ringNop _ _ _ => true
  | .svcNop _ => true
  | .unitCreate _ => true
  | .groupSet _ => true
  | .groupClear _ => true
  | .mapInval _ => true
  | .faultRead _ => true
  | .attest _ => true
  | .hostBarWrite _ => true
  | .hostBarRead _ => true
  | .hostAtomicop _ _ => true
  | .dbgHalt _ _ => true
  | .dbgResume _ => true
  | .dbgStep _ => true
  | .dbgDetach _ _ => true
  | .lstep _ => true
  | .runto _ => true
  | .runtoReached _ => true
  | .dbgAttach _ => true
  | .debugRead _ _ => true
  | .debugWrite _ _ _ => true
  | .vfCoreReset _ _ => true
  | .kill _ _ => true
  | .keySlotRevoke _ _ => true
  | .frameRetire _ _ => true
  | .patrolScrub _ _ => true
  | .registerWrite _ _ => true
  | .powerOn _ _ _ => true
  | .powerSample _ _ _ => true
  | .thermalGateTick _ => true
  | .thermalRestoreTick _ => true
  | .thermalTrip _ => true
  | .runnelPacketRx _ _ => true
  | .runnelAckRx _ _ => true
  | .runnelNackRx _ _ _ => true
  | .runnelMsgTimeout _ _ => true
  | .qpConfigure _ _ => true
  | .qpEnable _ _ => true
  | .qpReset _ _ => true
  | .qpContextFetched _ _ => true
  | .runnelSendWaitExpiry _ _ => true
  | .registrationRevoke _ _ => true
  | .revokeComplete _ _ => true
  | .debuggerAttach _ => true
  | .debuggerDetach _ => true
  | .spuriousWakeup _ => true
  | .lineEviction _ _ _ => true
  | .softError _ _ => true
  | .gangRegistration _ _ => true
  | .nopW => true
  | .exit => true
  | .join => true
  | .ret => true
  | .yield => true
  | .eret => true
  | .fenceRec => true
  | .mswp => true

end Sys2Proof
end

