-- ==== Sys2Proof/Machine/Ops.lean ====
section
/-! DEFINITION. The named operations over memory, registers and the tables of the machine, and taking an exception and
returning from one (R126, R276, R277). -/
namespace Sys2Proof.Machine

abbrev Out := Host.Outcome State Fault Refusal

/-! ### Memory (R4): keys are space × 2^64 + address -/

/-- Memory keys: space 0 holds object pointers, then each device's physical memory, host memory, each block's
scratchpad. -/
def devKey (dev addr : Nat) : Nat := (1 + dev) * 2 ^ 64 + addr
/-- R189: device physical memory as it reads under a key slot: what was written under another slot is unrelated to it. -/
def slotKey (dev slot addr : Nat) : Nat := devKey dev (slot * 2 ^ 56 + addr)
def hostKey (addr : Nat) : Nat := 600 * 2 ^ 64 + addr
def spadKey (block off : Nat) : Nat := (1000 + 2 * block) * 2 ^ 64 + off
/-- The stamp of the open range a key lies in, if any. -/
def openStamp : List OpenRange → Nat → Option Nat
  | [], _ => none
  | r :: rs, k => if r.lo ≤ k ∧ k < r.hi then some r.stamp else openStamp rs k

/-- What a byte that no write has reached reads as: 0, or a free value inside an open range (log 3). -/
def unwritten (m : Memory) (k : Nat) : Byte :=
  match openStamp m.open_ k with
  | some st => Config.freeByte st k
  | none => 0

/-- One byte. -/
def readByte (m : Memory) (k : Nat) : Byte :=
  match tget m.cells k with
  | some b => b
  | none => unwritten m k

/-- Takes [lo, hi) out of the open ranges. -/
def cutRanges : List OpenRange → Nat → Nat → List OpenRange
  | [], _, _ => []
  | r :: rs, lo, hi =>
    if r.hi ≤ lo ∨ hi ≤ r.lo then r :: cutRanges rs lo hi
    else
      (if r.lo < lo then [{ r with hi := lo }] else []) ++ (if hi < r.hi then [{ r with lo := hi }] else []) ++
        cutRanges rs lo hi

/-- Puts a range among those that lie below and above it. -/
def putRange : List OpenRange → OpenRange → List OpenRange
  | [], x => [x]
  | r :: rs, x => if r.lo < x.lo then r :: putRange rs x else x :: r :: rs

/-- Writes one byte: a zero byte is not listed, and no open range holds the key afterwards. -/
def writeByte (m : Memory) (k : Nat) (b : Byte) : Memory where
  cells := tset 0 m.cells k b
  open_ := cutRanges m.open_ k (k + 1)
  slots := m.slots

/-- Writes consecutive bytes from `k` up. -/
def writeBytes (m : Memory) : Nat → List Byte → Memory
  | _, [] => m
  | k, b :: bs => writeBytes (writeByte m k b) (k + 1) bs

/-- Reads `n` consecutive bytes. -/
def readBytes (m : Memory) : Nat → Nat → List Byte
  | _, 0 => []
  | k, n + 1 => readByte m k :: readBytes m (k + 1) n

/-- Every byte of [lo, hi) reads 0. -/
def zeroRange (m : Memory) (lo hi : Nat) : Memory where
  cells := m.cells.filter fun c => !(decide (lo ≤ c.1) && decide (c.1 < hi))
  open_ := cutRanges m.open_ lo hi
  slots := m.slots

/-- No byte of [lo, hi) holds a promised value from this stamp on (R165, R189). -/
def freshRange (m : Memory) (lo hi stamp : Nat) : Memory :=
  if lo < hi then
    let z := zeroRange m lo hi
    { z with open_ := putRange z.open_ ⟨lo, hi, stamp⟩ }
  else m

/-- Little-endian value of bytes (R4). -/
def bytesNat : List Byte → Nat
  | [] => 0
  | b :: bs => b.toNat + 256 * bytesNat bs

/-- The low `n` bytes of a number. -/
def natBytes : Nat → Nat → List Byte
  | 0, _ => []
  | n + 1, x => BitVec.ofNat 8 x :: natBytes n (x / 256)

/-- R189: the key slot under which the line of a device physical address was last written. -/
def slotOf (m : Memory) (dev addr : Nat) : Nat := tgetD m.slots (devKey dev addr / 64) 0

/-- R189: whether a key names device physical memory under a slot that its line does not hold. -/
def rekeys (m : Memory) (key : Nat) : Bool :=
  decide (2 ^ 64 ≤ key ∧ key < 600 * 2 ^ 64) &&
    decide (slotOf m (key / 2 ^ 64 - 1) (key % 2 ^ 56) ≠ key % 2 ^ 64 / 2 ^ 56)

/-- R189: a line is written under a key slot: what stood there under another slot is lost, and the rest of the line holds no
promised value. -/
def claimLine (m : Memory) (key stamp : Nat) : Memory :=
  let dev := key / 2 ^ 64 - 1
  let line := key % 2 ^ 56 / 64 * 64
  let old := slotKey dev (slotOf m dev line) line
  let new := slotKey dev (key % 2 ^ 64 / 2 ^ 56) line
  let m := freshRange (freshRange m old (old + 64) stamp) new (new + 64) stamp
  { m with slots := tset 0 m.slots (devKey dev line / 64) (key % 2 ^ 64 / 2 ^ 56) }

def readNat (m : Memory) (k n : Nat) : Nat := bytesNat (readBytes m k n)
def writeNat (m : Memory) (k n x : Nat) : Memory := writeBytes m k (natBytes n x)

/-- The canonical form of memory: keys rising, no listed byte equal to what its key would read as unlisted, open ranges
non-empty, rising and disjoint. -/
def rangesWf : List OpenRange → Bool
  | [] => true
  | [r] => decide (r.lo < r.hi)
  | r :: q :: rs => decide (r.lo < r.hi) && decide (r.hi ≤ q.lo) && rangesWf (q :: rs)

/-- The key slots of lines: by rising line, slot 0 not listed (R189). -/
def Memory.slotsWf (m : Memory) : Bool := twf m.slots && m.slots.all fun x => !(x.2 == 0)

def Memory.wf (m : Memory) : Bool :=
  m.slotsWf && twf m.cells && m.cells.all (fun c => !(c.2 == 0) && (openStamp m.open_ c.1).isNone) && rangesWf m.open_

/-! ### Numbers -/

/-- R9: bits [n-1 : 0] of w, sign-extended. -/
def sextN (w n : Nat) : Int :=
  let u := w % 2 ^ n
  if 2 * u ≥ 2 ^ n then (u : Int) - 2 ^ n else u

/-- R106: the rule of PADD. -/
def advance (p : Dbl) (d : Int) : Dbl :=
  let x := p.toNat
  if 2 ^ 63 ≤ x then BitVec.ofNat 64 (x / 2 ^ 34 * 2 ^ 34 + ((((x % 2 ^ 34 : Nat) : Int) + d) % 2 ^ 34).toNat)
  else BitVec.ofNat 64 (x / 2 ^ 60 * 2 ^ 60 + ((((x % 2 ^ 60 : Nat) : Int) + d) % 2 ^ 60).toNat)

/-- The position of the lowest 1 bit below n, or n. -/
def lowBit (x n : Nat) : Nat := ((List.range n).find? fun i => x.testBit i).getD n

/-! ### Registers (R66) -/

/-- v0 reads 0; a lane register. -/
def vget (t : Team) (lane n : Nat) : Word := if n = 0 then 0 else tgetD t.v (lane * 128 + n) 0

/-- v0 discards its write; writing a register whole ends an error it held (R280). -/
def vset (t : Team) (lane n : Nat) (x : Word) : Team :=
  if n = 0 then t
  else { t with v := tset 0 t.v (lane * 128 + n) x, bad := t.bad.filter (· ≠ lane * 128 + n) }

/-- A group of `w` registers as one number; a group at v0 is wholly a discard operand. -/
def vgetW (t : Team) (lane n w : Nat) : Nat :=
  if n = 0 then 0 else bytesNat ((List.range w).flatMap fun i => natBytes 4 (vget t lane (n + i)).toNat)

def vsetW (t : Team) (lane n w x : Nat) : Team :=
  if n = 0 then t
  else (List.range w).foldl (fun t i => vset t lane (n + i) (BitVec.ofNat 32 (x / 2 ^ (32 * i)))) t

/-- p0 reads true and discards its write. -/
def pget (t : Team) (lane n : Nat) : Bool := if n = 0 then true else (tgetD t.p lane 0).getLsbD n

def pset (t : Team) (lane n : Nat) (b : Bool) : Team :=
  if n = 0 then t
  else
    let old := tgetD t.p lane 0
    let bit : Byte := 1#8 <<< n
    { t with p := tset 0 t.p lane (if b then old ||| bit else old &&& ~~~bit), badP := t.badP.filter (· ≠ lane * 8 + n) }

/-- k0 reads 0 and discards its write. A parameter run that passes k63 names no register: a free value (log 18). -/
def kget (t : Team) (n : Nat) : Word :=
  if n = 0 then 0 else if n < 64 then tgetD t.k n 0 else (Config.freeDbl n).setWidth 32

def kset (t : Team) (n : Nat) (x : Word) : Team :=
  if n = 0 then t else { t with k := tset 0 t.k n x, badK := t.badK.filter (· ≠ n) }

def kgetD (t : Team) (n : Nat) : Dbl := if n = 0 then 0 else kget t (n + 1) ++ kget t n

def ksetD (t : Team) (n : Nat) (x : Dbl) : Team :=
  if n = 0 then t else kset (kset t n (x.setWidth 32)) (n + 1) ((x >>> 32).setWidth 32)

/-- R68: the lane an operand is read from. -/
def permLane (p : BitVec 8) (lane : Nat) : Nat :=
  let i := lane % 32
  let m := sub p 0 5
  lane - i + match sub p 5 3 with
    | 1 => Nat.xor i m
    | 2 => i / 8 * 8 + (i + m) % 8
    | 3 => Nat.xor i (2 ^ m - 1)
    | 4 => m
    | _ => i

/-- R67: the lanes of active(T): on in the mask, guard true. -/
def activeLanes (t : Team) (neg : Bool) (g : BitVec 3) : List Nat :=
  (List.range t.size).filter fun l => t.mask.getLsbD l && (pget t l g.toNat != neg)

/-- The set of some lanes. -/
def laneSet (ls : List Nat) : LaneSet := ls.foldl (fun m l => m ||| (1#1024 <<< l)) 0

def setLanes (m : LaneSet) (size : Nat) : List Nat := (List.range size).filter fun l => m.getLsbD l

/-! ### Tables of the machine -/

def putTeam (s : State) (id : Nat) (t : Team) : State := { s with teams := tput s.teams id t }
def putBlock (s : State) (id : Nat) (b : Block) : State := { s with blocks := tput s.blocks id b }
def putCtx (s : State) (id : Nat) (c : Ctx) : State := { s with ctxs := tput s.ctxs id c }
def putNode (s : State) (id : Nat) (n : Node) : State := { s with nodes := tput s.nodes id n }
def modTeam (s : State) (id : Nat) (f : Team → Team) : State := { s with teams := tmod s.teams id f }
def modBlock (s : State) (id : Nat) (f : Block → Block) : State := { s with blocks := tmod s.blocks id f }
def modCtx (s : State) (id : Nat) (f : Ctx → Ctx) : State := { s with ctxs := tmod s.ctxs id f }
def modNode (s : State) (id : Nat) (f : Node → Node) : State := { s with nodes := tmod s.nodes id f }
def siteOf (s : State) (i : Nat) : Site := tgetD s.sites i {}
def putSite (s : State) (i : Nat) (x : Site) : State := { s with sites := tput s.sites i x }
def modSite (s : State) (i : Nat) (f : Site → Site) : State := putSite s i (f (siteOf s i))
def devOf (s : State) (d : Nat) : Device := tgetD s.devs d {}
def putDev (s : State) (d : Nat) (x : Device) : State := { s with devs := tput s.devs d x }
def modDev (s : State) (d : Nat) (f : Device → Device) : State := putDev s d (f (devOf s d))
def vfOf (s : State) (d v : Nat) : VfCore := tgetD (devOf s d).vfcores v {}
def modVf (s : State) (d v : Nat) (f : VfCore → VfCore) : State :=
  modDev s d fun x => { x with vfcores := tput x.vfcores v (f (tgetD x.vfcores v {})) }

/-- R116: ac that a device has counted after some steps of the machine. -/
def ticks (dev : Nat) : Nat → Nat
  | 0 => 0
  | n + 1 => ticks dev n + 1 + Config.elapsed dev n

/-- R116: `%clock` of a device: ac since it left reset. -/
def clock (s : State) (dev : Nat) : Nat := ticks dev s.now - ticks dev (devOf s dev).base

/-- A team with its block, context and node. -/
structure View where
  t : Team
  b : Block
  c : Ctx
  n : Node

def viewOf (s : State) (id : Nat) : Option View :=
  match tget s.teams id with
  | none => none
  | some t => match tget s.blocks t.block with
    | none => none
    | some b => match tget s.ctxs b.ctx, tget s.nodes b.node with
      | some c, some n => some ⟨t, b, c, n⟩
      | _, _ => none

/-- R12: the site a context runs at. -/
def ctxSite (c : Ctx) : Nat := 2 * c.dev + c.die

/-- R16: the cluster number of a block. -/
def clusterOf (n : Node) (b : Block) : Nat := if n.desc.cluster = 0 then 0 else b.ordinal / n.desc.cluster

/-- The blocks of a node that are placed and have not left the membership of its barriers (R158). -/
def blocksOf (s : State) (node : Nat) : List (Nat × Block) := s.blocks.filter fun x => decide (x.2.node = node)
def liveBlocks (s : State) (node : Nat) : List (Nat × Block) :=
  (blocksOf s node).filter fun x => !x.2.exited && !x.2.squashed

/-! ### Barriers (R154-R158) -/

/-- R154: names one barrier of the machine: of a block, or of a node (key cluster × 32 + number). -/
inductive BarRef where
  | block (id b : Nat)
  | node (id key b : Nat)
deriving DecidableEq, Repr

def barOf (s : State) : BarRef → Bar
  | .block id b => match tget s.blocks id with
    | some x => tgetD x.bars b {}
    | none => {}
  | .node id key _ => match tget s.nodes id with
    | some x => tgetD x.bars key {}
    | none => {}

def putBar (s : State) (r : BarRef) (x : Bar) : State :=
  match r with
  | .block id b => modBlock s id fun y => { y with bars := tput y.bars b x }
  | .node id key _ => modNode s id fun y => { y with bars := tput y.bars key x }

/-- R154: the barrier that number `b` names for a team, if it is declared and present. -/
def barRef (w : View) (b : Nat) : Option BarRef :=
  if b < 16 then (if (tget w.b.barMask b).isSome then some (.block w.t.block b) else none)
  else if b < 24 then
    if w.n.desc.cluster = 0 then none else some (.node w.b.node (clusterOf w.n w.b * 32 + b) b)
  else if w.n.desc.coop then some (.node w.b.node b b) else none

/-- The live teams that are members of a barrier (R154, R158). -/
def barMembers (s : State) (r : BarRef) : List Nat :=
  let live (ids : List Nat) := ids.filter fun i => match tget s.teams i with
    | some t => !t.ended
    | none => false
  match r with
  | .block id b => match tget s.blocks id with
    | some x => (live x.teams).filter fun i => match tget s.teams i with
      | some t => (tgetD x.barMask b 0).testBit t.num
      | none => false
    | none => []
  | .node id key b => match tget s.nodes id with
    | some n => ((liveBlocks s id).filter fun x => decide (24 ≤ b) || decide (clusterOf n x.2 = key / 32)).flatMap
        fun x => live x.2.teams
    | none => []

/-- The number of blocks that must be present before a barrier's members can all have arrived (R28, R33). -/
def barPresent (s : State) (r : BarRef) : Bool :=
  match r with
  | .block _ _ => true
  | .node id key b => match tget s.nodes id with
    | some n => decide (24 ≤ b ∧ n.blocks ≤ n.next ∨ b < 24 ∧ (key / 32 + 1) * n.desc.cluster ≤ n.next)
    | none => false

def counterOf (x : Bar) (parity : Nat) : Int := if parity % 2 = 0 then x.c0 else x.c1
def setCounter (x : Bar) (parity : Nat) (c : Int) : Bar := if parity % 2 = 0 then { x with c0 := c } else { x with c1 := c }

/-- R157: the rows of the table, after any arrival, expectation, credit or removal. -/
def barTest (s : State) (r : BarRef) : State :=
  let x := barOf s r
  if x.overrun then s
  else if !barPresent s r || (barMembers s r).any (fun i => !x.arrived.contains i) || (barMembers s r).isEmpty then s
  else
    let c := match r with
      | .node _ _ b => if 24 ≤ b then 0 else counterOf x x.phase
      | .block _ _ => counterOf x x.phase
    if c = 0 then putBar s r { x with phase := x.phase + 1, arrived := [] }
    else if c < 0 then putBar s r { x with overrun := true }
    else s

/-- R157: a credit; one that would take the counter below −2^31 + 1 puts the barrier in overrun. -/
def barCredit (s : State) (r : BarRef) (parity bytes : Nat) : State :=
  let x := barOf s r
  if x.overrun then s
  else
    let c := counterOf x parity - (bytes : Int)
    if c < -(2 ^ 31) + 1 then putBar s r { x with overrun := true } else barTest (putBar s r (setCounter x parity c)) r

/-- Every barrier of a block, its cluster and its grid is tested after a member leaves (R158). -/
def barRefsOf (s : State) (block : Nat) : List BarRef :=
  match tget s.blocks block with
  | none => []
  | some b => (tkeys b.barMask).map (.block block ·) ++ match tget s.nodes b.node with
    | some n => (tkeys n.bars).map fun key => .node b.node key (key % 32)
    | none => []

def retestBars (s : State) (block : Nat) : State := (barRefsOf s block).foldl barTest s

/-! ### The register pool (R22-R24, R127-R129) -/

/-- Bytes of the pool a context slot holds (R25). -/
def poolBytes (c : Ctx) : Nat := if c.slot = .wide then 1572864 else 786432

/-- Teams of a context with their numbers in context team index order (R286). -/
def ctxTeams (s : State) (c : Ctx) : List (Nat × Team) :=
  c.blocks.flatMap fun b => match tget s.blocks b with
    | some x => x.teams.filterMap fun i => (tget s.teams i).map fun t => (i, t)
    | none => []

/-- Pool bytes in use: base registers of the blocks that have not exited, and the chunks held. -/
def poolUsed (s : State) (c : Ctx) : Nat :=
  ((ctxTeams s c).map fun x =>
    (match tget s.blocks x.2.block with
      | some b => if b.exited then 0 else x.2.size * 256
      | none => 0) +
    (if x.2.e1 then x.2.size * 128 else 0) + (if x.2.e2 then x.2.size * 128 else 0)).sum

/-- Bytes a team must still take to hold the chunks of a mask. -/
def chunkNeed (t : Team) (mask : Nat) : Nat :=
  (if mask.testBit 0 && !t.e1 then t.size * 128 else 0) + (if mask.testBit 1 && !t.e2 then t.size * 128 else 0)

/-- R128: the chunks are granted and read 0. -/
def grantChunks (t : Team) (mask : Nat) : Team :=
  let fresh (n : Nat) := (mask.testBit 0 && !t.e1 && decide (64 ≤ n) && decide (n < 96)) ||
    (mask.testBit 1 && !t.e2 && decide (96 ≤ n))
  { t with
    v := t.v.filter fun x => !fresh (x.1 % 128)
    bad := t.bad.filter fun x => !fresh (x % 128)
    e1 := t.e1 || mask.testBit 0
    e2 := t.e2 || mask.testBit 1 }

/-- R290: a step asked for ends with the instruction that an event completes. -/
def stepEnd (t : Team) : Team :=
  if t.stepping then { t with stepping := false, halt := if t.halt.isSome then t.halt else some (0x302, 0) } else t

/-- R128: when chunks return, the blocked RACQs are examined in the order they blocked, and each that fits is granted. -/
def regrant (s : State) (ctx : Nat) : State :=
  match tget s.ctxs ctx with
  | none => s
  | some c => c.racq.foldl (fun s i => match tget s.teams i, tget s.ctxs ctx with
      | some t, some c => match t.wait with
        | .racq mask =>
          if poolUsed s c + chunkNeed t mask ≤ poolBytes c then
            modCtx (putTeam s i (stepEnd { grantChunks t mask with wait := .none, pc := t.pc + 8 })) ctx
              fun c => { c with racq := c.racq.filter (· ≠ i) }
          else s
        | _ => modCtx s ctx fun c => { c with racq := c.racq.filter (· ≠ i) }
      | _, _ => s) s

/-! ### The end of a team and of a node -/

/-- R278: the lane-fault report a block posts at its exit. -/
def postLaneFaults (s : State) (id : Nat) (b : Block) : State :=
  match tget s.ctxs b.ctx with
  | none => s
  | some c =>
    let faults := b.teams.flatMap fun i => match tget s.teams i with
      | some t => (setLanes t.lfmask t.size).map fun l => (l, (tgetD t.lfcause l 0).toNat)
      | none => []
    match faults with
    | [] => s
    | f :: fs =>
      let (l, cause) := fs.foldl (fun m x => if x.1 < m.1 then x else m) f
      modVf (modBlock s id fun b => { b with reported := true }) c.dev c.vf
        fun v => { v with log := v.log ++ [⟨b.ordinal, faults.length, l, cause⟩] }

/-- R122, R253: when every team of a block has ended, the block has exited. -/
def blockExit (s : State) (id : Nat) : State :=
  match tget s.blocks id with
  | none => s
  | some b =>
    if b.exited || b.teams.any (fun i => match tget s.teams i with
        | some t => !t.ended
        | none => false) then s
    else
      let s := if b.provisional || b.reported then s else postLaneFaults s id b
      retestBars (modBlock s id fun b => { b with exited := true }) id

/-- R18, R122, R158: a team ends: chunks return, frames and calls go, it leaves its barriers; its block may exit. -/
def endTeam (s : State) (id : Nat) : State :=
  match tget s.teams id with
  | none => s
  | some t =>
    if t.ended then s
    else
      let s := putTeam s id { t with ended := true, mask := 0, e1 := false, e2 := false, frames := [], calls := [],
                                     wait := .none, halt := none, haltDue := false, detach := none, under := [], made := 0,
                                     held := none, mcfail := [] }
      match tget s.blocks t.block with
      | none => s
      | some b =>
        let s := if t.mcfail.isEmpty then s else modNode s b.node fun n => { n with mcfail := true }
        regrant (blockExit (retestBars s t.block) t.block) b.ctx

/-- R259: a node fails: its first cause is kept, its teams end, its unstarted blocks are not dispatched. -/
def failNode (s : State) (node cause ordinal pc : Nat) : State :=
  match tget s.nodes node with
  | none => s
  | some n =>
    let s := putNode s node { n with failing := true, cause := if n.cause.isSome then n.cause else some (cause, ordinal, pc) }
    ((blocksOf s node).flatMap fun x => x.2.teams).foldl endTeam s

/-! ### Exceptions (R126, R271, R276, R277) -/

/-- R126: the team enters its handler; the mask, frames and calls stand. -/
def enterHandler (t : Team) (entry : Dbl) (cause : Nat) (info : Word) (pc : Dbl) : Team :=
  { t with trapcause := BitVec.ofNat 32 cause, trappc := pc, trapinfo := info, handler := true, pc := entry, wait := .none,
           served := 0, watch := [], swept := 0, stopAt := none }

/-- R277: an unhandled cause ends the team at once; the block fails and the node fails. -/
def unhandled (s : State) (id : Nat) (w : View) (cause : Nat) (pc : Dbl) : State :=
  failNode (endTeam s id) w.b.node cause w.b.ordinal pc.toNat

/-- R276: delivery of a cause to a team that holds none: the handler if one is declared and the flag is clear, otherwise
the cause is unhandled. -/
def deliver (s : State) (id cause : Nat) (info : Word) (pc : Dbl) : State :=
  match viewOf s id with
  | none => s
  | some w => match w.n.desc.handler with
    | some off => if w.t.handler then unhandled s id w cause pc
        else putTeam s id (enterHandler w.t (w.n.desc.kernel + BitVec.ofNat 64 off) cause info pc)
    | none => unhandled s id w cause pc

/-- R276: a precise cause: held in a provisional block (R271), otherwise delivered. `pc` is what `%trappc` will hold. -/
def raiseAt (s : State) (id cause : Nat) (info : Word) (pc : Dbl) : State :=
  match viewOf s id with
  | none => s
  | some w =>
    if w.b.provisional then putTeam s id { w.t with held := some ⟨cause, info, pc⟩, wait := .hold }
    else deliver s id cause info pc

/-- A precise cause at the current team's instruction (R84). -/
def raise (s : State) (cause : Nat) (info : Nat) : State :=
  match tget s.teams s.cur with
  | none => s
  | some t => raiseAt s s.cur cause (BitVec.ofNat 32 info) t.pc

/-- R126: ERET continues at `%trappc` and clears the flag. The next instruction matches no breakpoint (R287). -/
def returnFromTrap (t : Team) : Team :=
  { t with pc := t.trappc &&& ~~~1#64, handler := false, skipBreak := true, wait := .none, swept := 0, stopAt := none }

/-! ### Paths (R117-R122, R131) -/

/-- R121: a path of the team has ended with the given arriving lanes. None when the team has no lane left. -/
def pathEnd : List Frame → List CallEntry → LaneSet → Option (Path × List Frame × List CallEntry)
  | [], _, _ => none
  | f :: fs, calls, a =>
    let arrived := f.arrived ||| a
    match f.pending with
    | p :: ps => some (p, { f with arrived := arrived, pending := ps } :: fs, calls)
    | [] =>
      let calls := calls.filter fun c => decide (c.depth < fs.length + 1)
      if arrived ≠ 0 then some (⟨f.join, arrived⟩, fs, calls) else pathEnd fs calls 0

/-- The team continues after a path end, or ends; with a lane detached it halts instead (R291). -/
def endPath (s : State) (id : Nat) (t : Team) (a : LaneSet) : State :=
  let t := { t with swept := 0, stopAt := none }
  match pathEnd t.frames t.calls a with
  | some (p, fs, cs) => putTeam s id { t with pc := p.pc, mask := p.lanes, frames := fs, calls := cs, wait := .none }
  | none =>
    let t := { t with frames := [], calls := [], mask := 0 }
    if t.detach.isSome then putTeam s id { t with halt := some (0x302, 0), running := false, wait := .none }
    else endTeam (putTeam s id t) id

/-! ### Lane faults (R9, R131, R278) -/

/-- R290, R291: a lane is detached no longer: where it was the one commands act on, the one detached before it is (log 28). -/
def undetach (t : Team) (lane : Nat) : Team :=
  match t.detach with
  | some d => if d.lane = lane then
      { t with detach := t.under.head?, under := t.under.tail, made := t.made &&& ~~~(1#1024 <<< lane) }
    else t
  | none => t

/-- Records a lane fault and switches the lane off in the mask. -/
def laneFault (t : Team) (lane cause : Nat) : Team :=
  { undetach t lane with
    mask := t.mask &&& ~~~(1#1024 <<< lane)
    lfmask := t.lfmask ||| (1#1024 <<< lane)
    lfcause := if (tget t.lfcause lane).isSome then t.lfcause else tput t.lfcause lane (BitVec.ofNat 32 cause)
    lfnew := if t.handler then t.lfnew else t.lfnew ||| (1#1024 <<< lane) }

/-- The instruction completes: the pc moves on by its length; when its lane faults left no lane, the path has ended. -/
def complete (s : State) (id : Nat) (t : Team) (len : Nat) : State :=
  if t.mask = 0 then endPath s id { t with wait := .none } 0
  else putTeam s id { t with pc := t.pc + BitVec.ofNat 64 len, wait := .none, swept := 0, stopAt := none }

/-! ### Issue -/

/-- R66: a register field that names a group of the given width: the first misaligned field gives 0x003, then the first
lane field beyond the acquired chunks gives 0x005 (R83 steps 5 and 6, log 8). -/
def groupFault (t : Team) (vs ks : List (Nat × Nat)) : Option (Nat × Nat) :=
  match (vs ++ ks).find? fun x => x.1 % x.2 ≠ 0 with
  | some x => some (3, x.1)
  | none => match vs.find? fun x => (decide (64 ≤ x.1) && decide (x.1 < 96) && !t.e1) || (decide (96 ≤ x.1) && !t.e2) with
    | some x => some (5, x.1)
    | none => none

/-- The registers of some groups. -/
def groupRegs (xs : List (Nat × Nat)) : List Nat := xs.flatMap fun x => (List.range x.2).map (x.1 + ·)

/-- R280: a lane register holds an uncorrectable error in a lane it is read from: a lane of the mask, or what `reads` names where the
lanes read are others (R68, R108). -/
def badLane (t : Team) (reads : Option (Nat → List Nat)) (n : Nat) : Bool :=
  t.bad.any fun key => decide (key % 128 = n) && match reads with
    | some f => (f n).contains (key / 128)
    | none => t.mask.getLsbD (key / 128)

/-- R280: a source register that holds an uncorrectable error: of a lane group, or of a uniform group. -/
def badSource (t : Team) (srcs ks : List (Nat × Nat)) (reads : Option (Nat → List Nat)) : Option Nat :=
  match (groupRegs srcs).find? fun n => n ≠ 0 && badLane t reads n with
  | some n => some n
  | none => (groupRegs ks).find? fun n => n ≠ 0 && t.badK.contains n

/-- The team an instruction executes for, after the register checks of R83. `dst` and `src` name lane groups, `ks`
uniform groups, as (register, width); `kd` names a uniform group that is only written. Where no team issues, no team executes
the instruction, and nothing happens. -/
def withTeam (s : State) (dst src ks : List (Nat × Nat)) (f : Team → Out) (kd : List (Nat × Nat) := [])
    (reads : Team → Option (Nat → List Nat) := fun _ => none) : Out :=
  match tget s.teams s.cur with
  | none => .next s
  | some t =>
    if t.ended || (t.mask = 0 && t.wait = .none) then .next s
    else match groupFault t (dst ++ src) (kd ++ ks) with
      | some (c, r) => .next (raise s c r)
      | none => match badSource t src ks (reads t) with
        | some r => .next (raise s 0x2C6 r)
        | none => f t

/-- As `withTeam`, with the team's block, context and node. -/
def withView (s : State) (dst src ks : List (Nat × Nat)) (f : View → Out) (kd : List (Nat × Nat) := []) : Out :=
  withTeam s dst src ks (fun _ => match viewOf s s.cur with
    | some w => f w
    | none => .next s) kd

/-- The instruction of the current team completes with `t` as its new registers. -/
def finish (s : State) (t : Team) (len : Nat) : Out := .next (complete s s.cur t len)

/-- The current team blocks (R31); its instruction issues again when the wait is over. -/
def block (s : State) (w : Wait) : Out := .next (modTeam s s.cur fun t => { t with wait := w })

/-- R136, R227: the provisional hold. -/
def heldBack (w : View) : Bool := w.b.provisional

end Sys2Proof.Machine
end

