-- ==== Sys2Proof/Machine/Flags.lean ====
section
/-! DEFINITION. Integer results and their narrowing (R40), and the floats of R41-R48: exact values, `round`, and the
exception flags of R45 that every rounding yields. -/
namespace Sys2Proof.Machine

/-! ### Integers (R40, R100) -/

/-- R40: the exact value, wrapped to n bits, or clamped to the range of the signedness under `.sat`. -/
def narrow (n : Nat) (signed sat : Bool) (x : Int) : Nat :=
  if sat then
    let lo : Int := if signed then -(2 ^ (n - 1)) else 0
    let hi : Int := if signed then 2 ^ (n - 1) - 1 else 2 ^ n - 1
    (max lo (min x hi) % 2 ^ n).toNat
  else (x % 2 ^ n).toNat

/-- s(x) of R100. -/
def asInt (n : Nat) (signed : Bool) (x : Nat) : Int := if signed then sextN x n else ((x % 2 ^ n : Nat) : Int)

/-- An integer operation: width, signed, saturating, three operands. -/
abbrev IntFn := Nat → Bool → Bool → Nat → Nat → Nat → Nat

def iAdd : IntFn := fun n g t a b _ => narrow n g t (asInt n g a + asInt n g b)
def iSub : IntFn := fun n g t a b _ => narrow n g t (asInt n g a - asInt n g b)
def iMul : IntFn := fun n g t a b _ => narrow n g t (asInt n g a * asInt n g b)
def iMulh : IntFn := fun n g _ a b _ => narrow n g false (asInt n g a * asInt n g b / 2 ^ n)
def iMad : IntFn := fun n g t a b c => narrow n g t (asInt n g a * asInt n g b + asInt n g c)
def iMin : IntFn := fun n g _ a b _ => narrow n g false (min (asInt n g a) (asInt n g b))
def iMax : IntFn := fun n g _ a b _ => narrow n g false (max (asInt n g a) (asInt n g b))
def iAbs : IntFn := fun n _ t a _ _ => narrow n true t ((sextN a n).natAbs : Int)
def iAnd : IntFn := fun _ _ _ a b _ => Nat.land a b
def iOr : IntFn := fun _ _ _ a b _ => Nat.lor a b
def iXor : IntFn := fun _ _ _ a b _ => Nat.xor a b
/-- R40: a shift by the width or more. -/
def iShl : IntFn := fun n _ _ a b _ => if n ≤ b then 0 else a * 2 ^ b % 2 ^ n
def iShr : IntFn := fun n _ _ a b _ => if n ≤ b then 0 else a / 2 ^ b
def iSar : IntFn := fun n _ _ a b _ => narrow n true false (sextN a n / 2 ^ (min b n))
def iRot : IntFn := fun n _ _ a b _ => let r := b % n; (a * 2 ^ r % 2 ^ n) + a / 2 ^ (n - r)
def iPopc : IntFn := fun n _ _ a _ _ => ((List.range n).filter fun i => a.testBit i).length
def iClz : IntFn := fun n _ _ a _ _ => ((List.range n).find? fun i => a.testBit (n - 1 - i)).getD n
def iBrev : IntFn := fun n _ _ a _ _ => ((List.range n).map fun i => if a.testBit i then 2 ^ (n - 1 - i) else 0).sum
/-- R100 IBFX: p and l are the low bytes of vb and vc. -/
def iBfx : IntFn := fun n g _ a b c =>
  let p := b % 256
  let l := c % 256
  if l = 0 ∨ n ≤ p then 0
  else
    let w := min (p + l) n - p
    let f := a / 2 ^ p % 2 ^ w
    if g then narrow n true false (sextN f w) else f
/-- R100 IBFI: p = vc[7:0], l = vc[15:8]. -/
def iBfi : IntFn := fun n _ _ a b c =>
  let p := c % 256
  let l := c / 256 % 256
  if l = 0 ∨ n ≤ p then a
  else
    let w := min (p + l) n - p
    a % 2 ^ p + b % 2 ^ w * 2 ^ p + a / 2 ^ (p + w) * 2 ^ (p + w)
def iMov : IntFn := fun _ _ _ a _ _ => a
/-- The second operand, for a MOV whose source stands in the immediate. -/
def iImm : IntFn := fun _ _ _ _ b _ => b

/-- R76, R79, R73: conditions 0 eq, 1 ne, 2 lt, 3 le, 4 gt, 5 ge. -/
def intCond (cond : Nat) (a b : Int) : Bool :=
  match cond with
  | 0 => decide (a = b)
  | 1 => decide (a ≠ b)
  | 2 => decide (a < b)
  | 3 => decide (a ≤ b)
  | 4 => decide (a > b)
  | _ => decide (a ≥ b)

/-- R73, R79: conditions 6 to 9 are lt to ge unsigned. -/
def wideCond (n cond a b : Nat) : Bool :=
  if cond < 6 then intCond cond (asInt n true a) (asInt n true b) else intCond (cond - 4) (a : Int) (b : Int)

/-! ### Floats -/

/-- Which codes of the greatest exponent are no numbers (R47, R48). -/
inductive Special where
  | ieee | nanOnly | finite
deriving DecidableEq, Repr

/-- R48: a float format: exponent bits, fraction bits, specials, and how many low bits its code leaves unused (h19). -/
structure Fmt where
  eb : Nat
  mb : Nat
  sp : Special
  pad : Nat := 0
deriving DecidableEq, Repr

def f32 : Fmt := ⟨8, 23, .ieee, 0⟩
def f16 : Fmt := ⟨5, 10, .ieee, 0⟩
def bf16 : Fmt := ⟨8, 7, .ieee, 0⟩
/-- R53: the element format of an a40 slot. -/
def a40 : Fmt := ⟨8, 31, .ieee, 0⟩
def e2m1 : Fmt := ⟨2, 1, .finite, 0⟩
def e2m3 : Fmt := ⟨2, 3, .finite, 0⟩

/-- R48: the float format of a code. -/
def fmtOf (code : Nat) : Option Fmt :=
  match code with
  | 0x00 => some f32
  | 0x01 => some ⟨8, 10, .ieee, 13⟩
  | 0x02 => some bf16
  | 0x03 => some f16
  | 0x05 => some ⟨5, 2, .ieee, 0⟩
  | 0x06 => some ⟨4, 3, .nanOnly, 0⟩
  | 0x07 => some ⟨3, 4, .nanOnly, 0⟩
  | 0x0A => some ⟨3, 2, .finite, 0⟩
  | 0x0B => some e2m3
  | 0x0C => some e2m1
  | 0x0D => some ⟨1, 2, .finite, 0⟩
  | _ => none

/-- A value of a float format: ±m × 2^e. -/
inductive FVal where
  | nan (signalling : Bool)
  | inf (neg : Bool)
  | num (neg : Bool) (m : Nat) (e : Int)
deriving DecidableEq, Repr

def Fmt.bias (f : Fmt) : Int := 2 ^ (f.eb - 1) - 1
/-- The exponent of a unit in the last place of a subnormal. -/
def Fmt.qmin (f : Fmt) : Int := 1 - f.bias - f.mb
def Fmt.width (f : Fmt) : Nat := 1 + f.eb + f.mb + f.pad

/-- R48, R103: the value of a code; a NaN of f32, f16 or bf16 is signalling when its top fraction bit is 0, one of h19 never
(log 46). -/
def fdecode (f : Fmt) (code : Nat) : FVal :=
  let c := code / 2 ^ f.pad
  let frac := c % 2 ^ f.mb
  let ex := c / 2 ^ f.mb % 2 ^ f.eb
  let neg := decide (c / 2 ^ (f.mb + f.eb) % 2 = 1)
  if f.sp = .ieee ∧ ex = 2 ^ f.eb - 1 then
    if frac = 0 then .inf neg else .nan (decide (5 < f.mb) && decide (f.pad = 0) && !frac.testBit (f.mb - 1))
  else if f.sp = .nanOnly ∧ ex = 2 ^ f.eb - 1 ∧ frac = 2 ^ f.mb - 1 then .nan false
  else if ex = 0 then .num neg frac f.qmin
  else .num neg (2 ^ f.mb + frac) (f.qmin + (ex - 1 : Nat))

/-- Adds the sign and the unused low bits to a magnitude code. -/
def Fmt.code (f : Fmt) (neg : Bool) (mag : Nat) : Nat := ((if neg then 2 ^ (f.eb + f.mb) else 0) + mag) * 2 ^ f.pad

/-- The magnitude code of the largest finite value, and of infinity. -/
def Fmt.maxMag (f : Fmt) : Nat :=
  match f.sp with
  | .ieee => (2 ^ f.eb - 1) * 2 ^ f.mb - 1
  | .nanOnly => 2 ^ (f.eb + f.mb) - 2
  | .finite => 2 ^ (f.eb + f.mb) - 1
def Fmt.infMag (f : Fmt) : Nat := (2 ^ f.eb - 1) * 2 ^ f.mb

/-- R44, R47, R53: the canonical NaN of a format; +0 where it has none. The manual gives none for h19: 0x7FC0_0000 (log 46). -/
def Fmt.nan (f : Fmt) : Nat :=
  match f.sp with
  | .ieee => f.code false (f.infMag + 2 ^ (f.mb - 1))
  | .nanOnly => 2 ^ (f.eb + f.mb) - 1
  | .finite => 0

/-- R45: flags NV, DZ, OF, UF, NX at bits 0 to 4. -/
abbrev FFlags := BitVec 5
def fNV : FFlags := 1
def fDZ : FFlags := 2
def fOF : FFlags := 4
def fUF : FFlags := 8
def fNX : FFlags := 16

/-- R42: the rounding modes; rs carries its 24 random bits (R43). -/
inductive RMode where
  | rn | rz | ru | rd
  | rs (q : Nat)
deriving DecidableEq, Repr

def rmode (c : Nat) : RMode :=
  match c with
  | 0 => .rn | 1 => .rz | 2 => .ru | _ => .rd

def bitLen (n : Nat) : Nat := if n = 0 then 0 else Nat.log2 n + 1

/-- Whether a magnitude with the remainder r of 2^sh below its last place rounds away from zero. -/
def roundsUp (mode : RMode) (neg : Bool) (base r sh : Nat) : Bool :=
  match mode with
  | .rn => decide (2 ^ sh < 2 * r) || (decide (2 * r = 2 ^ sh) && decide (base % 2 = 1))
  | .rz => false
  | .ru => decide (0 < r) && !neg
  | .rd => decide (0 < r) && neg
  | .rs q => decide (2 ^ 24 ≤ r * 2 ^ 24 / 2 ^ sh + q)

/-- The magnitude m × 2^e rounded to a multiple of 2^q: the multiple and whether it is inexact. -/
def roundAt (mode : RMode) (neg : Bool) (m : Nat) (e q : Int) : Nat × Bool :=
  if q ≤ e then (m * 2 ^ (e - q).toNat, false)
  else
    let sh := (q - e).toNat
    let base := m / 2 ^ sh
    let r := m % 2 ^ sh
    (if roundsUp mode neg base r sh then base + 1 else base, decide (r ≠ 0))

/-- R47: round(w, fmt, mode) of a nonzero finite value, with its flags; tininess is detected after rounding (R44). -/
def roundNum (f : Fmt) (mode : RMode) (neg : Bool) (m : Nat) (e : Int) : Nat × FFlags :=
  let top := e + bitLen m - 1
  let q := max (top - f.mb) f.qmin
  let (k, nx) := roundAt mode neg m e q
  let limit := f.maxMag
  let mag : Int := k + (q - f.qmin) * 2 ^ f.mb
  if mag > limit then
    let inf := match mode with
      | .rn => true
      | .rs _ => true
      | .rz => false
      | .ru => !neg
      | .rd => neg
    let c := if f.sp = .ieee ∧ inf = true then f.infMag else limit
    (f.code neg c, fOF ||| fNX)
  else
    -- rounded with the exponent unbounded below, at the top place: tiny when it stays below the least normal
    let u := (roundAt mode neg m e (top - f.mb)).1
    let tiny := decide (top - f.mb < f.qmin) && !(decide (top - f.mb = f.qmin - 1) && decide (2 ^ (f.mb + 1) ≤ u))
    (f.code neg mag.toNat, if nx then (if tiny then fUF ||| fNX else fNX) else 0)

/-- R47: round(w, fmt, mode) of any value. A NaN that came from a signalling operand raises NV at its operation. -/
def fround (f : Fmt) (mode : RMode) : FVal → Nat × FFlags
  | .nan _ => (f.nan, if f.sp = .finite then fNV else 0)
  | .inf neg => if f.sp = .ieee then (f.code neg f.infMag, 0) else (f.code neg f.maxMag, fOF)
  | .num neg m e => if m = 0 then (f.code neg 0, 0) else roundNum f mode neg m e

/-- NV for a signalling NaN among the operands (R44). -/
def snan : List FVal → FFlags
  | [] => 0
  | .nan true :: vs => fNV ||| snan vs
  | _ :: vs => snan vs

def isNan : FVal → Bool
  | .nan _ => true
  | _ => false

def fneg : FVal → FVal
  | .nan s => .nan s
  | .inf n => .inf (!n)
  | .num n m e => .num (!n) m e

/-- The signed mantissa of a number at the exponent `e`, which is not above its own. -/
def atExp (neg : Bool) (m : Nat) (e0 e : Int) : Int :=
  let x : Int := ((m * 2 ^ (e0 - e).toNat : Nat) : Int)
  if neg then -x else x

/-- IEEE 754 addition of exact values: the exact sum, with its NaN case; an exact zero sum takes its sign from the mode. -/
def fadd (mode : RMode) : FVal → FVal → FVal × FFlags
  | .nan a, y => (.nan false, snan [.nan a, y])
  | x, .nan b => (.nan false, snan [x, .nan b])
  | .inf a, .inf b => if a = b then (.inf a, 0) else (.nan false, fNV)
  | .inf a, _ => (.inf a, 0)
  | _, .inf b => (.inf b, 0)
  | .num a m e, .num b n d =>
    if m = 0 ∧ n = 0 then (.num (if a = b then a else decide (mode = .rd)) 0 0, 0)
    else
      let lo := min e d
      let z := atExp a m e lo + atExp b n d lo
      if z = 0 then (.num (decide (mode = .rd)) 0 0, 0) else (.num (decide (z < 0)) z.natAbs lo, 0)

/-- The exact product. -/
def fmul : FVal → FVal → FVal × FFlags
  | .nan a, y => (.nan false, snan [.nan a, y])
  | x, .nan b => (.nan false, snan [x, .nan b])
  | .inf a, .inf b => (.inf (a != b), 0)
  | .inf a, .num b m _ => if m = 0 then (.nan false, fNV) else (.inf (a != b), 0)
  | .num a m _, .inf b => if m = 0 then (.nan false, fNV) else (.inf (a != b), 0)
  | .num a m e, .num b n d => (.num (a != b) (m * n) (e + d), 0)

/-- R102: va × vb + vc, rounded once by the caller; 0 × ∞ raises NV whatever vc holds. -/
def ffma (mode : RMode) (x y z : FVal) : FVal × FFlags :=
  let (p, fp) := fmul x y
  match p with
  | .nan _ => (.nan false, fp ||| snan [z])
  | _ => let (r, fr) := fadd mode p z
    (r, fp ||| fr)

/-- A value that lies strictly between m and m + 1 times 2^e, made odd one place lower so that it rounds as it should. -/
def jam (m : Nat) (e : Int) (exact : Bool) : Nat × Int := if exact then (m, e) else (2 * m + 1, e - 1)

/-- Integer square root, one bit at a time. -/
def isqrt (n : Nat) : Nat :=
  (List.range (bitLen n / 2 + 1)).reverse.foldl
    (fun r i => if (r + 2 ^ i) * (r + 2 ^ i) ≤ n then r + 2 ^ i else r) 0

/-- R102: 1 ÷ x. -/
def frcp : FVal → FVal × FFlags
  | .nan s => (.nan false, snan [.nan s])
  | .inf n => (.num n 0 0, 0)
  | .num n m e =>
    if m = 0 then (.inf n, fDZ)
    else
      let k := bitLen m + 80
      let (q, d) := jam (2 ^ k / m) (-e - k) (decide (2 ^ k % m = 0))
      (.num n q d, 0)

/-- R102: 1 ÷ √x. -/
def frsq : FVal → FVal × FFlags
  | .nan s => (.nan false, snan [.nan s])
  | .inf n => if n then (.nan false, fNV) else (.num false 0 0, 0)
  | .num n m e =>
    if m = 0 then (.inf n, 0)
    else if n then (.nan false, fNV)
    else
      -- 1/√(m 2^e) with e made even: √(2^(2k) / m) × 2^(-e/2 - k)
      let (m, e) := if e % 2 = 0 then (m, e) else (2 * m, e - 1)
      let k := bitLen m + 80
      let z := 2 ^ (2 * k) / m
      let r := isqrt z
      let (q, d) := jam r (-e / 2 - k) (decide (r * r * m = 2 ^ (2 * k)))
      (.num false q d, 0)

/-- Squares [lo, hi] (fixed point, W places) i times and collects the bits of the logarithm of a value in [1, 2): the
bits found, as a number of `n` places, and how many. -/
def logBits (W : Nat) : Nat → Nat → Nat → Nat → Nat → Nat × Nat
  | 0, _, _, acc, n => (acc, n)
  | i + 1, lo, hi, acc, n =>
    let lo2 := lo * lo / 2 ^ W
    let hi2 := (hi * hi + 2 ^ W - 1) / 2 ^ W
    if 2 ^ (W + 1) ≤ lo2 then logBits W i (lo2 / 2) ((hi2 + 1) / 2) (2 * acc + 1) (n + 1)
    else if hi2 < 2 ^ (W + 1) then logBits W i lo2 hi2 (2 * acc) (n + 1)
    else (acc, n)

/-- Bounds of log2(m × 2^e), as integers over 2^n. -/
def logBounds (m : Nat) (e : Int) (i : Nat) : Int × Int × Nat :=
  let l := bitLen m - 1
  let W := 2 * i + l
  let x := m * 2 ^ (W - l)
  let (b, n) := logBits W i x x 0 0
  let base : Int := (e + l) * 2 ^ n
  (base + b, base + b + 1, n)

/-- 2^(f) for f = (low `n` bits of x) ÷ 2^n, as bounds over 2^W: r := √(r × 2^bit) from the last bit up. -/
def expBounds (W n x : Nat) : Nat × Nat :=
  (List.range n).foldl (fun r i =>
    let s := if x.testBit i then W + 1 else W
    (isqrt (r.1 * 2 ^ s), isqrt (r.2 * 2 ^ s) + 1)) (2 ^ W, 2 ^ W)

/-- A value known to lie between two magnitudes over 2^n, both of one sign: rounded when both bounds agree. -/
def between (f : Fmt) (mode : RMode) (neg : Bool) (lo hi : Nat) (e : Int) : Option (Nat × FFlags) :=
  if lo = 0 then none
  else
    let a := fround f mode (.num neg (2 * lo + 1) (e - 1))
    let b := fround f mode (.num neg (2 * hi - 1) (e - 1))
    if a = b then some a else none

/-- Where the growing precisions of `flog2` and `fexp2` ended without a decision the result would be a free value (log 12). -/
def openResult (f : Fmt) (mode : RMode) (m : Nat) : Nat × FFlags := fround f mode (.num false (Config.freeDbl m).toNat 0)

/-- R102: log2, correctly rounded (log 12); tried at growing precision. -/
def flog2 (f : Fmt) (mode : RMode) : FVal → Nat × FFlags
  | .nan s => (f.nan, snan [.nan s])
  | .inf n => if n then (f.nan, fNV) else (f.code false f.infMag, 0)
  | .num n m e =>
    if m = 0 then (f.code true f.infMag, fDZ)
    else if n then (f.nan, fNV)
    else if m = 2 ^ (bitLen m - 1) then
      let x := e + (bitLen m - 1 : Nat)
      fround f mode (.num (decide (x < 0)) x.natAbs 0)
    else
      let go (i : Nat) : Option (Nat × FFlags) :=
        let (lo, hi, k) := logBounds m e i
        if 0 ≤ lo then between f mode false lo.toNat hi.toNat (-k)
        else between f mode true (-hi).toNat (-lo).toNat (-k)
      ((go 90).orElse fun _ => (go 180).orElse fun _ => go 360).getD (openResult f mode m)

/-- R102: 2^x, correctly rounded (log 12). -/
def fexp2 (f : Fmt) (mode : RMode) : FVal → Nat × FFlags
  | .nan s => (f.nan, snan [.nan s])
  | .inf n => if n then (f.code false 0, 0) else (f.code false f.infMag, 0)
  | .num n m e =>
    if m = 0 then fround f mode (.num false 1 0)
    else if 0 ≤ e + bitLen m - 12 then fround f mode (.num false 1 (if n then -4096 else 4096))
    else
      -- x = whole + frac / 2^k, frac in [0, 1)
      let k := (-e).toNat
      let z : Int := (if n then -1 else 1) * (m * 2 ^ e.toNat : Nat)
      let whole := z / 2 ^ k
      let frac := (z % 2 ^ k).toNat
      if frac = 0 then fround f mode (.num false 1 whole)
      else
        let go (W : Nat) : Option (Nat × FFlags) :=
          let (lo, hi) := expBounds W k frac
          between f mode false lo hi (whole - W)
        ((go 96).orElse fun _ => (go 224).orElse fun _ => go 448).getD (openResult f mode m)

/-- The order of two numbers. -/
def fless : FVal → FVal → Bool
  | .inf a, .inf b => a && !b
  | .inf a, _ => a
  | _, .inf b => !b
  | .num a m e, .num b n d => let lo := min e d; decide (atExp a m e lo < atExp b n d lo)
  | _, _ => false

def fequal (x y : FVal) : Bool := !isNan x && !isNan y && !fless x y && !fless y x

def fsign : FVal → Bool
  | .inf n => n
  | .num n _ _ => n
  | .nan _ => false

/-- R44, R132: minimumNumber (or maximumNumber) of two codes: −0 is less than +0, a number beats a NaN. -/
def fminmax (f : Fmt) (max : Bool) (a b : Nat) : Nat × FFlags :=
  let x := fdecode f a
  let y := fdecode f b
  let fl := snan [x, y]
  if isNan x && isNan y then (f.nan, fl)
  else if isNan x then (b, fl)
  else if isNan y then (a, fl)
  else
    let aLess := fless x y || (fequal x y && fsign x && !fsign y)
    (if aLess != max then a else b, fl)

/-- R77, R103: FCMP conditions 0 eq, 1 ne, 2 lt, 3 le, 4 gt, 5 ge, 6 un, 7 or. -/
def fcond (c : Nat) (x y : FVal) : Bool :=
  let un := isNan x || isNan y
  match c with
  | 0 => fequal x y
  | 1 => !fequal x y
  | 2 => !un && fless x y
  | 3 => !un && !fless y x
  | 4 => !un && fless y x
  | 5 => !un && !fless x y
  | 6 => un
  | _ => !un

/-- R103: FCLASS of an f32 (type 0). -/
def fclass (f : Fmt) (a : Nat) : Nat :=
  match fdecode f a with
  | .nan true => 2 ^ 8
  | .nan false => 2 ^ 9
  | .inf n => if n then 1 else 2 ^ 7
  | .num n m _ =>
    if m = 0 then (if n then 2 ^ 3 else 2 ^ 4)
    else if m < 2 ^ f.mb then (if n then 2 ^ 2 else 2 ^ 5)
    else (if n then 2 else 2 ^ 6)

/-- The exact integer nearest by mode to ±m × 2^e, and whether it is inexact. -/
def roundInt (mode : RMode) (neg : Bool) (m : Nat) (e : Int) : Int × Bool :=
  let (k, nx) := roundAt mode neg m e 0
  (if neg then -(k : Int) else k, nx)

/-- R47, integer column: codes 0 s32, 1 n32, 2 s64, 3 n64 give the width and signedness. -/
def toInt (n : Nat) (signed : Bool) (mode : RMode) : FVal → Nat × FFlags
  | .nan _ => (0, fNV)
  | .inf neg => (narrow n signed true (if neg then -(2 ^ 80) else 2 ^ 80), fNV)
  | .num neg m e =>
    let (k, nx) := roundInt mode neg m e
    let c := narrow n signed true k
    if asInt n signed c = k then (c, if nx then fNX else 0) else (c, fNV)

/-- An integer as an exact value. -/
def ofInt (x : Int) : FVal := .num (decide (x < 0)) x.natAbs 0

/-- R105 FRND: an integral value in the same format; only a signalling NaN raises a flag. -/
def frnd (f : Fmt) (mode : RMode) (a : Nat) : Nat × FFlags :=
  match fdecode f a with
  | .nan s => (f.nan, snan [.nan s])
  | .inf n => (f.code n f.infMag, 0)
  | .num n m e => let (k, _) := roundAt mode n m e 0
    ((fround f .rn (.num n k 0)).1, 0)

end Sys2Proof.Machine
end

