-- ==== Sys2Proof/Machine/Operands.lean ====
section
/-! DEFINITION. The operand forms of the encodings: sources through their permutation (R68), widths and modifiers (R76),
immediates (R69, R72, R79), and the shapes every lane instruction shares: read all sources, then write (R97). -/
namespace Sys2Proof.Machine

/-- Signed value of a field. -/
def simm {w : Nat} (x : BitVec w) : Int := x.toInt

/-- A signed immediate as an n-bit operand. -/
def immN {w : Nat} (n : Nat) (x : BitVec w) : Nat := (x.toInt % 2 ^ n).toNat

/-- R76: `.d`, `.n` and `.sat` of major 0x01: minor bits [13], [14], [15]. -/
def isD (o : A64) : Bool := o.m.getLsbD 5
def isN (o : A64) : Bool := o.m.getLsbD 6
def isSat (o : A64) : Bool := o.m.getLsbD 7
/-- The registers of an operand: a pair under `.d`. -/
def wideOf (d : Bool) : Nat := if d then 2 else 1

/-- Sources of an A64 instruction in lane l. -/
def srcVa (t : Team) (o : A64) (l w : Nat) : Nat := vgetW t (permLane o.pa l) o.va.toNat w
def srcVb (t : Team) (o : A64) (l w : Nat) : Nat := vgetW t (permLane o.pb l) o.vb.toNat w
def srcVc (t : Team) (o : A64) (l w : Nat) : Nat := vgetW t l o.vc.toNat w

/-- R97: every lane reads its sources, then writes its destination group. -/
def writeLanes (t : Team) (ls : List Nat) (vd w : Nat) (f : Nat → Nat) : Team :=
  ls.foldl (fun acc l => vsetW acc l vd w (f l)) t

/-- R97 for a predicate destination. -/
def writePreds (t : Team) (ls : List Nat) (pd : Nat) (f : Nat → Bool) : Team :=
  ls.foldl (fun acc l => pset acc l pd (f l)) t

/-- R68: the lanes that read a register of an A64 operation: through the permutation of the operand that names it. The widths
are those of its sources (0: not read). -/
def permReads (o : A64) (wa wb wc : Nat) (t : Team) : Option (Nat → List Nat) :=
  if o.pa = 0 ∧ o.pb = 0 then none
  else
    let names (v : BitVec 7) (w n : Nat) : Bool := decide (v.toNat ≤ n ∧ n < v.toNat + w)
    some fun n => (setLanes t.mask t.size).flatMap fun l =>
      (if names o.va wa n then [permLane o.pa l] else []) ++ (if names o.vb wb n then [permLane o.pb l] else []) ++
        (if names o.vc wc n then [l] else [])

/-- A lane instruction that writes a register group. -/
def laneOp (s : State) (len vd wd : Nat) (srcs : List (Nat × Nat)) (lanes : Team → List Nat)
    (f : Team → Nat → Nat) (reads : Team → Option (Nat → List Nat) := fun _ => none) : Out :=
  withTeam s [(vd, wd)] srcs [] (fun t => finish s (writeLanes t (lanes t) vd wd (f t)) len) (reads := reads)

/-- A lane instruction that writes a predicate. -/
def predOp (s : State) (len pd : Nat) (srcs : List (Nat × Nat)) (lanes : Team → List Nat) (f : Team → Nat → Bool)
    (reads : Team → Option (Nat → List Nat) := fun _ => none) : Out :=
  withTeam s [] srcs [] (fun t => finish s (writePreds t (lanes t) pd (f t)) len) (reads := reads)

/-- Sources of an integer operation of major 0x01: va, vb and vc with their widths in words (0: not read). -/
def intA (o : A64) (wb wc : Nat) (f : IntFn) (s : State) : Out :=
  let w := wideOf (isD o)
  let srcs := [(o.va.toNat, w)] ++ (if wb = 0 then [] else [(o.vb.toNat, wb)]) ++ (if wc = 0 then [] else [(o.vc.toNat, wc)])
  laneOp s 8 o.vd.toNat w srcs (activeLanes · o.n o.g) (reads := permReads o w wb wc) fun t l =>
    f (32 * w) (!isN o) (isSat o) (srcVa t o l w) (if wb = 0 then 0 else srcVb t o l wb) (if wc = 0 then 0 else srcVc t o l wc)

/-- R69: a C16 integer operation; shifts take the immediate zero-extended. -/
def intC16 (o : C16) (shift : Bool) (f : IntFn) (s : State) : Out :=
  let d := o.d.toNat
  laneOp s 2 d 1 (if o.i then [(d, 1)] else [(d, 1), (o.s.toNat, 1)]) (activeLanes · false 0) fun t l =>
    f 32 true false (vget t l d).toNat (if o.i then (if shift then o.s.toNat else immN 32 o.s) else (vget t l o.s.toNat).toNat) 0

/-- R72 L3. -/
def intL3 (o : L3) (f : IntFn) (s : State) : Out :=
  laneOp s 4 o.d.toNat 1 [(o.a.toNat, 1), (o.b.toNat, 1)] (activeLanes · false o.g) fun t l =>
    f 32 true false (vget t l o.a.toNat).toNat (vget t l o.b.toNat).toNat 0

/-- R72 RI. -/
def intRI (o : RI) (shift : Bool) (f : IntFn) (s : State) : Out :=
  laneOp s 4 o.d.toNat 1 [(o.a.toNat, 1)] (activeLanes · false 0) fun t l =>
    f 32 true false (vget t l o.a.toNat).toNat (if shift then o.imm.toNat else immN 32 o.imm) 0

/-- R79, major 0x08: the immediate stands for the second source, sign-extended under `.d`. -/
def intImm (o : I64) (f : IntFn) (s : State) : Out :=
  let w := wideOf (o.m.getLsbD 5)
  laneOp s 8 o.vd.toNat w [(o.va.toNat, w)] (activeLanes · o.n o.g) fun t l =>
    f (32 * w) true false (vgetW t l o.va.toNat w) (immN (32 * w) o.imm) 0

/-- A per-lane word result with flags: traps under R46, else the flags accumulate (R45) and the lanes are written. -/
def flagOp (s : State) (len vd wd : Nat) (srcs : List (Nat × Nat)) (lanes : Team → List Nat)
    (f : Team → Nat → Nat × FFlags) (reads : Team → Option (Nat → List Nat) := fun _ => none) : Out :=
  withTeam s [(vd, wd)] srcs [] (reads := reads) fun t =>
    let rs := (lanes t).map fun l => (l, f t l)
    let fl := rs.foldl (fun a r => a ||| r.2.2) (0 : FFlags)
    let hit := fl &&& t.fptrap.setWidth 5
    if hit ≠ 0 then .next (raise s (0x1C0 + lowBit hit.toNat 5) fl.toNat)
    else
      let t := rs.foldl (fun acc r => vsetW acc r.1 vd wd r.2.1) t
      finish s { t with fpflags := t.fpflags ||| fl.setWidth 32 } len

/-- As `flagOp`, writing a predicate. -/
def flagPred (s : State) (len pd : Nat) (srcs : List (Nat × Nat)) (lanes : Team → List Nat)
    (f : Team → Nat → Bool × FFlags) (reads : Team → Option (Nat → List Nat) := fun _ => none) : Out :=
  withTeam s [] srcs [] (reads := reads) fun t =>
    let rs := (lanes t).map fun l => (l, f t l)
    let fl := rs.foldl (fun a r => a ||| r.2.2) (0 : FFlags)
    let hit := fl &&& t.fptrap.setWidth 5
    if hit ≠ 0 then .next (raise s (0x1C0 + lowBit hit.toNat 5) fl.toNat)
    else
      let t := rs.foldl (fun acc r => pset acc r.1 pd r.2.1) t
      finish s { t with fpflags := t.fpflags ||| fl.setWidth 32 } len

/-- A float operation on codes: format, mode, three operand codes. -/
abbrev FloatFn := Fmt → RMode → Nat → Nat → Nat → Nat × FFlags

/-- R44: rounding delivers a canonical NaN, and the flags of the operation join those of the rounding. -/
def rounded (f : Fmt) (mode : RMode) (r : FVal × FFlags) : Nat × FFlags :=
  let (c, fl) := fround f mode r.1
  (c, fl ||| r.2)

def flAdd : FloatFn := fun f m a b _ => rounded f m (fadd m (fdecode f a) (fdecode f b))
def flSub : FloatFn := fun f m a b _ => rounded f m (fadd m (fdecode f a) (fneg (fdecode f b)))
def flMul : FloatFn := fun f m a b _ => rounded f m (fmul (fdecode f a) (fdecode f b))
def flFma : FloatFn := fun f m a b c => rounded f m (ffma m (fdecode f a) (fdecode f b) (fdecode f c))
def flMin : FloatFn := fun f _ a b _ => fminmax f false a b
def flMax : FloatFn := fun f _ a b _ => fminmax f true a b
def flRcp : FloatFn := fun f m a _ _ => rounded f m (frcp (fdecode f a))
def flRsq : FloatFn := fun f m a _ _ => rounded f m (frsq (fdecode f a))
def flExp2 : FloatFn := fun f m a _ _ => fexp2 f m (fdecode f a)
def flLog2 : FloatFn := fun f m a _ _ => flog2 f m (fdecode f a)
def flClass : FloatFn := fun f _ a _ _ => (fclass f a, 0)

/-- R41, R77: type 0 is f32; types 1 and 2 compute each half of a packed pair on its own. -/
def packed (ty : Nat) (g : FloatFn) (m : RMode) (a b c : Nat) : Nat × FFlags :=
  if ty = 0 then g f32 m a b c
  else
    let f := if ty = 1 then f16 else bf16
    let (x, fx) := g f m (a % 65536) (b % 65536) (c % 65536)
    let (y, fy) := g f m (a / 65536) (b / 65536) (c / 65536)
    (x + 65536 * y, fx ||| fy)

/-- Major 0x02; `useB` and `useC` say which sources it reads. -/
def floatA (o : A64) (useB useC : Bool) (g : FloatFn) (s : State) : Out :=
  let srcs := [(o.va.toNat, 1)] ++ (if useB then [(o.vb.toNat, 1)] else []) ++ (if useC then [(o.vc.toNat, 1)] else [])
  flagOp s 8 o.vd.toNat 1 srcs (activeLanes · o.n o.g)
      (reads := permReads o 1 (if useB then 1 else 0) (if useC then 1 else 0)) fun t l =>
    packed (sub o.m 4 2) g (rmode (sub o.m 6 2)) (srcVa t o l 1) (if useB then srcVb t o l 1 else 0)
      (if useC then srcVc t o l 1 else 0)

def floatC16 (o : C16F) (g : FloatFn) (s : State) : Out :=
  let d := o.d.toNat
  flagOp s 2 d 1 [(d, 1), (o.s.toNat, 1)] (activeLanes · false 0) fun t l =>
    g f32 .rn (vget t l d).toNat (vget t l o.s.toNat).toNat 0

def floatL3 (o : L3) (g : FloatFn) (s : State) : Out :=
  flagOp s 4 o.d.toNat 1 [(o.a.toNat, 1), (o.b.toNat, 1)] (activeLanes · false o.g) fun t l =>
    g f32 .rn (vget t l o.a.toNat).toNat (vget t l o.b.toNat).toNat 0

def floatImm (o : I64) (g : FloatFn) (s : State) : Out :=
  flagOp s 8 o.vd.toNat 1 [(o.va.toNat, 1)] (activeLanes · o.n o.g) fun t l =>
    g f32 (rmode (sub o.m 4 2)) (vget t l o.va.toNat).toNat o.imm.toNat 0

end Sys2Proof.Machine
end

