-- ==== Sys2Proof/Machine/Cross.lean ====
section
/-! DEFINITION. Instructions across lanes (R107-R111), pointers (R106), predicates and moves between register files
(R112). -/
namespace Sys2Proof.Machine

/-- R107: the segment size of major 0x04. -/
def segOf (o : A64) : Nat := 2 ^ sub o.vc 0 4

/-- R108: the lane SHFL reads from; its own when the index falls outside the segment. -/
def shflLane (mode g l b : Nat) : Nat :=
  let i := l % g
  let base := l - i
  let inside (j : Nat) := if j < g then base + j else l
  match mode with
  | 0 => inside b
  | 1 => if b ≤ i then inside (i - b) else l
  | 2 => inside (i + b)
  | _ => inside (Nat.xor i b)

/-- The lane that lane l of a SHFL reads from. -/
def shflFrom (t : Team) (o : A64) (l : Nat) : Nat := shflLane (sub o.m 2 2) (segOf o) l (srcVb t o l 1)

/-- R108, R280: the lanes that read a register of SHFL. -/
def shflReads (o : A64) (w : Nat) (t : Team) : Option (Nat → List Nat) :=
  some fun n => (activeLanes t o.n o.g).flatMap fun l =>
    (if o.va.toNat ≤ n ∧ n < o.va.toNat + w then [permLane o.pa (shflFrom t o l)] else []) ++
      (if n = o.vb.toNat then [permLane o.pb l] else [])

/-- R108: SHFL; permutations apply before the exchange. A lane past the team's size reads as its register stands: 0. -/
def execShfl (o : A64) (s : State) : Out :=
  let w := wideOf (o.m.getLsbD 4)
  laneOp s 8 o.vd.toNat w [(o.va.toNat, w), (o.vb.toNat, 1)] (activeLanes · o.n o.g) (reads := shflReads o w) fun t l =>
    srcVa t o (shflFrom t o l) w

/-- R109: the participants of lane l's segment whose read predicate is true. -/
def voters (t : Team) (o : A64) (l : Nat) : List Nat :=
  (activeLanes t o.n o.g).filter fun j =>
    decide (j / segOf o = l / segOf o) && (pget t j (sub o.va 0 3) != o.va.getLsbD 3)

/-- R109: VOTE.any. -/
def execVoteAny (o : A64) (s : State) : Out :=
  predOp s 8 (sub o.vd 0 3) [] (activeLanes · o.n o.g) fun t l => !(voters t o l).isEmpty

/-- R109: VOTE.all: every participant of the segment is in t. -/
def execVoteAll (o : A64) (s : State) : Out :=
  predOp s 8 (sub o.vd 0 3) [] (activeLanes · o.n o.g) fun t l =>
    (activeLanes t o.n o.g).all fun j => !(decide (j / segOf o = l / segOf o)) || (voters t o l).contains j

/-- R109: VOTE.ballot: bit j for the lane at position j. -/
def execVoteBallot (o : A64) (s : State) : Out :=
  laneOp s 8 o.vd.toNat 1 [] (activeLanes · o.n o.g) fun t l => ((voters t o l).map fun j => 2 ^ (j % segOf o)).sum

/-- R109: VOTE.ffs: the least position, or G. -/
def execVoteFfs (o : A64) (s : State) : Out :=
  laneOp s 8 o.vd.toNat 1 [] (activeLanes · o.n o.g) fun t l => match voters t o l with
    | [] => segOf o
    | j :: _ => j % segOf o

/-- R110: one step of a reduction, with its flags. -/
def redStep (code a b : Nat) : Nat × FFlags :=
  match code with
  | 0 => (iAdd 32 false false a b 0, 0)
  | 1 => (iMin 32 true false a b 0, 0)
  | 2 => (iMax 32 true false a b 0, 0)
  | 3 => (iMin 32 false false a b 0, 0)
  | 4 => (iMax 32 false false a b 0, 0)
  | 5 => (Nat.land a b, 0)
  | 6 => (Nat.lor a b, 0)
  | 7 => (Nat.xor a b, 0)
  | 8 => flAdd f32 .rn a b 0
  | 9 => fminmax f32 false a b
  | _ => fminmax f32 true a b

/-- R110: the identity of SCAN.ex. -/
def redIdentity (code : Nat) : Nat :=
  match code with
  | 1 => 0x7FFFFFFF | 2 => 0x80000000 | 3 => 0xFFFFFFFF | 5 => 0xFFFFFFFF | 9 => 0x7F800000 | 10 => 0xFF800000 | _ => 0

/-- R110, R44: the value delivered: a NaN of a float operation is canonical, a signalling NaN raises NV. -/
def redValue (code : Nat) (xs : List Nat) : Nat × FFlags :=
  match xs with
  | [] => (redIdentity code, 0)
  | x :: rest =>
    let r := rest.foldl (fun acc y => let z := redStep code acc.1 y; (z.1, acc.2 ||| z.2)) (x, (0 : FFlags))
    if code < 8 then r
    else
      let fl := r.2 ||| snan (xs.map (fdecode f32))
      (if isNan (fdecode f32 r.1) then f32.nan else r.1, fl)

/-- R110: REDUX and SCAN: the participants of the segment that the reduction covers for lane l. -/
def reduceOver (o : A64) (covers : Nat → Nat → Bool) (s : State) : Out :=
  flagOp s 8 o.vd.toNat 1 [(o.va.toNat, 1)] (activeLanes · o.n o.g) (reads := permReads o 1 0 0) fun t l =>
    redValue (sub o.m 2 4) (((activeLanes t o.n o.g).filter fun j => decide (j / segOf o = l / segOf o) && covers l j).map
      fun j => srcVa t o j 1)

def execRedux (o : A64) (s : State) : Out := reduceOver o (fun _ _ => true) s

/-- R110: SCAN covers the participants up to the lane itself, or strictly below it under `.ex`. -/
def execScan (o : A64) (s : State) : Out :=
  reduceOver o (fun l j => if o.m.getLsbD 6 then decide (j < l) else decide (j ≤ l)) s

/-- R106: PADD. -/
def execPadd (o : A64) (s : State) : Out :=
  laneOp s 8 o.vd.toNat 2 [(o.va.toNat, 2), (o.vb.toNat, 2)] (activeLanes · o.n o.g) (reads := permReads o 2 2 0) fun t l =>
    (advance (BitVec.ofNat 64 (srcVa t o l 2)) (sextN (srcVb t o l 2) 64)).toNat

/-- R106: PMAKE. -/
def execPmake (o : A64) (s : State) : Out :=
  laneOp s 8 o.vd.toNat 2 [(o.va.toNat, 1), (o.vb.toNat, 2)] (activeLanes · o.n o.g) (reads := permReads o 1 2 0) fun t l =>
    2 ^ 63 + srcVa t o l 1 % 2 ^ 29 * 2 ^ 34 + srcVb t o l 2 % 2 ^ 34

/-- R106: PGOID. -/
def execPgoid (o : A64) (s : State) : Out :=
  laneOp s 8 o.vd.toNat 1 [(o.va.toNat, 2)] (activeLanes · o.n o.g) (reads := permReads o 2 0 0) fun t l =>
    let p := srcVa t o l 2
    if 2 ^ 63 ≤ p then p / 2 ^ 34 % 2 ^ 29 else 0xFFFFFFFF

/-- R106: POFF. -/
def execPoff (o : A64) (s : State) : Out :=
  laneOp s 8 o.vd.toNat 2 [(o.va.toNat, 2)] (activeLanes · o.n o.g) (reads := permReads o 2 0 0) fun t l =>
    let p := srcVa t o l 2
    if 2 ^ 63 ≤ p then p % 2 ^ 34 else p % 2 ^ 60

/-- R112: PLOP: lut bit (4 × pa + 2 × pb + pc). -/
def execPlop (o : A64) (s : State) : Out :=
  predOp s 8 (sub o.vd 0 3) [] (activeLanes · o.n o.g) fun t l =>
    let bit (b : Bool) := if b then 1 else 0
    o.pb.getLsbD (4 * bit (pget t l (sub o.va 0 3)) + 2 * bit (pget t l (sub o.vb 0 3)) + bit (pget t l (sub o.vc 0 3)))

/-- R112: PMOV.get: p7 to p0 in bits [7:0]; bit 0 reads 1. -/
def execPmovGet (o : A64) (s : State) : Out :=
  laneOp s 8 o.vd.toNat 1 [] (activeLanes · o.n o.g) fun t l => ((tgetD t.p l 0) ||| 1).toNat

/-- R112: PMOV.set: p1 to p7 from va[7:1]. -/
def execPmovSet (o : A64) (s : State) : Out :=
  withTeam s [] [(o.va.toNat, 1)] [] (reads := permReads o 1 0 0) fun t =>
    finish s ((activeLanes t o.n o.g).foldl (fun acc l =>
      { acc with p := tset 0 acc.p l (BitVec.ofNat 8 (srcVa t o l 1) &&& 0xFE), badP := acc.badP.filter (· / 8 ≠ l) }) t) 8

/-- R112: K2V. -/
def execK2v (o : A64) (s : State) : Out :=
  let w := wideOf (o.m.getLsbD 5)
  withTeam s [(o.vd.toNat, w)] [] [(sub o.va 0 6, w)] fun t =>
    let x := if w = 2 then (kgetD t (sub o.va 0 6)).toNat else (kget t (sub o.va 0 6)).toNat
    finish s (writeLanes t (activeLanes t o.n o.g) o.vd.toNat w fun _ => x) 8

/-- R112: V2K: the lowest-numbered lane of active(T); kd unchanged when there is none. -/
def execV2k (o : A64) (s : State) : Out :=
  let w := wideOf (o.m.getLsbD 5)
  let kd := sub o.vd 0 6
  withTeam s [] [(o.va.toNat, w)] [] (kd := [(kd, w)]) (reads := permReads o w 0 0) fun t => match activeLanes t o.n o.g with
    | [] => finish s t 8
    | l :: _ =>
      let x := srcVa t o l w
      finish s (if w = 2 then ksetD t kd (BitVec.ofNat 64 x) else kset t kd (BitVec.ofNat 32 x)) 8

end Sys2Proof.Machine
end

