-- ==== Sys2Proof/Machine/LaneFloat.lean ====
section
/-! DEFINITION. Lane floats: the C16 and L3 forms, major 0x02 (R77, R102, R103, R132), its immediates (R79), and the
conversions of major 0x03 (R78, R104, R105). -/
namespace Sys2Proof.Machine

/-- R69: FADD in f32, rn. -/
def execFaddC16 (o : C16F) (s : State) : Out := floatC16 o flAdd s

/-- R69: FSUB in f32, rn. -/
def execFsubC16 (o : C16F) (s : State) : Out := floatC16 o flSub s

/-- R69: FMUL in f32, rn. -/
def execFmulC16 (o : C16F) (s : State) : Out := floatC16 o flMul s

/-- R69: FMAX in f32, rn. -/
def execFmaxC16 (o : C16F) (s : State) : Out := floatC16 o flMax s

/-- R72: FADD in f32, rn. -/
def execFaddL3 (o : L3) (s : State) : Out := floatL3 o flAdd s

/-- R72: FSUB in f32, rn. -/
def execFsubL3 (o : L3) (s : State) : Out := floatL3 o flSub s

/-- R72: FMUL in f32, rn. -/
def execFmulL3 (o : L3) (s : State) : Out := floatL3 o flMul s

/-- R102: FADD. -/
def execFadd (o : A64) (s : State) : Out := floatA o true false flAdd s

/-- R102: FSUB. -/
def execFsub (o : A64) (s : State) : Out := floatA o true false flSub s

/-- R102: FMUL. -/
def execFmul (o : A64) (s : State) : Out := floatA o true false flMul s

/-- R102: FFMA. -/
def execFfma (o : A64) (s : State) : Out := floatA o true true flFma s

/-- R102: FMIN. -/
def execFmin (o : A64) (s : State) : Out := floatA o true false flMin s

/-- R102: FMAX. -/
def execFmax (o : A64) (s : State) : Out := floatA o true false flMax s

/-- R102: FRCP. -/
def execFrcp (o : A64) (s : State) : Out := floatA o false false flRcp s

/-- R102: FRSQ. -/
def execFrsq (o : A64) (s : State) : Out := floatA o false false flRsq s

/-- R102: FEXP2. -/
def execFexp2 (o : A64) (s : State) : Out := floatA o false false flExp2 s

/-- R102: FLOG2. -/
def execFlog2 (o : A64) (s : State) : Out := floatA o false false flLog2 s

/-- R102: FCLASS. -/
def execFclass (o : A64) (s : State) : Out := floatA o false false flClass s

/-- R103: FCMP. -/
def execFcmp (o : A64) (s : State) : Out := 
  flagPred s 8 (sub o.vd 0 3) [(o.va.toNat, 1), (o.vb.toNat, 1)] (activeLanes · o.n o.g) (reads := permReads o 1 1 0) fun t l =>
    let x := fdecode f32 (srcVa t o l 1)
    let y := fdecode f32 (srcVb t o l 1)
    (fcond (sub o.vc 0 4) x y, snan [x, y])

/-- R79: FADD with an f32 immediate. -/
def execFaddImm (o : I64) (s : State) : Out := floatImm o flAdd s

/-- R79: FSUB with an f32 immediate. -/
def execFsubImm (o : I64) (s : State) : Out := floatImm o flSub s

/-- R79: FMUL with an f32 immediate. -/
def execFmulImm (o : I64) (s : State) : Out := floatImm o flMul s

/-- R79: FMIN with an f32 immediate. -/
def execFminImm (o : I64) (s : State) : Out := floatImm o flMin s

/-- R79: FMAX with an f32 immediate. -/
def execFmaxImm (o : I64) (s : State) : Out := floatImm o flMax s

/-- R79: FCMP with an f32 immediate. -/
def execFcmpImm (o : I64) (s : State) : Out := 
  flagPred s 8 (sub o.vd 0 3) [(o.va.toNat, 1)] (activeLanes · o.n o.g) fun t l =>
    let x := fdecode f32 (vget t l o.va.toNat).toNat
    let y := fdecode f32 o.imm.toNat
    (fcond (sub o.vd 3 3) x y, snan [x, y])

/-- R104: a width rounded up to a slot of 4, 8, 16 or 32 bits. -/
def slotWidth (w : Nat) : Nat := if w ≤ 4 then 4 else if w ≤ 8 then 8 else if w ≤ 16 then 16 else 32

/-- R104: applies a conversion to each element of a word: source and destination widths, then the element function. -/
def perSlot (ws wd : Nat) (f : Nat → Nat → Nat × FFlags) (a : Nat) : Nat × FFlags :=
  let slot := slotWidth (max ws wd)
  let n := 32 / slot
  (List.range n).foldl (fun acc i =>
    let (c, fl) := f i (a / 2 ^ (slot * i) % 2 ^ ws)
    (acc.1 + c * 2 ^ (slot * i), acc.2 ||| fl)) (0, 0)

/-- R78: the rounding mode of major 0x03 for element i; under rs the random word is vb rotated (R43). -/
def cvtRound (o : A64) (q i : Nat) : RMode :=
  if cvtMode o = 4 then
    let r := 8 * i % 32
    .rs ((q / 2 ^ r + q * 2 ^ (32 - r)) % 2 ^ 24)
  else rmode (cvtMode o)

/-- The float formats of R78, f32 standing in for a code that legal instructions do not hold. -/
def cvtFmt (c : Nat) : Fmt := (fmtOf c).getD f32

/-- R105: FCVT rounds each element of format S into format D. -/
def execFcvt (o : A64) (s : State) : Out := 
  let fs := cvtFmt (cvtS o)
  let fd := cvtFmt (cvtD o)
  let rs := cvtMode o = 4
  flagOp s 8 o.vd.toNat 1 ([(o.va.toNat, 1)] ++ if rs then [(o.vb.toNat, 1)] else []) (activeLanes · o.n o.g)
      (reads := permReads { o with pb := 0 } 1 (if rs then 1 else 0) 0) fun t l =>
    let q := if rs then (vget t l o.vb.toNat).toNat else 0
    perSlot fs.width fd.width (fun i a =>
      let x := fdecode fs a
      rounded fd (cvtRound o q i) (x, snan [x])) (srcVa t o l 1)

/-- R78: integer code 0 s32, 1 n32, 2 s64, 3 n64. -/
def intWords (c : Nat) : Nat := if c < 2 then 1 else 2
def intSigned (c : Nat) : Bool := decide (c % 2 = 0)

/-- R105: I2F rounds the integer into D. -/
def execI2f (o : A64) (s : State) : Out := 
  let fd := cvtFmt (cvtD o)
  let w := intWords (cvtS o)
  flagOp s 8 o.vd.toNat 1 [(o.va.toNat, w)] (activeLanes · o.n o.g) (reads := permReads o w 0 0) fun t l =>
    fround fd (rmode (cvtMode o)) (ofInt (asInt (32 * w) (intSigned (cvtS o)) (srcVa t o l w)))

/-- R105: F2I rounds to an integer under the integer column of R47. -/
def execF2i (o : A64) (s : State) : Out := 
  let fs := cvtFmt (cvtS o)
  let w := intWords (cvtD o)
  flagOp s 8 o.vd.toNat w [(o.va.toNat, 1)] (activeLanes · o.n o.g) (reads := permReads o 1 0 0) fun t l =>
    toInt (32 * w) (intSigned (cvtD o)) (rmode (cvtMode o)) (fdecode fs (srcVa t o l 1 % 2 ^ fs.width))

/-- R105: FRND rounds to an integral value in the same format. -/
def execFrnd (o : A64) (s : State) : Out := 
  let f := cvtFmt (cvtS o)
  flagOp s 8 o.vd.toNat 1 [(o.va.toNat, 1)] (activeLanes · o.n o.g) (reads := permReads o 1 0 0) fun t l =>
    perSlot f.width f.width (fun _ a => frnd f (rmode (cvtMode o)) a) (srcVa t o l 1)

end Sys2Proof.Machine
end

