-- ==== Sys2Proof/Machine/LaneInt.lean ====
section
/-! DEFINITION. Lane integers: the C16, L3 and RI forms (R69, R72), major 0x01 (R76, R100) and its immediates (R79). -/
namespace Sys2Proof.Machine

/-- R69: MOV writes vs or imm to vd. -/
def execMovC16 (o : C16) (s : State) : Out := laneOp s 2 o.d.toNat 1 (if o.i then [] else [(o.s.toNat, 1)]) (activeLanes · false 0) fun t l =>
  if o.i then immN 32 o.s else (vget t l o.s.toNat).toNat

/-- R69, R96: IADD. -/
def execIaddC16 (o : C16) (s : State) : Out := intC16 o false iAdd s

/-- R69, R96: ISUB. -/
def execIsubC16 (o : C16) (s : State) : Out := intC16 o false iSub s

/-- R69, R96: IMUL. -/
def execImulC16 (o : C16) (s : State) : Out := intC16 o false iMul s

/-- R69, R96: IAND. -/
def execIandC16 (o : C16) (s : State) : Out := intC16 o false iAnd s

/-- R69, R96: IOR. -/
def execIorC16 (o : C16) (s : State) : Out := intC16 o false iOr s

/-- R69, R96: IXOR. -/
def execIxorC16 (o : C16) (s : State) : Out := intC16 o false iXor s

/-- R69, R96: ISHL. -/
def execIshlC16 (o : C16) (s : State) : Out := intC16 o true iShl s

/-- R69, R96: ISHR. -/
def execIshrC16 (o : C16) (s : State) : Out := intC16 o true iShr s

/-- R69, R96: ISAR. -/
def execIsarC16 (o : C16) (s : State) : Out := intC16 o true iSar s

/-- R69, R96: IMIN. -/
def execIminC16 (o : C16) (s : State) : Out := intC16 o false iMin s

/-- R69, R96: IMAX. -/
def execImaxC16 (o : C16) (s : State) : Out := intC16 o false iMax s

/-- R72, R96: IADD. -/
def execIaddL3 (o : L3) (s : State) : Out := intL3 o iAdd s

/-- R72, R96: ISUB. -/
def execIsubL3 (o : L3) (s : State) : Out := intL3 o iSub s

/-- R72, R96: IMUL. -/
def execImulL3 (o : L3) (s : State) : Out := intL3 o iMul s

/-- R72, R96: IMULH. -/
def execImulhL3 (o : L3) (s : State) : Out := intL3 o iMulh s

/-- R72, R96: IAND. -/
def execIandL3 (o : L3) (s : State) : Out := intL3 o iAnd s

/-- R72, R96: IOR. -/
def execIorL3 (o : L3) (s : State) : Out := intL3 o iOr s

/-- R72, R96: IXOR. -/
def execIxorL3 (o : L3) (s : State) : Out := intL3 o iXor s

/-- R72, R96: ISHL. -/
def execIshlL3 (o : L3) (s : State) : Out := intL3 o iShl s

/-- R72, R96: ISHR. -/
def execIshrL3 (o : L3) (s : State) : Out := intL3 o iShr s

/-- R72, R96: ISAR. -/
def execIsarL3 (o : L3) (s : State) : Out := intL3 o iSar s

/-- R72, R96: IMIN. -/
def execIminL3 (o : L3) (s : State) : Out := intL3 o iMin s

/-- R72, R96: IMAX. -/
def execImaxL3 (o : L3) (s : State) : Out := intL3 o iMax s

/-- R72, R96: IADD with an immediate. -/
def execIaddRi (o : RI) (s : State) : Out := intRI o false iAdd s

/-- R72, R96: IAND with an immediate. -/
def execIandRi (o : RI) (s : State) : Out := intRI o false iAnd s

/-- R72, R96: IOR with an immediate. -/
def execIorRi (o : RI) (s : State) : Out := intRI o false iOr s

/-- R72, R96: IXOR with an immediate. -/
def execIxorRi (o : RI) (s : State) : Out := intRI o false iXor s

/-- R72, R96: ISHL with an immediate. -/
def execIshlRi (o : RI) (s : State) : Out := intRI o true iShl s

/-- R72, R96: ISHR with an immediate. -/
def execIshrRi (o : RI) (s : State) : Out := intRI o true iShr s

/-- R72, R96: ISAR with an immediate. -/
def execIsarRi (o : RI) (s : State) : Out := intRI o true iSar s

/-- R72: MOV writes imm to vd. -/
def execMovRi (o : RIMov) (s : State) : Out := laneOp s 4 o.d.toNat 1 [] (activeLanes · false 0) fun _ _ => immN 32 o.imm

/-- R100: IADD. -/
def execIadd (o : A64) (s : State) : Out := intA o (wideOf (isD o)) 0 iAdd s

/-- R100: ISUB. -/
def execIsub (o : A64) (s : State) : Out := intA o (wideOf (isD o)) 0 iSub s

/-- R100: IMUL. -/
def execImul (o : A64) (s : State) : Out := intA o (wideOf (isD o)) 0 iMul s

/-- R100: IMULH. -/
def execImulh (o : A64) (s : State) : Out := intA o (wideOf (isD o)) 0 iMulh s

/-- R100: IMAD. -/
def execImad (o : A64) (s : State) : Out := intA o (wideOf (isD o)) (wideOf (isD o)) iMad s

/-- R100: IMIN. -/
def execImin (o : A64) (s : State) : Out := intA o (wideOf (isD o)) 0 iMin s

/-- R100: IMAX. -/
def execImax (o : A64) (s : State) : Out := intA o (wideOf (isD o)) 0 iMax s

/-- R100: IABS. -/
def execIabs (o : A64) (s : State) : Out := intA o 0 0 iAbs s

/-- R100: IAND. -/
def execIand (o : A64) (s : State) : Out := intA o (wideOf (isD o)) 0 iAnd s

/-- R100: IOR. -/
def execIor (o : A64) (s : State) : Out := intA o (wideOf (isD o)) 0 iOr s

/-- R100: IXOR. -/
def execIxor (o : A64) (s : State) : Out := intA o (wideOf (isD o)) 0 iXor s

/-- R100: ISHL. -/
def execIshl (o : A64) (s : State) : Out := intA o (wideOf (isD o)) 0 iShl s

/-- R100: ISHR. -/
def execIshr (o : A64) (s : State) : Out := intA o (wideOf (isD o)) 0 iShr s

/-- R100: ISAR. -/
def execIsar (o : A64) (s : State) : Out := intA o (wideOf (isD o)) 0 iSar s

/-- R100: IROT. -/
def execIrot (o : A64) (s : State) : Out := intA o (wideOf (isD o)) 0 iRot s

/-- R100: IPOPC. -/
def execIpopc (o : A64) (s : State) : Out := intA o 0 0 iPopc s

/-- R100: ICLZ. -/
def execIclz (o : A64) (s : State) : Out := intA o 0 0 iClz s

/-- R100: IBREV. -/
def execIbrev (o : A64) (s : State) : Out := intA o 0 0 iBrev s

/-- R100: IBFX. -/
def execIbfx (o : A64) (s : State) : Out := intA o 1 1 iBfx s

/-- R100: IBFI. -/
def execIbfi (o : A64) (s : State) : Out := intA o (wideOf (isD o)) 1 iBfi s

/-- R100: MOV. -/
def execMov (o : A64) (s : State) : Out := intA o 0 0 iMov s

/-- R100: ISEL takes va where the predicate of R76 is true, else vb. -/
def execIsel (o : A64) (s : State) : Out := 
  let w := wideOf (isD o)
  laneOp s 8 o.vd.toNat w [(o.va.toNat, w), (o.vb.toNat, w)] (activeLanes · o.n o.g) (reads := permReads o w w 0) fun t l =>
    if pget t l (sub o.vc 0 3) then srcVa t o l w else srcVb t o l w

/-- R100, R76: ICMP writes its predicate. -/
def execIcmp (o : A64) (s : State) : Out := 
  let w := wideOf (isD o)
  predOp s 8 (sub o.vd 0 3) [(o.va.toNat, w), (o.vb.toNat, w)] (activeLanes · o.n o.g) (reads := permReads o w w 0) fun t l =>
    intCond (sub o.vc 0 4) (asInt (32 * w) (!isN o) (srcVa t o l w)) (asInt (32 * w) (!isN o) (srcVb t o l w))

/-- R79, R96: IADD with imm32. -/
def execIaddImm (o : I64) (s : State) : Out := intImm o iAdd s

/-- R79, R96: IMUL with imm32. -/
def execImulImm (o : I64) (s : State) : Out := intImm o iMul s

/-- R79, R96: IMIN with imm32. -/
def execIminImm (o : I64) (s : State) : Out := intImm o iMin s

/-- R79, R96: IMAX with imm32. -/
def execImaxImm (o : I64) (s : State) : Out := intImm o iMax s

/-- R79, R96: IAND with imm32. -/
def execIandImm (o : I64) (s : State) : Out := intImm o iAnd s

/-- R79, R96: IOR with imm32. -/
def execIorImm (o : I64) (s : State) : Out := intImm o iOr s

/-- R79, R96: IXOR with imm32. -/
def execIxorImm (o : I64) (s : State) : Out := intImm o iXor s

/-- R79, R96: ISHL with imm32. -/
def execIshlImm (o : I64) (s : State) : Out := intImm o iShl s

/-- R79, R96: ISHR with imm32. -/
def execIshrImm (o : I64) (s : State) : Out := intImm o iShr s

/-- R79, R96: ISAR with imm32. -/
def execIsarImm (o : I64) (s : State) : Out := intImm o iSar s

/-- R79, R96: IROT with imm32. -/
def execIrotImm (o : I64) (s : State) : Out := intImm o iRot s

/-- R79: MOV writes imm32. -/
def execMovImm (o : I64) (s : State) : Out := 
  let w := wideOf (o.m.getLsbD 5)
  laneOp s 8 o.vd.toNat w [] (activeLanes · o.n o.g) fun _ _ => immN (32 * w) o.imm

/-- R79: ICMP against imm32; conditions 6 to 9 are unsigned. -/
def execIcmpImm (o : I64) (s : State) : Out := 
  let w := wideOf (o.m.getLsbD 5)
  predOp s 8 (sub o.vd 0 3) [(o.va.toNat, w)] (activeLanes · o.n o.g) fun t l =>
    wideCond (32 * w) (sub o.vd 3 4) (vgetW t l o.va.toNat w) (immN (32 * w) o.imm)

end Sys2Proof.Machine
end

