-- ==== Sys2Proof/Machine/Control.lean ====
section
/-! DEFINITION. Paths, branches, calls and traps (R117-R126), and register acquisition (R127-R129, R24). -/
namespace Sys2Proof.Machine

/-- R72: the target of a B-format instruction. -/
def target {w : Nat} (pc : Dbl) (off : BitVec w) : Dbl := pc + BitVec.ofInt 64 (2 * off.toInt)

/-- R119: records a path in a frame: lanes bound for a pending address join it. None at a ninth address. -/
def recordPath (f : Frame) (p : Path) : Option Frame :=
  if f.pending.any fun q => decide (q.pc = p.pc) then
    some { f with pending := f.pending.map fun q => if q.pc = p.pc then { q with lanes := q.lanes ||| p.lanes } else q }
  else if f.pending.length < 8 then some { f with pending := f.pending ++ [p] }
  else none

/-- Records paths in order in the top frame: 0x006 without a frame, 0x007 at a ninth pending address. -/
def recordPaths : List Frame → List Path → Except Nat (List Frame)
  | [], _ => .error 6
  | f :: fs, ps => match ps.foldl (fun acc p => acc.bind fun f => recordPath f p) (some f) with
    | some f => .ok (f :: fs)
    | none => .error 7

/-- R119, R120: lanes go to their targets: the first group runs, the others are recorded in order. -/
def branch (s : State) (t : Team) (groups : List Path) : Out :=
  match groups with
  | [] => .next s
  | [p] => .next (putTeam s s.cur { t with pc := p.pc, wait := .none, swept := 0, stopAt := none })
  | p :: rest => match recordPaths t.frames rest with
    | .ok fs => .next (putTeam s s.cur
        { t with pc := p.pc, mask := p.lanes, frames := fs, wait := .none, swept := 0, stopAt := none })
    | .error c => .next (raise s c 0)

/-- R120: joins groups bound for equal addresses and drops those without a lane. A merged group stands where its first group that
holds a lane stood; the manual does not say where it stands when an earlier pair of its address holds none (log 42). -/
def mergeGroups : List Path → List Path → List Path
  | acc, [] => acc
  | acc, p :: ps =>
    if p.lanes = 0 then mergeGroups acc ps
    else if acc.any fun q => decide (q.pc = p.pc) then
      mergeGroups (acc.map fun q => if q.pc = p.pc then { q with lanes := q.lanes ||| p.lanes } else q) ps
    else mergeGroups (acc ++ [p]) ps

/-- R118: DIV pushes a frame; 0x007 at depth 16. -/
def execDiv (o : JmpB) (s : State) : Out :=
  withTeam s [] [] [] fun t =>
    if 16 ≤ t.frames.length then .next (raise s 7 0)
    else finish s { t with frames := { join := target t.pc o.off } :: t.frames } 4

/-- R119: BRA tests its predicate in each lane of the mask. A split runs the target first. -/
def execBra (o : BraB) (s : State) : Out :=
  withTeam s [] [] [] fun t =>
    let taken := laneSet (activeLanes t o.n o.p)
    let rest := t.mask &&& ~~~taken
    if rest = 0 then .next (putTeam s s.cur { t with pc := target t.pc o.off, wait := .none, swept := 0, stopAt := none })
    else if taken = 0 then finish s t 4
    else branch s t [⟨target t.pc o.off, taken⟩, ⟨t.pc + 4, rest⟩]

/-- R82, R120: the lanes of the mask for which condition nibble c holds; 8 marks an unused pair. -/
def brmLanes (t : Team) (c : BitVec 4) : LaneSet :=
  if c = 8 then 0 else laneSet (activeLanes t (c.getLsbD 3) (c.setWidth 3))

/-- R120: BRM: each lane goes by the first pair, 0 to 3, whose condition holds, or falls through. -/
def execBrm (o : J64) (s : State) : Out :=
  withTeam s [] [] [] fun t =>
    let m0 := brmLanes t o.c0 &&& t.mask
    let m1 := brmLanes t o.c1 &&& t.mask &&& ~~~m0
    let m2 := brmLanes t o.c2 &&& t.mask &&& ~~~(m0 ||| m1)
    let m3 := brmLanes t o.c3 &&& t.mask &&& ~~~(m0 ||| m1 ||| m2)
    let mf := t.mask &&& ~~~(m0 ||| m1 ||| m2 ||| m3)
    branch s t (mergeGroups [] [⟨target t.pc o.o0, m0⟩, ⟨target t.pc o.o1, m1⟩, ⟨target t.pc o.o2, m2⟩,
      ⟨target t.pc o.o3, m3⟩, ⟨t.pc + 8, mf⟩])

/-- R121, R123: JOIN: 0x008 at depth 0; 0x00E when the depth is not greater than the top call entry's. -/
def execJoin (s : State) : Out :=
  withTeam s [] [] [] fun t =>
    if t.frames.isEmpty then .next (raise s 8 0)
    else if t.calls.head?.any fun c => decide (t.frames.length ≤ c.depth) then .next (raise s 0xE 0)
    else .next (endPath s s.cur t t.mask)

/-- R122: EXIT removes every lane of the mask for good. -/
def execExit (s : State) : Out := withTeam s [] [] [] fun t => .next (endPath s s.cur t 0)

/-- R123: CALL. -/
def execCall (o : JmpB) (s : State) : Out :=
  withTeam s [] [] [] fun t =>
    if 16 ≤ t.calls.length then .next (raise s 0xC 0)
    else .next (putTeam s s.cur { t with
      pc := target t.pc o.off, wait := .none, swept := 0, stopAt := none, calls := ⟨t.pc + 4, t.frames.length⟩ :: t.calls })

/-- R123: RET: 0x00D without an entry, 0x00E when the depth differs. -/
def execRet (s : State) : Out :=
  withTeam s [] [] [] fun t => match t.calls with
    | [] => .next (raise s 0xD 0)
    | c :: cs =>
      if c.depth ≠ t.frames.length then .next (raise s 0xE 0)
      else .next (putTeam s s.cur { t with pc := c.ret, calls := cs, wait := .none, swept := 0, stopAt := none })

/-- R124: KLOOP. -/
def execKloop (o : I64) (s : State) : Out :=
  let kd := sub o.vd 0 6
  withTeam s [] [] [(kd, 1)] fun t =>
    let x := kget t kd - 1
    let t := kset t kd x
    if x = 0 then finish s t 8
    else .next (putTeam s s.cur { t with pc := target t.pc o.imm, wait := .none, swept := 0, stopAt := none })

/-- R125: NOP.w. -/
def execNopW (s : State) : Out := withTeam s [] [] [] fun t => finish s t 4

/-- R125: YIELD lets every other ready team of the context issue first (Machine/Issue.lean reads the mark). -/
def execYield (s : State) : Out :=
  withTeam s [] [] [] fun t => finish s { t with yielded := some s.issues } 4

/-- R125: BKPT: with the debug unit attached the team halts and the debugger receives imm (the instruction is passed,
log 19); otherwise cause 0x303. -/
def execBkpt (imm : BitVec 16) (s : State) : Out :=
  withView s [] [] [] fun w =>
    if w.c.attached then
      .next (putTeam s s.cur { w.t with
        pc := w.t.pc + 4, halt := some (0x303, imm.setWidth 32), wait := .none, swept := 0, stopAt := none })
    else .next (raise s 0x303 imm.toNat)

/-- R125: TRAP n, with `%trappc` the address of the next instruction. -/
def execTrap (num : BitVec 6) (s : State) : Out :=
  withTeam s [] [] [] fun t => .next (raiseAt s s.cur (0x340 + num.toNat) 0 (t.pc + 4))

/-- R126: ERET: 0x00F with the flag clear. -/
def execEret (s : State) : Out :=
  withTeam s [] [] [] fun t =>
    if t.handler then .next (putTeam s s.cur (returnFromTrap t)) else .next (raise s 0xF 0)

/-- R23: whether holding these chunks keeps the team's budget. -/
def budgetOk (t : Team) (mask : Nat) : Bool :=
  let e1 := t.e1 || mask.testBit 0
  let e2 := t.e2 || mask.testBit 1
  (e1 || !e2) && decide ((if e1 then 1 else 0) + (if e2 then 1 else 0) ≤ t.budget)

/-- R24: when every resident team of a context is blocked in RACQ, the one that blocked last takes 0x00B. -/
def racqCycle (s : State) (ctx : Nat) : State :=
  match tget s.ctxs ctx with
  | none => s
  | some c =>
    let live := (ctxTeams s c).filter fun x => !x.2.ended
    if live.isEmpty || live.any (fun x => !c.racq.contains x.1) then s
    else match c.racq.getLast? with
      | none => s
      | some id =>
        let s := modCtx (modTeam s id fun t => { t with wait := .none }) ctx fun c => { c with racq := c.racq.dropLast }
        match tget s.teams id with
        | some t => raiseAt s id 0xB 0 t.pc
        | none => s

/-- R127, R128: RACQ and RACQ.try. -/
def execRacq (o : I64) (s : State) : Out :=
  let try_ := o.m.getLsbD 1
  let kd := sub o.vd 0 6
  let mask := o.imm.toNat
  withView s [] [] [] (kd := [(kd, 1)]) fun w =>
    if !budgetOk w.t mask then .next (raise s 9 0)
    else if poolUsed s w.c + chunkNeed w.t mask ≤ poolBytes w.c then
      let t := grantChunks w.t mask
      finish s (if try_ then kset t kd 1 else t) 8
    else if try_ then finish s (kset w.t kd 0) 8
    else
      let s := modCtx (putTeam s s.cur { w.t with wait := .racq mask }) w.b.ctx fun c =>
        { c with racq := c.racq.filter (· ≠ s.cur) ++ [s.cur] }
      .next (racqCycle s w.b.ctx)

/-- R129: the named chunks are returned; returning E1 returns E2. -/
def dropChunks (t : Team) (mask : Nat) : Team :=
  let d1 := mask.testBit 0
  let d2 := mask.testBit 0 || mask.testBit 1
  let gone (n : Nat) := (d1 && decide (64 ≤ n) && decide (n < 96)) || (d2 && decide (96 ≤ n))
  { t with
    v := t.v.filter fun x => !gone (x.1 % 128)
    bad := t.bad.filter fun x => !gone (x % 128)
    e1 := t.e1 && !d1
    e2 := t.e2 && !d2 }

/-- R127, R129: RREL. -/
def execRrel (o : I64) (s : State) : Out :=
  withView s [] [] [] fun w => .next (regrant (complete s s.cur (dropChunks w.t o.imm.toNat) 8) w.b.ctx)

end Sys2Proof.Machine
end

