-- ==== Sys2Proof/Decode.lean ====
section
/-! DEFINITION. Decoding (spec 05): the length of an instruction from its first parcel (R64), its format, major and
index (R69 to R75), rejecting by the cause of R83, and the encoder of the same tables. An instruction is handled as a
number whose bit 0 is bit 0 of its first parcel. -/
namespace Sys2Proof

/-- R83 steps 2, 3 and 4: why a bit pattern is no instruction. -/
inductive Reject where
  /-- 0x000: the major opcode is not assigned. -/
  | major
  /-- 0x001: the minor or index is not assigned. -/
  | minor
  /-- 0x002: a reserved field is nonzero or a field value is illegal. -/
  | field
deriving DecidableEq, Repr

/-- R83: the cause code of a rejection. -/
def Reject.cause : Reject → BitVec 10
  | .major => 0x000
  | .minor => 0x001
  | .field => 0x002

/-- What the decoder makes of one word. CTR.rd, SYS and SLEEP are handed on as their operands: compiled Lean cannot build a
constructor with fields beyond number 243 of an inductive; `Decoded.instr` is the one view of them all. -/
inductive Decoded where
  | ok (i : Instr)
  | ctrRd (o : I64)
  | sys (o : I64)
  | sleep (o : I64)
  | bad (r : Reject)
deriving DecidableEq, Repr

/-- The instruction that was decoded. -/
noncomputable def Decoded.instr : Decoded → Option Instr
  | .ok i => some i
  | .ctrRd o => some (.ctrRd o)
  | .sys o => some (.sys o)
  | .sleep o => some (.sleep o)
  | .bad _ => none

/-- R64: the length of an instruction in bytes, from its first parcel. -/
def lengthOf (parcel : Nat) : Nat := if parcel % 2 = 0 then 2 else if parcel % 4 = 1 then 4 else 8

/-- Sets `x` below the bits of `r`. -/
def pk {n : Nat} (x : BitVec n) (r : Nat) : Nat := x.toNat + 2 ^ n * r

/-- Sets one bit below the bits of `r`. -/
def pkb (b : Bool) (r : Nat) : Nat := (if b then 1 else 0) + 2 * r

@[simp] theorem ofNat_pk {n : Nat} (x : BitVec n) (r : Nat) : BitVec.ofNat n (pk x r) = x := by
  apply BitVec.eq_of_toNat_eq
  simp [pk, BitVec.toNat_ofNat, Nat.add_mul_mod_self_left, Nat.mod_eq_of_lt x.isLt]

@[simp] theorem pk_div {n : Nat} (x : BitVec n) (r : Nat) : pk x r / 2 ^ n = r := by
  rw [pk, Nat.add_mul_div_left _ _ (Nat.two_pow_pos n), Nat.div_eq_of_lt x.isLt, Nat.zero_add]

@[simp] theorem pkb_mod (b : Bool) (r : Nat) : decide (pkb b r % 2 = 1) = b := by
  cases b <;> simp [pkb] <;> omega

@[simp] theorem pkb_div (b : Bool) (r : Nat) : pkb b r / 2 = r := by
  cases b <;> simp [pkb] <;> omega

/-! ### Field readers (R69, R70, R74): `r` holds the bits above the length and major fields. -/

/-- R69: op4 has been taken off; vd, then vs or imm5, then i. -/
def unC16 (r : Nat) : C16 where
  d := BitVec.ofNat 5 r
  s := BitVec.ofNat 5 (r / 2 ^ 5)
  i := decide (r / 2 ^ 5 / 2 ^ 5 % 2 = 1)

def unC16F (r : Nat) : C16F where
  d := BitVec.ofNat 5 r
  s := BitVec.ofNat 5 (r / 2 ^ 5)

def unL3 (r : Nat) : L3 where
  d := BitVec.ofNat 7 r
  a := BitVec.ofNat 7 (r / 2 ^ 7)
  b := BitVec.ofNat 7 (r / 2 ^ 7 / 2 ^ 7)
  g := BitVec.ofNat 3 (r / 2 ^ 7 / 2 ^ 7 / 2 ^ 7)

def unRI (r : Nat) : RI where
  d := BitVec.ofNat 7 r
  a := BitVec.ofNat 7 (r / 2 ^ 7)
  imm := BitVec.ofNat 10 (r / 2 ^ 7 / 2 ^ 7)

def unRK (r : Nat) : RK where
  d := BitVec.ofNat 6 r
  a := BitVec.ofNat 6 (r / 2 ^ 6)
  b := BitVec.ofNat 6 (r / 2 ^ 6 / 2 ^ 6)

def unRKCmp (r : Nat) : RKCmp where
  d := BitVec.ofNat 6 r
  a := BitVec.ofNat 6 (r / 2 ^ 6)
  b := BitVec.ofNat 6 (r / 2 ^ 6 / 2 ^ 6)
  c := BitVec.ofNat 6 (r / 2 ^ 6 / 2 ^ 6 / 2 ^ 6)

def unB (r : Nat) : BraB where
  p := BitVec.ofNat 3 r
  n := decide (r / 2 ^ 3 % 2 = 1)
  off := BitVec.ofNat 20 (r / 2 ^ 3 / 2)

def unM32 (r : Nat) : Mem32 where
  d := BitVec.ofNat 7 r
  a := BitVec.ofNat 7 (r / 2 ^ 7)
  imm := BitVec.ofNat 7 (r / 2 ^ 7 / 2 ^ 7)
  g := BitVec.ofNat 3 (r / 2 ^ 7 / 2 ^ 7 / 2 ^ 7)

/-- R74 A64; the minor `mn` keeps its bits from `k` = 2^(index bits) up (R75). -/
def unA64 (k mn r : Nat) : A64 where
  m := BitVec.ofNat 8 (mn - mn % k)
  vd := BitVec.ofNat 7 r
  va := BitVec.ofNat 7 (r / 2 ^ 7)
  vb := BitVec.ofNat 7 (r / 2 ^ 7 / 2 ^ 7)
  vc := BitVec.ofNat 7 (r / 2 ^ 7 / 2 ^ 7 / 2 ^ 7)
  g := BitVec.ofNat 3 (r / 2 ^ 7 / 2 ^ 7 / 2 ^ 7 / 2 ^ 7)
  n := decide (r / 2 ^ 7 / 2 ^ 7 / 2 ^ 7 / 2 ^ 7 / 2 ^ 3 % 2 = 1)
  pa := BitVec.ofNat 8 (r / 2 ^ 7 / 2 ^ 7 / 2 ^ 7 / 2 ^ 7 / 2 ^ 3 / 2)
  pb := BitVec.ofNat 8 (r / 2 ^ 7 / 2 ^ 7 / 2 ^ 7 / 2 ^ 7 / 2 ^ 3 / 2 / 2 ^ 8)

/-- R74 I64, whose minor has six bits. -/
def unI64 (k mn r : Nat) : I64 where
  m := BitVec.ofNat 6 (mn - mn % k)
  vd := BitVec.ofNat 7 r
  va := BitVec.ofNat 7 (r / 2 ^ 7)
  g := BitVec.ofNat 3 (r / 2 ^ 7 / 2 ^ 7)
  n := decide (r / 2 ^ 7 / 2 ^ 7 / 2 ^ 3 % 2 = 1)
  imm := BitVec.ofNat 32 (r / 2 ^ 7 / 2 ^ 7 / 2 ^ 3 / 2)

def unM64 (k mn r : Nat) : M64 where
  m := BitVec.ofNat 8 (mn - mn % k)
  vd := BitVec.ofNat 7 r
  va := BitVec.ofNat 7 (r / 2 ^ 7)
  vi := BitVec.ofNat 7 (r / 2 ^ 7 / 2 ^ 7)
  g := BitVec.ofNat 3 (r / 2 ^ 7 / 2 ^ 7 / 2 ^ 7)
  n := decide (r / 2 ^ 7 / 2 ^ 7 / 2 ^ 7 / 2 ^ 3 % 2 = 1)
  sc := BitVec.ofNat 3 (r / 2 ^ 7 / 2 ^ 7 / 2 ^ 7 / 2 ^ 3 / 2)
  imm := BitVec.ofNat 20 (r / 2 ^ 7 / 2 ^ 7 / 2 ^ 7 / 2 ^ 3 / 2 / 2 ^ 3)

def unE64 (k mn r : Nat) : E64 where
  m := BitVec.ofNat 8 (mn - mn % k)
  x1 := BitVec.ofNat 4 r
  x2 := BitVec.ofNat 4 (r / 2 ^ 4)
  h := BitVec.ofNat 3 (r / 2 ^ 4 / 2 ^ 4)
  fa := BitVec.ofNat 5 (r / 2 ^ 4 / 2 ^ 4 / 2 ^ 3)
  fb := BitVec.ofNat 5 (r / 2 ^ 4 / 2 ^ 4 / 2 ^ 3 / 2 ^ 5)
  sh := BitVec.ofNat 5 (r / 2 ^ 4 / 2 ^ 4 / 2 ^ 3 / 2 ^ 5 / 2 ^ 5)
  kp := BitVec.ofNat 6 (r / 2 ^ 4 / 2 ^ 4 / 2 ^ 3 / 2 ^ 5 / 2 ^ 5 / 2 ^ 5)
  kq := BitVec.ofNat 6 (r / 2 ^ 4 / 2 ^ 4 / 2 ^ 3 / 2 ^ 5 / 2 ^ 5 / 2 ^ 5 / 2 ^ 6)
  tb := BitVec.ofNat 6 (r / 2 ^ 4 / 2 ^ 4 / 2 ^ 3 / 2 ^ 5 / 2 ^ 5 / 2 ^ 5 / 2 ^ 6 / 2 ^ 6)
  fl := BitVec.ofNat 4 (r / 2 ^ 4 / 2 ^ 4 / 2 ^ 3 / 2 ^ 5 / 2 ^ 5 / 2 ^ 5 / 2 ^ 6 / 2 ^ 6 / 2 ^ 6)

def unJ64 (r : Nat) : J64 where
  c0 := BitVec.ofNat 4 r
  c1 := BitVec.ofNat 4 (r / 2 ^ 4)
  c2 := BitVec.ofNat 4 (r / 2 ^ 4 / 2 ^ 4)
  c3 := BitVec.ofNat 4 (r / 2 ^ 4 / 2 ^ 4 / 2 ^ 4)
  o0 := BitVec.ofNat 10 (r / 2 ^ 4 / 2 ^ 4 / 2 ^ 4 / 2 ^ 4)
  o1 := BitVec.ofNat 10 (r / 2 ^ 4 / 2 ^ 4 / 2 ^ 4 / 2 ^ 4 / 2 ^ 10)
  o2 := BitVec.ofNat 10 (r / 2 ^ 4 / 2 ^ 4 / 2 ^ 4 / 2 ^ 4 / 2 ^ 10 / 2 ^ 10)
  o3 := BitVec.ofNat 10 (r / 2 ^ 4 / 2 ^ 4 / 2 ^ 4 / 2 ^ 4 / 2 ^ 10 / 2 ^ 10 / 2 ^ 10)

/-- An instruction, if the condition on its reserved fields holds. -/
def okIf (c : Bool) (i : Instr) : Decoded := if c then .ok i else .bad .field

/-- R69: the 16-bit format; `r` holds the bits above op4. -/
def decode16 (w : Nat) : Decoded :=
  let r := w / 32
  let i := decide (r / 1024 % 2 = 1)
  match w / 2 % 16 with
  | 0 => .ok (.movC16 (unC16 r))
  | 1 => .ok (.iaddC16 (unC16 r))
  | 2 => .ok (.isubC16 (unC16 r))
  | 3 => .ok (.imulC16 (unC16 r))
  | 4 => .ok (.iandC16 (unC16 r))
  | 5 => .ok (.iorC16 (unC16 r))
  | 6 => .ok (.ixorC16 (unC16 r))
  | 7 => .ok (.ishlC16 (unC16 r))
  | 8 => .ok (.ishrC16 (unC16 r))
  | 9 => .ok (.isarC16 (unC16 r))
  | 10 => .ok (.iminC16 (unC16 r))
  | 11 => .ok (.imaxC16 (unC16 r))
  | 12 => okIf (!i) (.faddC16 (unC16F r))
  | 13 => okIf (!i) (.fsubC16 (unC16F r))
  | 14 => okIf (!i) (.fmulC16 (unC16F r))
  | _ => okIf (!i) (.fmaxC16 (unC16F r))

/-- R71, R72: major 0x2A, by its minor. -/
def decodeX (mn imm : Nat) : Decoded :=
  match mn with
  | 0 => okIf (decide (imm = 0)) .nopW
  | 1 => okIf (decide (imm = 0)) .exit
  | 2 => okIf (decide (imm = 0)) .join
  | 3 => okIf (decide (imm = 0)) .ret
  | 4 => okIf (decide (imm = 0)) .yield
  | 5 => .ok (.bkpt (BitVec.ofNat 16 imm))
  | 6 => okIf (decide (imm < 64)) (.trap (BitVec.ofNat 6 imm))
  | 7 => okIf (decide (imm = 0)) .eret
  | _ => .bad .minor

/-- R73: major 0x18. -/
def decodeUni (r : Nat) : Decoded :=
  match r / 2 ^ 18 % 64 with
  | 0 => okIf (decide (r / 2 ^ 12 % 64 = 0)) (.kmov ⟨BitVec.ofNat 6 (r / 2 ^ 6), BitVec.ofNat 6 r⟩)
  | 1 => .ok (.kadd (unRK r))
  | 2 => .ok (.ksub (unRK r))
  | 3 => .ok (.kmul (unRK r))
  | 4 => .ok (.kand (unRK r))
  | 5 => .ok (.kor (unRK r))
  | 6 => .ok (.kxor (unRK r))
  | 7 => .ok (.kshl (unRK r))
  | 8 => .ok (.kshr (unRK r))
  | 9 => .ok (.ksar (unRK r))
  | 10 => .ok (.kmin (unRK r))
  | 11 => .ok (.kmax (unRK r))
  | 12 => .ok (.kminN (unRK r))
  | 13 => .ok (.kmaxN (unRK r))
  | _ => .bad .minor

/-- R71: the 32-bit majors. -/
def decode32 (w : Nat) : Decoded :=
  let r := w / 256
  match w / 4 % 64 with
  | 0x01 => .ok (.iaddL3 (unL3 r))
  | 0x02 => .ok (.isubL3 (unL3 r))
  | 0x03 => .ok (.imulL3 (unL3 r))
  | 0x04 => .ok (.imulhL3 (unL3 r))
  | 0x05 => .ok (.iandL3 (unL3 r))
  | 0x06 => .ok (.iorL3 (unL3 r))
  | 0x07 => .ok (.ixorL3 (unL3 r))
  | 0x08 => .ok (.ishlL3 (unL3 r))
  | 0x09 => .ok (.ishrL3 (unL3 r))
  | 0x0A => .ok (.isarL3 (unL3 r))
  | 0x0B => .ok (.iminL3 (unL3 r))
  | 0x0C => .ok (.imaxL3 (unL3 r))
  | 0x0D => .ok (.faddL3 (unL3 r))
  | 0x0E => .ok (.fsubL3 (unL3 r))
  | 0x0F => .ok (.fmulL3 (unL3 r))
  | 0x10 => .ok (.iaddRi (unRI r))
  | 0x11 => .ok (.iandRi (unRI r))
  | 0x12 => .ok (.iorRi (unRI r))
  | 0x13 => .ok (.ixorRi (unRI r))
  | 0x14 => .ok (.ishlRi (unRI r))
  | 0x15 => .ok (.ishrRi (unRI r))
  | 0x16 => .ok (.isarRi (unRI r))
  | 0x17 => okIf (decide (r / 2 ^ 7 % 128 = 0)) (.movRi ⟨BitVec.ofNat 10 (r / 2 ^ 14), BitVec.ofNat 7 r⟩)
  | 0x20 => .ok (.ldBM (unM32 r))
  | 0x21 => .ok (.ldHM (unM32 r))
  | 0x22 => .ok (.ldWM (unM32 r))
  | 0x23 => .ok (.ldDM (unM32 r))
  | 0x24 => .ok (.ldQM (unM32 r))
  | 0x25 => .ok (.stBM (unM32 r))
  | 0x26 => .ok (.stHM (unM32 r))
  | 0x27 => .ok (.stWM (unM32 r))
  | 0x28 => .ok (.stDM (unM32 r))
  | 0x29 => .ok (.stQM (unM32 r))
  | 0x18 => decodeUni r
  | 0x19 => if r / 2 ^ 18 % 64 ≤ 9 then .ok (.kcmp (unRKCmp r)) else .bad .minor
  | 0x1C => .ok (.bra (unB r))
  | 0x1D => okIf (decide (r % 16 = 0)) (.call ⟨BitVec.ofNat 20 (r / 16)⟩)
  | 0x1E => okIf (decide (r % 16 = 0)) (.div ⟨BitVec.ofNat 20 (r / 16)⟩)
  | 0x2A => decodeX (r % 256) (r / 256 % 65536)
  | _ => .bad .major

/-- R75: major 0x01. -/
def decode64_01 (mn r : Nat) : Decoded :=
  match mn % 32 with
  | 0 => .ok (.iadd (unA64 32 mn r))
  | 1 => .ok (.isub (unA64 32 mn r))
  | 2 => .ok (.imul (unA64 32 mn r))
  | 3 => .ok (.imulh (unA64 32 mn r))
  | 4 => .ok (.imad (unA64 32 mn r))
  | 5 => .ok (.imin (unA64 32 mn r))
  | 6 => .ok (.imax (unA64 32 mn r))
  | 7 => .ok (.iabs (unA64 32 mn r))
  | 8 => .ok (.iand (unA64 32 mn r))
  | 9 => .ok (.ior (unA64 32 mn r))
  | 10 => .ok (.ixor (unA64 32 mn r))
  | 11 => .ok (.ishl (unA64 32 mn r))
  | 12 => .ok (.ishr (unA64 32 mn r))
  | 13 => .ok (.isar (unA64 32 mn r))
  | 14 => .ok (.irot (unA64 32 mn r))
  | 15 => .ok (.ipopc (unA64 32 mn r))
  | 16 => .ok (.iclz (unA64 32 mn r))
  | 17 => .ok (.ibrev (unA64 32 mn r))
  | 18 => .ok (.ibfx (unA64 32 mn r))
  | 19 => .ok (.ibfi (unA64 32 mn r))
  | 20 => .ok (.isel (unA64 32 mn r))
  | 21 => .ok (.icmp (unA64 32 mn r))
  | 22 => .ok (.mov (unA64 32 mn r))
  | _ => .bad .minor

/-- R75: major 0x02. -/
def decode64_02 (mn r : Nat) : Decoded :=
  match mn % 16 with
  | 0 => .ok (.fadd (unA64 16 mn r))
  | 1 => .ok (.fsub (unA64 16 mn r))
  | 2 => .ok (.fmul (unA64 16 mn r))
  | 3 => .ok (.ffma (unA64 16 mn r))
  | 4 => .ok (.fmin (unA64 16 mn r))
  | 5 => .ok (.fmax (unA64 16 mn r))
  | 6 => .ok (.fcmp (unA64 16 mn r))
  | 7 => .ok (.frcp (unA64 16 mn r))
  | 8 => .ok (.frsq (unA64 16 mn r))
  | 9 => .ok (.fexp2 (unA64 16 mn r))
  | 10 => .ok (.flog2 (unA64 16 mn r))
  | 11 => .ok (.fclass (unA64 16 mn r))
  | _ => .bad .minor

/-- R75: major 0x03. -/
def decode64_03 (mn r : Nat) : Decoded :=
  match mn % 4 with
  | 0 => .ok (.fcvt (unA64 4 mn r))
  | 1 => .ok (.i2f (unA64 4 mn r))
  | 2 => .ok (.f2i (unA64 4 mn r))
  | _ => .ok (.frnd (unA64 4 mn r))

/-- R75: major 0x04. -/
def decode64_04 (mn r : Nat) : Decoded :=
  match mn % 4 with
  | 0 => .ok (.shfl (unA64 4 mn r))
  | 1 => match mn / 4 % 4 with
    | 0 => .ok (.voteAny (unA64 16 mn r))
    | 1 => .ok (.voteAll (unA64 16 mn r))
    | 2 => .ok (.voteBallot (unA64 16 mn r))
    | _ => .ok (.voteFfs (unA64 16 mn r))
  | 2 => .ok (.redux (unA64 4 mn r))
  | _ => .ok (.scan (unA64 4 mn r))

/-- R75: major 0x05. -/
def decode64_05 (mn r : Nat) : Decoded :=
  match mn % 4 with
  | 0 => .ok (.padd (unA64 4 mn r))
  | 1 => .ok (.pmake (unA64 4 mn r))
  | 2 => .ok (.pgoid (unA64 4 mn r))
  | _ => .ok (.poff (unA64 4 mn r))

/-- R75: major 0x06. -/
def decode64_06 (mn r : Nat) : Decoded :=
  match mn % 4 with
  | 0 => .ok (.plop (unA64 4 mn r))
  | 1 => match mn / 4 % 2 with
    | 0 => .ok (.pmovGet (unA64 8 mn r))
    | _ => .ok (.pmovSet (unA64 8 mn r))
  | 2 => .ok (.k2v (unA64 4 mn r))
  | _ => .ok (.v2k (unA64 4 mn r))

/-- R75: major 0x08. -/
def decode64_08 (mn r : Nat) : Decoded :=
  match mn % 32 with
  | 0 => .ok (.iaddImm (unI64 32 mn r))
  | 2 => .ok (.imulImm (unI64 32 mn r))
  | 5 => .ok (.iminImm (unI64 32 mn r))
  | 6 => .ok (.imaxImm (unI64 32 mn r))
  | 8 => .ok (.iandImm (unI64 32 mn r))
  | 9 => .ok (.iorImm (unI64 32 mn r))
  | 10 => .ok (.ixorImm (unI64 32 mn r))
  | 11 => .ok (.ishlImm (unI64 32 mn r))
  | 12 => .ok (.ishrImm (unI64 32 mn r))
  | 13 => .ok (.isarImm (unI64 32 mn r))
  | 14 => .ok (.irotImm (unI64 32 mn r))
  | 21 => .ok (.icmpImm (unI64 32 mn r))
  | 22 => .ok (.movImm (unI64 32 mn r))
  | _ => .bad .minor

/-- R75: major 0x09. -/
def decode64_09 (mn r : Nat) : Decoded :=
  match mn % 16 with
  | 0 => .ok (.faddImm (unI64 16 mn r))
  | 1 => .ok (.fsubImm (unI64 16 mn r))
  | 2 => .ok (.fmulImm (unI64 16 mn r))
  | 4 => .ok (.fminImm (unI64 16 mn r))
  | 5 => .ok (.fmaxImm (unI64 16 mn r))
  | 6 => .ok (.fcmpImm (unI64 16 mn r))
  | _ => .bad .minor

/-- R75: major 0x0A. -/
def decode64_0A (mn r : Nat) : Decoded :=
  match mn % 64 with
  | 0 => .ok (.kmovImm (unI64 64 mn r))
  | 1 => .ok (.kaddImm (unI64 64 mn r))
  | 2 => .ok (.ksubImm (unI64 64 mn r))
  | 3 => .ok (.kmulImm (unI64 64 mn r))
  | 4 => .ok (.kandImm (unI64 64 mn r))
  | 5 => .ok (.korImm (unI64 64 mn r))
  | 6 => .ok (.kxorImm (unI64 64 mn r))
  | 7 => .ok (.kshlImm (unI64 64 mn r))
  | 8 => .ok (.kshrImm (unI64 64 mn r))
  | 9 => .ok (.ksarImm (unI64 64 mn r))
  | 10 => .ok (.kminImm (unI64 64 mn r))
  | 11 => .ok (.kmaxImm (unI64 64 mn r))
  | 12 => .ok (.kminNImm (unI64 64 mn r))
  | 13 => .ok (.kmaxNImm (unI64 64 mn r))
  | n => if 16 ≤ n ∧ n ≤ 25 then .ok (.kcmpImm (unI64 1 mn r)) else .bad .minor

/-- R75: major 0x0B. -/
def decode64_0B (mn r : Nat) : Decoded :=
  match mn % 4 with
  | 0 => .ok (.srd (unI64 4 mn r))
  | 1 => .ok (.swr (unI64 4 mn r))
  | 2 => .ok (.kloop (unI64 4 mn r))
  | _ => .bad .minor

/-- R75: major 0x12. -/
def decode64_12 (mn r : Nat) : Decoded :=
  match mn % 16 with
  | 0 => .ok (.atomAdd (unM64 16 mn r))
  | 1 => .ok (.atomAddCmb (unM64 16 mn r))
  | 2 => .ok (.atomAddNoc (unM64 16 mn r))
  | 3 => .ok (.atomAddCmbNoc (unM64 16 mn r))
  | 4 => .ok (.atomMin (unM64 16 mn r))
  | 5 => .ok (.atomMax (unM64 16 mn r))
  | 6 => .ok (.atomMinN (unM64 16 mn r))
  | 7 => .ok (.atomMaxN (unM64 16 mn r))
  | 8 => .ok (.atomAnd (unM64 16 mn r))
  | 9 => .ok (.atomOr (unM64 16 mn r))
  | 10 => .ok (.atomXor (unM64 16 mn r))
  | 11 => .ok (.atomExch (unM64 16 mn r))
  | 12 => .ok (.atomCas (unM64 16 mn r))
  | 13 => .ok (.atomFadd (unM64 16 mn r))
  | _ => .bad .minor

/-- R75: major 0x13. -/
def decode64_13 (mn r : Nat) : Decoded :=
  match mn % 16 with
  | 0 => .ok (.redAdd (unM64 16 mn r))
  | 1 => .ok (.redAddNoc (unM64 16 mn r))
  | 2 => .ok (.redMin (unM64 16 mn r))
  | 3 => .ok (.redMax (unM64 16 mn r))
  | 4 => .ok (.redMinN (unM64 16 mn r))
  | 5 => .ok (.redMaxN (unM64 16 mn r))
  | 6 => .ok (.redAnd (unM64 16 mn r))
  | 7 => .ok (.redOr (unM64 16 mn r))
  | 8 => .ok (.redXor (unM64 16 mn r))
  | _ => .bad .minor

/-- R75: major 0x14. -/
def decode64_14 (mn r : Nat) : Decoded :=
  match mn % 4 with
  | 0 => .ok (.waita (unM64 4 mn r))
  | 1 => match mn / 4 % 4 with
    | 0 => .ok (.fenceAcq (unM64 16 mn r))
    | 1 => .ok (.fenceRel (unM64 16 mn r))
    | 2 => .ok (.fenceAr (unM64 16 mn r))
    | _ => okIf (decide (mn / 16 = 0) && decide (r = 0)) .fenceRec
  | 2 => .ok (.stMc (unM64 4 mn r))
  | _ => .bad .minor

/-- R75: major 0x15. -/
def decode64_15 (mn r : Nat) : Decoded :=
  match mn % 2 with
  | 0 => .ok (.kld (unM64 2 mn r))
  | _ => .ok (.kst (unM64 2 mn r))

/-- R75: major 0x18. -/
def decode64_18 (mn r : Nat) : Decoded :=
  match mn % 8 with
  | 0 => .ok (.barArv (unA64 8 mn r))
  | 1 => .ok (.barWait (unA64 8 mn r))
  | 2 => .ok (.barSync (unA64 8 mn r))
  | 3 => .ok (.barExp (unA64 8 mn r))
  | 4 => .ok (.barTest (unA64 8 mn r))
  | _ => .bad .minor

/-- R75: major 0x19. -/
def decode64_19 (mn r : Nat) : Decoded :=
  match mn % 8 with
  | 0 => .ok (.tagWait (unI64 8 mn r))
  | 1 => .ok (.tagFfs (unI64 8 mn r))
  | 2 => .ok (.tagClr (unI64 8 mn r))
  | 3 => .ok (.tlWait (unI64 8 mn r))
  | 4 => .ok (.tlRd (unI64 8 mn r))
  | _ => .bad .minor

/-- R75: major 0x1A. -/
def decode64_1A (mn r : Nat) : Decoded :=
  match mn % 2 with
  | 0 => .ok (.racq (unI64 2 mn r))
  | _ => .ok (.rrel (unI64 2 mn r))

/-- R75: major 0x20. -/
def decode64_20 (mn r : Nat) : Decoded :=
  match mn % 16 with
  | 0 => .ok (.mlds (unE64 16 mn r))
  | 1 => okIf (decide (mn / 16 = 0) && decide (r = 0)) .mswp
  | 2 => .ok (.mma (unE64 16 mn r))
  | 3 => .ok (.mloop (unE64 16 mn r))
  | 4 => .ok (.mzero (unE64 16 mn r))
  | 5 => .ok (.mrel (unE64 16 mn r))
  | 6 => .ok (.mrd (unE64 16 mn r))
  | 7 => .ok (.mqnt (unE64 16 mn r))
  | 8 => .ok (.mscac (unE64 16 mn r))
  | 9 => .ok (.mcbl (unE64 16 mn r))
  | 10 => match mn / 16 % 2 with
    | 0 => .ok (.mhndGet (unE64 32 mn r))
    | _ => .ok (.mhndSet (unE64 32 mn r))
  | _ => .bad .minor

/-- R75: major 0x21. -/
def decode64_21 (mn r : Nat) : Decoded :=
  match mn % 4 with
  | 0 => .ok (.cpy (unE64 4 mn r))
  | 1 => .ok (.gath (unE64 4 mn r))
  | 2 => .ok (.scat (unE64 4 mn r))
  | _ => .bad .minor

/-- R75: major 0x22. -/
def decode64_22 (mn r : Nat) : Decoded :=
  match mn % 4 with
  | 0 => .ok (.xld (unE64 4 mn r))
  | 1 => .ok (.xadd (unE64 4 mn r))
  | 2 => .ok (.xset (unE64 4 mn r))
  | _ => .ok (.xqry (unE64 4 mn r))

/-- R75: major 0x23. -/
def decode64_23 (mn r : Nat) : Decoded :=
  match mn % 2 with
  | 0 => match mn / 2 % 8 with
    | 0 => .ok (.collAllReduce (unE64 16 mn r))
    | 1 => .ok (.collReduceScatter (unE64 16 mn r))
    | 2 => .ok (.collAllGather (unE64 16 mn r))
    | 3 => .ok (.collAllToAll (unE64 16 mn r))
    | 4 => .ok (.collBroadcast (unE64 16 mn r))
    | _ => .bad .field
  | _ => .ok (.grpq (unE64 2 mn r))

/-- R75: major 0x24. -/
def decode64_24 (mn r : Nat) : Decoded :=
  match mn % 16 with
  | 0 => .ok (.oqry (unI64 16 mn r))
  | 1 => .ok (.ohint (unI64 16 mn r))
  | 2 => .ok (.opin (unI64 16 mn r))
  | 3 => .ok (.ounpin (unI64 16 mn r))
  | 4 => .ok (.oalloc (unI64 16 mn r))
  | 5 => .ok (.ofree (unI64 16 mn r))
  | 6 => .ok (.oext (unI64 16 mn r))
  | 7 => .ok (.otrim (unI64 16 mn r))
  | 8 => .ok (.ogrp (unI64 16 mn r))
  | _ => .bad .minor

/-- R75: major 0x25. -/
def decode64_25 (mn r : Nat) : Decoded :=
  match mn % 8 with
  | 0 => .ok (.shpRd (unI64 8 mn r))
  | 1 => .ok (.shpWait (unI64 8 mn r))
  | 2 => .ok (.shpPub (unI64 8 mn r))
  | 3 => .ok (.launch (unI64 8 mn r))
  | 4 => .ok (.cancel (unI64 8 mn r))
  | 5 => .ctrRd (unI64 8 mn r)
  | _ => .bad .minor

/-- R75: major 0x26. -/
def decode64_26 (mn r : Nat) : Decoded :=
  match mn % 2 with
  | 0 => .sys (unI64 2 mn r)
  | _ => .sleep (unI64 2 mn r)

/-- R75: the 64-bit majors; `mn` is the minor field, `r` the bits above it. -/
def decode64 (w : Nat) : Decoded :=
  let m8 := w / 256 % 256
  let r8 := w / 65536
  let m6 := w / 256 % 64
  let r6 := w / 16384
  match w / 4 % 64 with
  | 0x01 => decode64_01 m8 r8
  | 0x02 => decode64_02 m8 r8
  | 0x03 => decode64_03 m8 r8
  | 0x04 => decode64_04 m8 r8
  | 0x05 => decode64_05 m8 r8
  | 0x06 => decode64_06 m8 r8
  | 0x08 => decode64_08 m6 r6
  | 0x09 => decode64_09 m6 r6
  | 0x0A => decode64_0A m6 r6
  | 0x0B => decode64_0B m6 r6
  | 0x10 => .ok (.ld (unM64 1 m8 r8))
  | 0x11 => .ok (.st (unM64 1 m8 r8))
  | 0x12 => decode64_12 m8 r8
  | 0x13 => decode64_13 m8 r8
  | 0x14 => decode64_14 m8 r8
  | 0x15 => decode64_15 m8 r8
  | 0x18 => decode64_18 m8 r8
  | 0x19 => decode64_19 m6 r6
  | 0x1A => decode64_1A m6 r6
  | 0x1C => .ok (.brm (unJ64 (w / 256)))
  | 0x20 => decode64_20 m8 r8
  | 0x21 => decode64_21 m8 r8
  | 0x22 => decode64_22 m8 r8
  | 0x23 => decode64_23 m8 r8
  | 0x24 => decode64_24 m6 r6
  | 0x25 => decode64_25 m6 r6
  | 0x26 => decode64_26 m6 r6
  | _ => .bad .major

/-- R83 steps 2 to 4, in order: the instruction whose bits are `w`, or why there is none. -/
def decodeWord (w : Nat) : Decoded :=
  let d := if w % 2 = 0 then decode16 w else if w % 4 = 1 then decode32 w else decode64 w
  match d with
  | .ok i => if i.legal then .ok i else .bad .field
  | .ctrRd o => if legalCtr o then .ctrRd o else .bad .field
  | .sys o => if legalSys o then .sys o else .bad .field
  | .sleep o => if legalSleep o then .sleep o else .bad .field
  | .bad r => .bad r

/-- The little-endian value of bytes, the first the least (R4). -/
def leNat : List Byte → Nat
  | [] => 0
  | b :: bs => b.toNat + 256 * leNat bs

/-- The first `n` bytes of a number, least first. -/
def leBytes : Nat → Nat → List Byte
  | 0, _ => []
  | n + 1, w => BitVec.ofNat 8 w :: leBytes n (w / 256)

/-- Decodes the bytes at the front of a list: the first parcel gives the length (R64). None when bytes are missing. -/
def decodeBytes (bs : List Byte) : Option (Decoded × Nat) :=
  match bs with
  | b0 :: b1 :: _ =>
    let n := lengthOf (leNat [b0, b1])
    if bs.length < n then none else some (decodeWord (leNat (bs.take n)), n)
  | _ => none

/-- The instruction this decoder reads from an instruction whose bits are `w`, as spec/opcode_table.json numbers them. -/
noncomputable def decodeTableWord (nbits w : Nat) : Option Instr :=
  match decodeBytes (leBytes 8 (w % 2 ^ nbits)) with
  | some (d, _) => d.instr
  | none => none

/-! ### The encoder -/

def enC16 (op : Nat) (o : C16) : Nat := 2 * (op + 16 * pk o.d (pk o.s (pkb o.i 0)))
def enC16F (op : Nat) (o : C16F) : Nat := 2 * (op + 16 * pk o.d (pk o.s 0))
/-- R70: a 32-bit word of a major and the bits above it. -/
def en32 (maj r : Nat) : Nat := 1 + 4 * (maj + 64 * r)
def enL3 (maj : Nat) (o : L3) : Nat := en32 maj (pk o.d (pk o.a (pk o.b (pk o.g 0))))
def enRI (maj : Nat) (o : RI) : Nat := en32 maj (pk o.d (pk o.a (pk o.imm 0)))
def enRK (mn : Nat) (o : RK) : Nat := en32 0x18 (pk o.d (pk o.a (pk o.b (pk (BitVec.ofNat 6 mn) 0))))
def enB (maj : Nat) (o : BraB) : Nat := en32 maj (pk o.p (pkb o.n (pk o.off 0)))
def enM32 (maj : Nat) (o : Mem32) : Nat := en32 maj (pk o.d (pk o.a (pk o.imm (pk o.g 0))))
def enX (mn imm : Nat) : Nat := en32 0x2A (mn + 256 * imm)
/-- R74: a 64-bit word of a major, the index bits and the payload's minor, and the bits above. -/
def en64 (maj ix m k r : Nat) : Nat := 3 + 4 * (maj + 64 * (ix + m + k * r))
def enA64 (maj ix : Nat) (o : A64) : Nat :=
  en64 maj ix o.m.toNat 256 (pk o.vd (pk o.va (pk o.vb (pk o.vc (pk o.g (pkb o.n (pk o.pa (pk o.pb 0))))))))
def enI64 (maj ix : Nat) (o : I64) : Nat :=
  en64 maj ix o.m.toNat 64 (pk o.vd (pk o.va (pk o.g (pkb o.n (pk o.imm 0)))))
def enM64 (maj ix : Nat) (o : M64) : Nat :=
  en64 maj ix o.m.toNat 256 (pk o.vd (pk o.va (pk o.vi (pk o.g (pkb o.n (pk o.sc (pk o.imm 0)))))))
def enE64 (maj ix : Nat) (o : E64) : Nat :=
  en64 maj ix o.m.toNat 256
    (pk o.x1 (pk o.x2 (pk o.h (pk o.fa (pk o.fb (pk o.sh (pk o.kp (pk o.kq (pk o.tb (pk o.fl 0))))))))))
def enJ64 (o : J64) : Nat :=
  3 + 4 * (0x1C + 64 * pk o.c0 (pk o.c1 (pk o.c2 (pk o.c3 (pk o.o0 (pk o.o1 (pk o.o2 (pk o.o3 0))))))))

/-- The bits of an instruction, from the encoding tables of R69 to R82; an event has none. -/
def encode : Instr → Option Nat
  | .movC16 o => some (enC16 0 o)
  | .iaddC16 o => some (enC16 1 o)
  | .isubC16 o => some (enC16 2 o)
  | .imulC16 o => some (enC16 3 o)
  | .iandC16 o => some (enC16 4 o)
  | .iorC16 o => some (enC16 5 o)
  | .ixorC16 o => some (enC16 6 o)
  | .ishlC16 o => some (enC16 7 o)
  | .ishrC16 o => some (enC16 8 o)
  | .isarC16 o => some (enC16 9 o)
  | .iminC16 o => some (enC16 10 o)
  | .imaxC16 o => some (enC16 11 o)
  | .faddC16 o => some (enC16F 12 o)
  | .fsubC16 o => some (enC16F 13 o)
  | .fmulC16 o => some (enC16F 14 o)
  | .fmaxC16 o => some (enC16F 15 o)
  | .iaddL3 o => some (enL3 0x01 o)
  | .isubL3 o => some (enL3 0x02 o)
  | .imulL3 o => some (enL3 0x03 o)
  | .imulhL3 o => some (enL3 0x04 o)
  | .iandL3 o => some (enL3 0x05 o)
  | .iorL3 o => some (enL3 0x06 o)
  | .ixorL3 o => some (enL3 0x07 o)
  | .ishlL3 o => some (enL3 0x08 o)
  | .ishrL3 o => some (enL3 0x09 o)
  | .isarL3 o => some (enL3 0x0A o)
  | .iminL3 o => some (enL3 0x0B o)
  | .imaxL3 o => some (enL3 0x0C o)
  | .faddL3 o => some (enL3 0x0D o)
  | .fsubL3 o => some (enL3 0x0E o)
  | .fmulL3 o => some (enL3 0x0F o)
  | .iaddRi o => some (enRI 0x10 o)
  | .iandRi o => some (enRI 0x11 o)
  | .iorRi o => some (enRI 0x12 o)
  | .ixorRi o => some (enRI 0x13 o)
  | .ishlRi o => some (enRI 0x14 o)
  | .ishrRi o => some (enRI 0x15 o)
  | .isarRi o => some (enRI 0x16 o)
  | .movRi o => some (en32 0x17 (pk o.d (pk (0 : BitVec 7) (pk o.imm 0))))
  | .kmov o => some (enRK 0 ⟨0, o.a, o.d⟩)
  | .kadd o => some (enRK 1 o)
  | .ksub o => some (enRK 2 o)
  | .kmul o => some (enRK 3 o)
  | .kand o => some (enRK 4 o)
  | .kor o => some (enRK 5 o)
  | .kxor o => some (enRK 6 o)
  | .kshl o => some (enRK 7 o)
  | .kshr o => some (enRK 8 o)
  | .ksar o => some (enRK 9 o)
  | .kmin o => some (enRK 10 o)
  | .kmax o => some (enRK 11 o)
  | .kminN o => some (enRK 12 o)
  | .kmaxN o => some (enRK 13 o)
  | .kcmp o => some (en32 0x19 (pk o.d (pk o.a (pk o.b (pk o.c 0)))))
  | .bra o => some (enB 0x1C o)
  | .call o => some (en32 0x1D (16 * pk o.off 0))
  | .div o => some (en32 0x1E (16 * pk o.off 0))
  | .ldBM o => some (enM32 0x20 o)
  | .ldHM o => some (enM32 0x21 o)
  | .ldWM o => some (enM32 0x22 o)
  | .ldDM o => some (enM32 0x23 o)
  | .ldQM o => some (enM32 0x24 o)
  | .stBM o => some (enM32 0x25 o)
  | .stHM o => some (enM32 0x26 o)
  | .stWM o => some (enM32 0x27 o)
  | .stDM o => some (enM32 0x28 o)
  | .stQM o => some (enM32 0x29 o)
  | .bkpt o => some (enX 5 o.toNat)
  | .trap o => some (enX 6 o.toNat)
  | .iadd o => some (enA64 0x01 0 o)
  | .isub o => some (enA64 0x01 1 o)
  | .imul o => some (enA64 0x01 2 o)
  | .imulh o => some (enA64 0x01 3 o)
  | .imad o => some (enA64 0x01 4 o)
  | .imin o => some (enA64 0x01 5 o)
  | .imax o => some (enA64 0x01 6 o)
  | .iabs o => some (enA64 0x01 7 o)
  | .iand o => some (enA64 0x01 8 o)
  | .ior o => some (enA64 0x01 9 o)
  | .ixor o => some (enA64 0x01 10 o)
  | .ishl o => some (enA64 0x01 11 o)
  | .ishr o => some (enA64 0x01 12 o)
  | .isar o => some (enA64 0x01 13 o)
  | .irot o => some (enA64 0x01 14 o)
  | .ipopc o => some (enA64 0x01 15 o)
  | .iclz o => some (enA64 0x01 16 o)
  | .ibrev o => some (enA64 0x01 17 o)
  | .ibfx o => some (enA64 0x01 18 o)
  | .ibfi o => some (enA64 0x01 19 o)
  | .isel o => some (enA64 0x01 20 o)
  | .icmp o => some (enA64 0x01 21 o)
  | .mov o => some (enA64 0x01 22 o)
  | .fadd o => some (enA64 0x02 0 o)
  | .fsub o => some (enA64 0x02 1 o)
  | .fmul o => some (enA64 0x02 2 o)
  | .ffma o => some (enA64 0x02 3 o)
  | .fmin o => some (enA64 0x02 4 o)
  | .fmax o => some (enA64 0x02 5 o)
  | .fcmp o => some (enA64 0x02 6 o)
  | .frcp o => some (enA64 0x02 7 o)
  | .frsq o => some (enA64 0x02 8 o)
  | .fexp2 o => some (enA64 0x02 9 o)
  | .flog2 o => some (enA64 0x02 10 o)
  | .fclass o => some (enA64 0x02 11 o)
  | .fcvt o => some (enA64 0x03 0 o)
  | .i2f o => some (enA64 0x03 1 o)
  | .f2i o => some (enA64 0x03 2 o)
  | .frnd o => some (enA64 0x03 3 o)
  | .shfl o => some (enA64 0x04 0 o)
  | .voteAny o => some (enA64 0x04 1 o)
  | .voteAll o => some (enA64 0x04 5 o)
  | .voteBallot o => some (enA64 0x04 9 o)
  | .voteFfs o => some (enA64 0x04 13 o)
  | .redux o => some (enA64 0x04 2 o)
  | .scan o => some (enA64 0x04 3 o)
  | .padd o => some (enA64 0x05 0 o)
  | .pmake o => some (enA64 0x05 1 o)
  | .pgoid o => some (enA64 0x05 2 o)
  | .poff o => some (enA64 0x05 3 o)
  | .plop o => some (enA64 0x06 0 o)
  | .pmovGet o => some (enA64 0x06 1 o)
  | .pmovSet o => some (enA64 0x06 5 o)
  | .k2v o => some (enA64 0x06 2 o)
  | .v2k o => some (enA64 0x06 3 o)
  | .iaddImm o => some (enI64 0x08 0 o)
  | .imulImm o => some (enI64 0x08 2 o)
  | .iminImm o => some (enI64 0x08 5 o)
  | .imaxImm o => some (enI64 0x08 6 o)
  | .iandImm o => some (enI64 0x08 8 o)
  | .iorImm o => some (enI64 0x08 9 o)
  | .ixorImm o => some (enI64 0x08 10 o)
  | .ishlImm o => some (enI64 0x08 11 o)
  | .ishrImm o => some (enI64 0x08 12 o)
  | .isarImm o => some (enI64 0x08 13 o)
  | .irotImm o => some (enI64 0x08 14 o)
  | .icmpImm o => some (enI64 0x08 21 o)
  | .movImm o => some (enI64 0x08 22 o)
  | .faddImm o => some (enI64 0x09 0 o)
  | .fsubImm o => some (enI64 0x09 1 o)
  | .fmulImm o => some (enI64 0x09 2 o)
  | .fminImm o => some (enI64 0x09 4 o)
  | .fmaxImm o => some (enI64 0x09 5 o)
  | .fcmpImm o => some (enI64 0x09 6 o)
  | .kmovImm o => some (enI64 0x0A 0 o)
  | .kaddImm o => some (enI64 0x0A 1 o)
  | .ksubImm o => some (enI64 0x0A 2 o)
  | .kmulImm o => some (enI64 0x0A 3 o)
  | .kandImm o => some (enI64 0x0A 4 o)
  | .korImm o => some (enI64 0x0A 5 o)
  | .kxorImm o => some (enI64 0x0A 6 o)
  | .kshlImm o => some (enI64 0x0A 7 o)
  | .kshrImm o => some (enI64 0x0A 8 o)
  | .ksarImm o => some (enI64 0x0A 9 o)
  | .kminImm o => some (enI64 0x0A 10 o)
  | .kmaxImm o => some (enI64 0x0A 11 o)
  | .kminNImm o => some (enI64 0x0A 12 o)
  | .kmaxNImm o => some (enI64 0x0A 13 o)
  | .kcmpImm o => some (enI64 0x0A 0 o)
  | .srd o => some (enI64 0x0B 0 o)
  | .swr o => some (enI64 0x0B 1 o)
  | .kloop o => some (enI64 0x0B 2 o)
  | .ld o => some (enM64 0x10 0 o)
  | .st o => some (enM64 0x11 0 o)
  | .atomAdd o => some (enM64 0x12 0 o)
  | .atomAddCmb o => some (enM64 0x12 1 o)
  | .atomAddNoc o => some (enM64 0x12 2 o)
  | .atomAddCmbNoc o => some (enM64 0x12 3 o)
  | .atomMin o => some (enM64 0x12 4 o)
  | .atomMax o => some (enM64 0x12 5 o)
  | .atomMinN o => some (enM64 0x12 6 o)
  | .atomMaxN o => some (enM64 0x12 7 o)
  | .atomAnd o => some (enM64 0x12 8 o)
  | .atomOr o => some (enM64 0x12 9 o)
  | .atomXor o => some (enM64 0x12 10 o)
  | .atomExch o => some (enM64 0x12 11 o)
  | .atomCas o => some (enM64 0x12 12 o)
  | .atomFadd o => some (enM64 0x12 13 o)
  | .redAdd o => some (enM64 0x13 0 o)
  | .redAddNoc o => some (enM64 0x13 1 o)
  | .redMin o => some (enM64 0x13 2 o)
  | .redMax o => some (enM64 0x13 3 o)
  | .redMinN o => some (enM64 0x13 4 o)
  | .redMaxN o => some (enM64 0x13 5 o)
  | .redAnd o => some (enM64 0x13 6 o)
  | .redOr o => some (enM64 0x13 7 o)
  | .redXor o => some (enM64 0x13 8 o)
  | .waita o => some (enM64 0x14 0 o)
  | .fenceAcq o => some (enM64 0x14 1 o)
  | .fenceRel o => some (enM64 0x14 5 o)
  | .fenceAr o => some (enM64 0x14 9 o)
  | .stMc o => some (enM64 0x14 2 o)
  | .kld o => some (enM64 0x15 0 o)
  | .kst o => some (enM64 0x15 1 o)
  | .barArv o => some (enA64 0x18 0 o)
  | .barWait o => some (enA64 0x18 1 o)
  | .barSync o => some (enA64 0x18 2 o)
  | .barExp o => some (enA64 0x18 3 o)
  | .barTest o => some (enA64 0x18 4 o)
  | .tagWait o => some (enI64 0x19 0 o)
  | .tagFfs o => some (enI64 0x19 1 o)
  | .tagClr o => some (enI64 0x19 2 o)
  | .tlWait o => some (enI64 0x19 3 o)
  | .tlRd o => some (enI64 0x19 4 o)
  | .racq o => some (enI64 0x1A 0 o)
  | .rrel o => some (enI64 0x1A 1 o)
  | .brm o => some (enJ64 o)
  | .mlds o => some (enE64 0x20 0 o)
  | .mma o => some (enE64 0x20 2 o)
  | .mloop o => some (enE64 0x20 3 o)
  | .mzero o => some (enE64 0x20 4 o)
  | .mrel o => some (enE64 0x20 5 o)
  | .mrd o => some (enE64 0x20 6 o)
  | .mqnt o => some (enE64 0x20 7 o)
  | .mscac o => some (enE64 0x20 8 o)
  | .mcbl o => some (enE64 0x20 9 o)
  | .mhndGet o => some (enE64 0x20 10 o)
  | .mhndSet o => some (enE64 0x20 26 o)
  | .cpy o => some (enE64 0x21 0 o)
  | .gath o => some (enE64 0x21 1 o)
  | .scat o => some (enE64 0x21 2 o)
  | .xld o => some (enE64 0x22 0 o)
  | .xadd o => some (enE64 0x22 1 o)
  | .xset o => some (enE64 0x22 2 o)
  | .xqry o => some (enE64 0x22 3 o)
  | .collAllReduce o => some (enE64 0x23 0 o)
  | .collReduceScatter o => some (enE64 0x23 2 o)
  | .collAllGather o => some (enE64 0x23 4 o)
  | .collAllToAll o => some (enE64 0x23 6 o)
  | .collBroadcast o => some (enE64 0x23 8 o)
  | .grpq o => some (enE64 0x23 1 o)
  | .oqry o => some (enI64 0x24 0 o)
  | .ohint o => some (enI64 0x24 1 o)
  | .opin o => some (enI64 0x24 2 o)
  | .ounpin o => some (enI64 0x24 3 o)
  | .oalloc o => some (enI64 0x24 4 o)
  | .ofree o => some (enI64 0x24 5 o)
  | .oext o => some (enI64 0x24 6 o)
  | .otrim o => some (enI64 0x24 7 o)
  | .ogrp o => some (enI64 0x24 8 o)
  | .shpRd o => some (enI64 0x25 0 o)
  | .shpWait o => some (enI64 0x25 1 o)
  | .shpPub o => some (enI64 0x25 2 o)
  | .launch o => some (enI64 0x25 3 o)
  | .cancel o => some (enI64 0x25 4 o)
  | .ctrRd o => some (enI64 0x25 5 o)
  | .sys o => some (enI64 0x26 0 o)
  | .sleep o => some (enI64 0x26 1 o)
  | .laneFaultTrap _ => none
  | .dispatch _ => none
  | .blockPlace _ _ _ _ => none
  | .scratchpadFillDone _ => none
  | .nodeAging _ => none
  | .quantumEnd _ => none
  | .slotSwitch _ => none
  | .streamOut _ => none
  | .streamOutComplete _ => none
  | .streamIn _ _ _ _ _ => none
  | .streamInComplete _ => none
  | .blockLeave _ => none
  | .notifyWindowExpiry _ _ => none
  | .gangReserve _ => none
  | .gangReserveTimeout _ => none
  | .shapeResolve _ => none
  | .sleepWake _ => none
  | .matrixExecute _ => none
  | .slotAllocate _ => none
  | .planeLoadDone _ => none
  | .engineStart _ => none
  | .engineAccess _ => none
  | .engineBytesLand _ _ => none
  | .engineComplete _ => none
  | .collSequenceStart _ _ _ => none
  | .homeServe _ => none
  | .waitaRecheck _ => none
  | .stubForward _ => none
  | .notHereReceive _ => none
  | .askReceive _ => none
  | .registryLookup _ => none
  | .registryAnswer _ => none
  | .replyReceive _ => none
  | .storeAckReceive _ _ => none
  | .migrationRequest _ _ _ => none
  | .frameTransferDone _ => none
  | .windowEnd _ => none
  | .purge _ _ => none
  | .purgeAck _ _ => none
  | .pageFaultResolved _ _ _ => none
  | .flipDeviceToHost _ _ => none
  | .flipHostToDevice _ _ => none
  | .flitRetry _ _ _ => none
  | .planeDown _ => none
  | .planeRecoveryEnd _ => none
  | .requestTimeout _ => none
  | .sluiceEgress _ => none
  | .combineHoldExpiry _ => none
  | .creq _ => none
  | .cred _ => none
  | .crsp _ _ => none
  | .cack _ => none
  | .fabSplit _ => none
  | .fabDone _ => none
  | .fabLost _ => none
  | .drsp _ => none
  | .mcastReplicate _ => none
  | .mcastMemberAnswer _ _ => none
  | .mcastAckReceive _ => none
  | .doorbell _ _ _ _ => none
  | .firmwareRingPoll _ _ => none
  | .ringNode _ _ _ => none
  | .ringSvc _ _ _ => none
  | .ringCancel _ _ _ => none
  | .ringNop _ _ _ => none
  | .svcNop _ => none
  | .unitCreate _ => none
  | .groupSet _ => none
  | .groupClear _ => none
  | .mapInval _ => none
  | .faultRead _ => none
  | .attest _ => none
  | .hostBarWrite _ => none
  | .hostBarRead _ => none
  | .hostAtomicop _ _ => none
  | .dbgHalt _ _ => none
  | .dbgResume _ => none
  | .dbgStep _ => none
  | .dbgDetach _ _ => none
  | .lstep _ => none
  | .runto _ => none
  | .runtoReached _ => none
  | .dbgAttach _ => none
  | .debugRead _ _ => none
  | .debugWrite _ _ _ => none
  | .vfCoreReset _ _ => none
  | .kill _ _ => none
  | .keySlotRevoke _ _ => none
  | .frameRetire _ _ => none
  | .patrolScrub _ _ => none
  | .registerWrite _ _ => none
  | .powerOn _ _ _ => none
  | .powerSample _ _ _ => none
  | .thermalGateTick _ => none
  | .thermalRestoreTick _ => none
  | .thermalTrip _ => none
  | .runnelPacketRx _ _ => none
  | .runnelAckRx _ _ => none
  | .runnelNackRx _ _ _ => none
  | .runnelMsgTimeout _ _ => none
  | .qpConfigure _ _ => none
  | .qpEnable _ _ => none
  | .qpReset _ _ => none
  | .qpContextFetched _ _ => none
  | .runnelSendWaitExpiry _ _ => none
  | .registrationRevoke _ _ => none
  | .revokeComplete _ _ => none
  | .debuggerAttach _ => none
  | .debuggerDetach _ => none
  | .spuriousWakeup _ => none
  | .lineEviction _ _ _ => none
  | .softError _ _ => none
  | .gangRegistration _ _ => none
  | .nopW => some (enX 0 0)
  | .exit => some (enX 1 0)
  | .join => some (enX 2 0)
  | .ret => some (enX 3 0)
  | .yield => some (enX 4 0)
  | .eret => some (enX 7 0)
  | .fenceRec => some (en64 0x14 13 0 256 0)
  | .mswp => some (en64 0x20 1 0 256 0)

end Sys2Proof
end

