-- ==== Sys2Proof/Machine/Mem.lean ====
section
/-! DEFINITION. Where an address leads (R36-R39, R133, R134, R184, R185), what one access does there (R139-R148), and the
route of a request to an object's home (R172-R178, R190). -/
namespace Sys2Proof.Machine

/-! ### Pointers -/

/-- R36: GOID, its birth site and serial, and the offset of an object pointer. -/
def ptrGoid (p : Dbl) : Nat := sub p 34 29
def ptrOff (p : Dbl) : Nat := sub p 0 34
def goidSite (g : Nat) : Nat := g / 2 ^ 19
def goidSerial (g : Nat) : Nat := g % 2 ^ 19
def goidPtr (g off : Nat) : Nat := 2 ^ 63 + g * 2 ^ 34 + off % 2 ^ 34
def isObject (p : Dbl) : Bool := p.getLsbD 63
/-- R37: region of a flat pointer. -/
def region (p : Dbl) : Nat := sub p 60 3

/-- R171: the registry entry of a GOID; an unlisted serial is unused. -/
def regEntry (s : State) (g : Nat) : Option RegEntry := tget (siteOf s (goidSite g)).registry (goidSerial g)
def putReg (s : State) (g : Nat) (e : RegEntry) : State :=
  modSite s (goidSite g) fun x => { x with registry := tput x.registry (goidSerial g) e }
def objAt (s : State) (site g : Nat) : Option ObjEntry := tget (siteOf s site).objects g
def putObj (s : State) (site g : Nat) (e : ObjEntry) : State :=
  modSite s site fun x => { x with objects := tput x.objects g e }

/-- The site of the pod a pointer's birth site must be (R134 check 5). -/
def siteExists (s : State) (site : Nat) : Bool := decide (site < 2 * s.fabric.devices)

/-! ### Flat translation (R184) -/

/-- What a walk of the tables finds: nothing mapped, an entry that is not present (and whether it is a read-only page),
or a page. -/
inductive Walk where
  | none
  | absent (ro : Bool)
  | page (x : Xlat)
deriving DecidableEq, Repr

/-- R172: the object whose frame a device physical address lies in, with its byte's offset and its key slot
(log 36). -/
def frameOwner (s : State) (dev pa : Nat) : Option (Nat × Nat × Nat) :=
  [0, 1].findSome? fun die => (siteOf s (2 * dev + die)).objects.findSome? fun x =>
    if x.2.state = .home ∨ x.2.state = .movingOut then
      let at_ (die : Nat) (fs : List Nat) : Option (Nat × Nat × Nat) :=
        ((fs.zipIdx).find? fun f => decide (Config.frameAddr dev die x.2.tier2 f.1 = pa / Config.frameBytes)).map fun f =>
          (x.1, f.2 * Config.frameBytes + pa % Config.frameBytes, x.2.key)
      (at_ die x.2.frames).orElse fun _ => at_ (1 - die) x.2.copy
    else none

/-- R172, R189: where a device physical address leads under a key slot: to the bytes of the object whose frame it is, under the
object's slot, otherwise to the device's memory as it reads under the slot. -/
def physKey (s : State) (dev slot pa : Nat) : Nat :=
  match frameOwner s dev pa with
  | some (g, off, key) => if key = slot then goidPtr g off else slotKey dev slot pa
  | none => slotKey dev slot pa

/-- R184: an entry of a table, as device memory holds it. The manual gives KEY for pages and none for tables: a walk reads their lines
under the slot they were last written with (log 39). -/
def tableEntry (m : Memory) (dev a : Nat) : Nat := readNat m (slotKey dev (slotOf m dev a) a) 8

/-- R184: the levels `n` to 0 of a walk; `n` indexes by bits [12 + 9n + 8 : 12 + 9n]. A 2 MiB page whose PA is not a multiple of
2 MiB counts as no mapping, only the W of the entry that maps the page decides a write, and B and L are ignored where the layout
gives them no use (log 39). -/
def walkLevel (m : Memory) (dev reg va : Nat) : Nat → Nat → Walk
  | n, table =>
    let e := tableEntry m dev (table + 8 * (va / 2 ^ (12 + 9 * n) % 512))
    let bad := e / 2 ^ 62 ≠ 0 ∨ e / 2 ^ 52 % 16 ≠ 0 ∨ e / 64 % 64 ≠ 0 ∨ e / 2 % 2 ≠ 0
    let pa := e / 4096 % 2 ^ 40 * 4096
    let large := decide (n = 1) && e.testBit 4
    let leaf := large || decide (n = 0)
    if e % 2 = 0 ∨ bad then .none
    else if large && (decide (reg = 3) || decide (pa / 4096 % 512 ≠ 0)) then .none
    else if !e.testBit 2 then .absent (leaf && !e.testBit 3)
    else if leaf then
      .page ⟨pa + (if large then va / 4096 % 512 * 4096 else 0), e.testBit 3, decide (reg = 3) && e.testBit 5, e / 2 ^ 56 % 64⟩
    else match n with
      | 0 => .none
      | n + 1 => walkLevel m dev reg va n pa

/-- Translation of a virtual address of a context: the cached translation where there is one (R184: a change takes effect
only after the invalidation service), otherwise a walk. -/
def xlate (s : State) (c : Ctx) (reg va : Nat) : Walk :=
  if va / 2 ^ 48 ≠ 0 then .none
  else match tget c.tlb (reg * 2 ^ 48 + va / 4096) with
    | some x => .page x
    | none => match tget c.roots reg with
      | some root => walkLevel s.mem c.dev reg va 3 root
      | none => .none

/-- R184: the context caches a translation it has used. -/
def cacheXlat (s : State) (ctx reg va : Nat) (x : Xlat) : State :=
  modCtx s ctx fun c => { c with tlb := tput c.tlb (reg * 2 ^ 48 + va / 4096) x }

/-- R185: the virtual address of byte `a` of thread `n`'s private storage. -/
def privVa (s : State) (w : View) (id n a : Nat) : Nat :=
  let q := w.n.desc.private_
  let base := q * (((ctxTeams s w.c).takeWhile fun x => decide (x.1 ≠ id)).map fun x => x.2.size).sum
  base + n / 32 * 32 * q + (a / 4 * 32 + n % 32) * 4 + a % 4

/-! ### Checks at issue (R134 checks 1-4) and placing an access -/

/-- R38: the block a member number of the scratchpad window names. -/
def windowBlock (s : State) (w : View) (member : Nat) : Option (Nat × Block) :=
  if member = 0 then some (w.t.block, w.b)
  else
    let r := (w.b.rank + member) % 8
    if r < w.n.desc.cluster then
      (blocksOf s w.b.node).find? fun x => decide (clusterOf w.n x.2 = clusterOf w.n w.b ∧ x.2.rank = r)
    else none

/-- Where an access goes. -/
inductive Place where
  | fault (cause : Nat)
  | spad (key : Nat)
  | flat (reg : Nat)
  | object
deriving DecidableEq, Repr

/-- R134 checks 1 to 4. -/
def placeOf (s : State) (w : View) (ea : Dbl) (size : Nat) : Place :=
  if isObject ea then (if ea.toNat % size ≠ 0 then .fault 0x44 else .object)
  else if 4 ≤ region ea then .fault 0x42
  else if region ea = 2 then
    match windowBlock s w (sub ea 57 3) with
    | none => .fault 0x43
    | some (id, b) =>
      let off := sub ea 0 57
      if off % size ≠ 0 then .fault 0x41
      else if b.spad < off + size then .fault 0x40
      else .spad (spadKey id off)
  else if ea.toNat % size ≠ 0 then .fault 0x44
  else .flat (region ea)

/-- R185: the words of a private access; elsewhere one run. As (virtual address, bytes). -/
def flatRuns (s : State) (w : View) (id lane reg a size : Nat) : List (Nat × Nat) :=
  if reg = 1 then (List.range ((size + 3) / 4)).map fun j => (privVa s w id lane (a + 4 * j), min size 4)
  else [(a, size)]

/-- What the checks 9 to 11 answer for a flat access. -/
inductive FlatRes where
  | fault (cause : Nat)
  | stall (va : Nat) (host : Option Nat)
  | runs (rs : List (Nat × Nat)) (used : List (Nat × Xlat))
deriving DecidableEq, Repr

/-- R134 checks 9 to 11 over the runs of an access, the first failing check deciding. A page in host bias stalls a load with
`.nc` as it stalls any other access (log 40). -/
def flatCheck (s : State) (w : View) (reg : Nat) (write : Bool) (vas : List (Nat × Nat)) : FlatRes :=
  let ws := vas.map fun x => (x, xlate s w.c reg x.1)
  if ws.any fun x => decide (x.2 = .none) then .fault 0x80
  else if write && ws.any (fun x => match x.2 with
      | .page p => !p.w
      | .absent ro => ro
      | .none => false) then .fault 0x81
  else match ws.find? fun x => match x.2 with
      | .page p => p.host
      | .absent _ => true
      | .none => false with
    | some ((va, _), .page p) => .stall va (some (p.pa / 4096))
    | some ((va, _), _) => .stall va none
    | none => .runs (ws.filterMap fun x => match x.2 with
        | .page p => some (physKey s w.c.dev p.key (p.pa + x.1.1 % 4096), x.1.2)
        | _ => none) (ws.filterMap fun x => match x.2 with
        | .page p => some (x.1.1, p)
        | _ => none)

/-- R134: placing and checks of a flat access of a lane. A private address at or beyond Q has no mapping (R185). -/
def flatAccess (s : State) (w : View) (id lane : Nat) (ea : Dbl) (size : Nat) (write : Bool) : FlatRes :=
  let reg := region ea
  let a := sub ea 0 60
  if reg = 1 && decide (w.n.desc.private_ < a + size) then .fault 0x80
  else flatCheck s w reg write (flatRuns s w id lane reg a size)

/-! ### Lines, caches and errors (R141, R196, R197, R202, R280) -/

def lineOf (key : Nat) : Nat := key / 64

/-- The line where a key's bytes stand, whatever key slot names them (R189). -/
def errLine (key : Nat) : Nat :=
  if 2 ^ 64 ≤ key ∧ key < 600 * 2 ^ 64 then (key / 2 ^ 64 * 2 ^ 64 + key % 2 ^ 56) / 64 else key / 64

/-- R280: the cause of an uncorrectable error in a line. -/
def lineErr (s : State) (key : Nat) : Option Nat := (tget s.errors (errLine key)).map (·.cause)

/-- R280: bytes written leave the error; a line written whole no longer holds it. -/
def clearErr (s : State) (key len : Nat) : State :=
  match tget s.errors (errLine key) with
  | none => s
  | some e =>
    let bits := (List.range len).foldl (fun m i => m &&& ~~~(1#64 <<< ((key + i) % 64))) e.left
    { s with errors := if bits = 0 then tdel s.errors (errLine key) else tput s.errors (errLine key) { e with left := bits } }

/-- A cached line with some of its bytes replaced. -/
def patchLine (line : List Byte) : Nat → List Byte → List Byte
  | _, [] => line
  | o, b :: bs => patchLine (line.set o b) (o + 1) bs

def patchCopy (t : Tbl (List Byte)) (key : Nat) (bs : List Byte) : Tbl (List Byte) :=
  match tget t (lineOf key) with
  | some l => tput t (lineOf key) (patchLine l (key % 64) bs)
  | none => t

/-- The entry that gives an object's size: the home's, or at the destination of a move the source's. -/
def sizeEntry (s : State) (site g : Nat) : Option ObjEntry :=
  match (objAt s site g).filter fun e => decide (e.state = .home ∨ e.state = .movingOut) with
  | some e => some e
  | none => match s.moves.find? fun x => decide (x.2.goid = g ∧ x.2.dst = site) with
    | some x => objAt s x.2.src g
    | none => none

/-- The site a registry names as an object's home. -/
def homeSite (s : State) (g : Nat) : Nat := match regEntry s g with
  | some e => e.site
  | none => goidSite g

/-- How many bytes of the line of a key exist: an object ends at its size (R134 check 8). -/
def lineLimit (s : State) (key : Nat) : Nat :=
  if key / 2 ^ 63 = 1 then
    let p : Dbl := BitVec.ofNat 64 (lineOf key * 64)
    match sizeEntry s (homeSite s (ptrGoid p)) (ptrGoid p) with
    | some e => min 64 (e.size - ptrOff p)
    | none => 64
  else 64

/-- A line leaves the L1 of a context and the copies of its die's L2. -/
def dropLine (s : State) (ctx site line : Nat) : State :=
  modSite (modCtx s ctx fun c => { c with l1 := tdel c.l1 line }) site fun x => { x with l2 := tdel x.l2 line }

/-- A copy of a line that holds the `len` bytes at a key. -/
def covers (key len : Nat) (copy : Option (List Byte)) : Option (List Byte) :=
  copy.filter fun l => decide (key % 64 + len ≤ l.length)

def l1Line (s : State) (ctx key len : Nat) : Option (List Byte) :=
  covers key len ((tget s.ctxs ctx).bind fun c => tget c.l1 (lineOf key))
/-- R202: only copies of lines homed on another device stand beside their home. -/
def l2Line (s : State) (site : Nat) (remote : Bool) (key len : Nat) : Option (List Byte) :=
  covers key len (if remote then tget (siteOf s site).l2 (lineOf key) else none)

/-- A line enters a cache of some capacity; from a full one a line leaves (log 16). -/
def putLine (t : Tbl (List Byte)) (cap line pick : Nat) (l : List Byte) : Tbl (List Byte) :=
  if (tget t line).isSome || decide (t.length < cap) then tput t line l
  else tput (t.eraseIdx (pick % t.length)) line l

/-- R25: lines of a context's L1: the SRAM of its slot less its scratchpad partition. -/
def l1Lines (c : Ctx) : Nat := ((if c.slot = .wide then 2 * Config.slotSram else Config.slotSram) - c.partition) / 64

/-- R280: the copy of a line in a die's L2 holds an uncorrectable error. -/
def badCopy (s : State) (site key : Nat) : Bool := (siteOf s site).l2bad.contains (lineOf key)

/-- R202: a line of another device enters a die's L2. -/
def fillL2 (s : State) (site line : Nat) (l : List Byte) : State :=
  modSite s site fun x => { x with l2 := putLine x.l2 (Config.l2Bytes / 64) line (Config.victim s.now) l
                                   l2bad := x.l2bad.filter (· ≠ line) }

/-- R139, R141, R197, R202: an ordinary load of one run reads the L1 line, else the die's copy of a remote line, else the
point of coherence, and fills what it passed with the bytes of the line that exist; `.nc` reads the point of coherence and
drops both copies. -/
def loadRun (s : State) (ctx site : Nat) (nc remote : Bool) (key len : Nat) : State × Except Nat Nat :=
  let line := lineOf key
  let cut (l : List Byte) := bytesNat ((l.drop (key % 64)).take len)
  let fill (s : State) (l : List Byte) := modCtx s ctx fun c => { c with l1 := putLine c.l1 (l1Lines c) line (Config.victim s.now) l }
  if nc then
    match lineErr s key with
    | some e => (s, .error e)
    | none => (dropLine s ctx site line, .ok (readNat s.mem key len))
  else match l1Line s ctx key len, l2Line s site remote key len with
    | some l, _ => (s, .ok (cut l))
    | none, some l => if badCopy s site key then (s, .error 0x2C2) else (fill s l, .ok (cut l))
    | none, none => match lineErr s key with
      | some e => (s, .error e)
      | none =>
        let l := (readBytes s.mem (line * 64) 64).take (lineLimit s key)
        let s := fill s l
        (if remote then fillL2 s site line l else s, .ok (readNat s.mem key len))

/-- R189: before a write under a key slot, the line is that slot's: a line of device memory last written under another slot, or
of an object's frame under another slot, loses what it held. -/
def claim (s : State) (key : Nat) : State :=
  if 2 ^ 64 ≤ key ∧ key < 600 * 2 ^ 64 then
    let s := if rekeys s.mem key then { s with mem := claimLine s.mem key s.stamp, stamp := s.stamp + 1 } else s
    match frameOwner s (key / 2 ^ 64 - 1) (key % 2 ^ 56) with
    | some (g, off, _) =>
      let lo := goidPtr g (off / 64 * 64)
      { s with mem := freshRange s.mem lo (lo + 64) s.stamp, stamp := s.stamp + 1 }
    | none => s
  else s

/-- A store reaches its point of coherence and updates the copies of its own slot and die (R141, R196, log 7). -/
def storeRun (s : State) (ctx site key : Nat) (bs : List Byte) : State :=
  let s := claim s key
  let s := clearErr { s with mem := writeBytes s.mem key bs } key bs.length
  modSite (modCtx s ctx fun c => { c with l1 := patchCopy c.l1 key bs }) site fun x => { x with l2 := patchCopy x.l2 key bs }

/-- R145: the new value an atomic of n bits leaves; `x` is the operand, `cmp` the comparand. -/
def atomNew (op : AtomOp) (n old x cmp : Nat) : Nat :=
  let sg (y : Nat) : Int := sextN y n
  match op with
  | .add => (old + x) % 2 ^ n
  | .min => if sg old ≤ sg x then old else x
  | .max => if sg x ≤ sg old then old else x
  | .minN => min old x
  | .maxN => max old x
  | .and => Nat.land old x
  | .or => Nat.lor old x
  | .xor => Nat.xor old x
  | .exch => x
  | .cas => if old = cmp then x else old
  | .fadd => (flAdd f32 .rn old x 0).1

/-- Reads the runs of an item one after the other; its value, low run first. -/
def loadRuns (s : State) (ctx site : Nat) (nc remote : Bool) : List (Nat × Nat) → State × Except Nat Nat
  | [] => (s, .ok 0)
  | (k, n) :: rs =>
    match loadRun s ctx site nc remote k n with
    | (s, .error e) => (s, .error e)
    | (s, .ok x) => match loadRuns s ctx site nc remote rs with
      | (s, .error e) => (s, .error e)
      | (s, .ok y) => (s, .ok (x + y * 256 ^ n))

/-- Writes a value over the runs of an item. -/
def storeRuns (s : State) (ctx site : Nat) : List (Nat × Nat) → Nat → State
  | [], _ => s
  | (k, n) :: rs, x => storeRuns (storeRun s ctx site k (natBytes n x)) ctx site rs (x / 256 ^ n)

/-- One access at the place that serves it (R134 check 12, R139, R145, R147): the value read. Scratchpad runs pass no
cache; an atomic or a WAITA leaves no copy of its line behind (R196). An error in a scratchpad word is answered to its lane (log 47). -/
def serveItem (s : State) (kind : AccKindOp) (size ctx site : Nat) (remote spad : Bool) (it : Item) : State × Ans :=
  let ans (s : State) (r : Except Nat Nat) : State × Ans := match r with
    | .ok x => (s, ⟨it.lane, x, 0⟩)
    | .error e => (s, ⟨it.lane, 0, e⟩)
  let raw (s : State) : Except Nat Nat :=
    match it.runs.findSome? fun r => lineErr s r.1 with
    | some e => .error e
    | none => .ok (it.runs.foldr (fun r acc => readNat s.mem r.1 r.2 + acc * 256 ^ r.2) 0)
  let drop (s : State) := if spad then s else it.runs.foldl (fun s r => dropLine s ctx site (lineOf r.1)) s
  let atom (op : AtomOp) : State × Ans := match raw s with
    | .error e => ans s (.error e)
    | .ok old =>
      let s := drop (storeRuns s ctx site it.runs (atomNew op (8 * size) old it.data it.compare))
      ans s (.ok old)
  match kind with
  | .load _ nc => if spad then ans s (raw s) else
      let (s, r) := loadRuns s ctx site nc remote it.runs
      ans s r
  | .watch => ans (drop s) (raw s)
  | .store => (storeRuns s ctx site it.runs it.data, ⟨it.lane, 0, 0⟩)
  | .atom op => atom op
  | .red op => atom op

/-! ### Homes, locators and routes (R172-R178, R190, R295, R303) -/

/-- R178: the locator entry of a GOID at a site. -/
def locate (s : State) (site g : Nat) : Option Locator :=
  (tgetD (siteOf s site).locator (Config.locatorHash g % 8192) []).find? fun e => decide (e.goid = g)

/-- R178: an entry becomes the most recently used of its set of 8 ways. -/
def touchLocator (s : State) (site : Nat) (e : Locator) : State :=
  modSite s site fun x =>
    let k := Config.locatorHash e.goid % 8192
    let ways := e :: (tgetD x.locator k []).filter fun y => decide (y.goid ≠ e.goid)
    { x with locator := tput x.locator k (ways.take 8) }

def dropLocator (s : State) (site g : Nat) : State :=
  modSite s site fun x =>
    let k := Config.locatorHash g % 8192
    let ways := (tgetD x.locator k []).filter fun y => decide (y.goid ≠ g)
    { x with locator := tset [] x.locator k ways }

/-- R178 step 5: a count is newer than a held one. -/
def newer (c h : Nat) : Bool :=
  let d := (c + 2 ^ 16 - h % 2 ^ 16) % 2 ^ 16
  decide (1 ≤ d ∧ d < 2 ^ 15)

/-- R178 step 5, R190: a reply updates the requester's locator entry. -/
def learn (s : State) (site g home moves : Nat) : State :=
  match locate s site g with
  | some e => touchLocator s site (if newer moves e.moves then ⟨g, home, moves % 2 ^ 16⟩ else e)
  | none => touchLocator s site ⟨g, home, moves % 2 ^ 16⟩

/-- R173: the move that takes an object out of a site. -/
def moveOf (s : State) (site g : Nat) : Option Move :=
  (s.moves.find? fun x => decide (x.2.goid = g ∧ x.2.src = site)).map (·.2)

/-- R170, R173: what a site does with an access. `viaMove` marks one that the source of a move forwarded. -/
inductive Answer where
  | served | queued | forward (dst : Nat) (stub : Bool) | notHere | dead
deriving DecidableEq, Repr

def answerAt (s : State) (site g off : Nat) (viaMove : Bool) : Answer :=
  if viaMove && s.moves.any (fun x => decide (x.2.goid = g ∧ x.2.dst = site)) then .served
  else match objAt s site g with
  | none => .notHere
  | some e => match e.state with
    | .home => .served
    | .movingOut => match moveOf s site g with
      | some m =>
        let i := off / Config.frameBytes
        if i < m.frame then (if m.dst = site then .served else .forward m.dst false)
        else if i = m.frame && decide (m.frame < m.frames) then .queued
        else .served
      | none => .served
    | .stub => .forward e.dest true
    | .collected => .notHere
    | .dead => .dead

/-- R295, R302: the planes up, in increasing number; one that goes down leaves every device's set. -/
def livePlanes (s : State) : List Nat := (List.range 32).filter fun p => !s.fabric.down.contains p

/-- R295: the plane of a request to a device. -/
def planeOf (s : State) (b : Nat) (key : Nat) : Nat :=
  let live := livePlanes s
  live.getD (Config.planeHash b (lineOf key) % 65536 % live.length) 0

/-- R303: a request that cannot leave for a device. -/
def unreachable (s : State) (a b : Nat) : Option Nat :=
  if a = b then none
  else if s.fabric.absent.contains b || decide (s.fabric.devices ≤ b) then some 0x280
  else if (livePlanes s).isEmpty then some 0x281
  else none

/-- R175, R192: the home counts an access by the site that issued it; the space-saving rule keeps 4 others, and of several that
hold the least count the first listed gives its place (log 41). -/
def countSketch (e : ObjEntry) (home from_ : Nat) : ObjEntry :=
  if from_ = home || (e.twin && decide (from_ / 2 = home / 2)) then { e with local_ := e.local_ + 1 }
  else if e.sketch.any fun x => decide (x.1 = from_) then
    { e with sketch := e.sketch.map fun x => if x.1 = from_ then (x.1, x.2 + 1) else x }
  else if e.sketch.length < 4 then { e with sketch := e.sketch ++ [(from_, 1)] }
  else
    let least := e.sketch.foldl (fun m x => min m x.2) (e.sketch.headD (0, 0)).2
    let i := e.sketch.findIdx fun x => decide (x.2 = least)
    { e with sketch := e.sketch.set i (from_, least + 1) }

def countAccess (s : State) (home g from_ : Nat) : State :=
  match objAt s home g with
  | some e => if (siteOf s home).osite.getLsbD 0 && decide (e.state = .home ∨ e.state = .movingOut) then
      putObj s home g (countSketch e home from_)
    else s
  | none => s

/-- R172: an access served at a home: beyond the size it faults, otherwise it takes effect. -/
def serveObject (s : State) (kind : AccKindOp) (size ctx site home g : Nat) (it : Item) : State × Ans :=
  match sizeEntry s home g with
  | none => (s, ⟨it.lane, 0, 0xC0⟩)
  | some e =>
    if e.size < ptrOff it.ptr + size then (s, ⟨it.lane, 0, 0xC1⟩)
    else serveItem s kind size ctx site (decide (home / 2 ≠ site / 2)) false it

/-- R134 checks 5 to 7 as the registry answers. -/
def registryFault (s : State) (g : Nat) : Option Nat :=
  if !siteExists s (goidSite g) then some 0xC3
  else match regEntry s g with
    | none => some 0xC2
    | some e => match e.state with
      | .live | .moving => none
      | _ => some 0xC0

/-- Where a request starts: at the site its locator names, or at the birth site's registry (R178 step 1). -/
structure Start where
  site : Nat
  hit : Bool
deriving DecidableEq, Repr

def startOf (s : State) (site g : Nat) : Start :=
  match locate s site g with
  | some e => ⟨e.site, true⟩
  | none => ⟨goidSite g, false⟩

/-- R178, R303: the legs of a request from a device's site to where an object is served, made at once by what sends no request of its
own (engines, records, firmware, WAITA, prefetches): a device that cannot be reached ends it, a stub counts it and forwards it eight
times, NOT-HERE drops the locator entry, and the registry names a site or a cause. -/
def legs (dev from_ g off : Nat) : Nat → Option (Nat × Nat) → State → State × Option Nat
  | 0, _, s => (s, none)
  | n + 1, none, s => match unreachable s dev (goidSite g / 2) with
    | some c => (s, some c)
    | none => match registryFault s g with
      | some c => (s, some c)
      | none => legs dev from_ g off n (some (homeSite s g, 0)) s
  | n + 1, some (site, hops), s => match unreachable s dev (site / 2) with
    | some c => (s, some c)
    | none =>
      let arrived := (learn s from_ g site (((sizeEntry s site g).map (·.moves)).getD 0), none)
      match answerAt s site g off false with
      | .served => arrived
      | .queued => arrived
      | .forward dst false => match unreachable s dev (dst / 2) with
        | some c => (s, some c)
        | none => (learn s from_ g dst (((sizeEntry s dst g).map (·.moves)).getD 0), none)
      | .forward dst true =>
        let s := match objAt s site g with
          | some e => putObj s site g { e with forwarded := e.forwarded + 1 }
          | none => s
        legs dev from_ g off n (if hops < 8 then some (dst, hops + 1) else none) s
      | .notHere => legs dev from_ g off n none (dropLocator s from_ g)
      | .dead => (s, some 0xC0)

/-- R178: the machine after the legs of a request to an object, and the cause that ends it. -/
def routeTo (s : State) (dev from_ g off : Nat) : State × Option Nat :=
  if !siteExists s (goidSite g) then (s, some 0xC3)
  else legs dev from_ g off 32 ((locate s from_ g).map fun e => (e.site, 0)) s

/-- R178: the same for a pointer of a context; a pointer to no object has no such way. -/
def routed (s : State) (c : Ctx) (p : Dbl) : State :=
  if isObject p then (routeTo s c.dev (ctxSite c) (ptrGoid p) (ptrOff p)).1 else s

/-! ### Windows of multicast groups (R304, R306) -/

/-- R306: the context that holds a rank of a group, with its entry. -/
def memberOf (s : State) (gid rank : Nat) : Option (Nat × Ctx × Group) :=
  s.ctxs.findSome? fun x => (x.2.groups.find? fun g => g.2.valid && decide (g.2.gid = gid ∧ g.2.rank = rank ∧ x.2.state ≠ .left)).map
    fun g => (x.1, x.2, g.2)

/-- R304: what a member's home does with a write: it takes effect, fails (with the cause for the fault log of R303 where the member
was not reached), or waits for a page at an offset. -/
inductive McastRes where
  | done (s : State)
  | failed (cause : Option Nat)
  | page (off : Nat)

/-- R304, R184: the place in memory of some bytes at an offset of a member's window. -/
def windowKey (s : State) (m : Ctx) (g : Group) (off : Nat) : Except McastRes Nat :=
  let va := (advance g.base (off : Int)).toNat % 2 ^ 60
  match xlate s m 0 va with
  | .none => .error (.failed none)
  | .absent ro => .error (if ro then .failed none else .page off)
  | .page x =>
    let key := physKey s m.dev x.key (x.pa + va % 4096)
    if !x.w || (lineErr s key).isSome then .error (.failed none) else .ok key

/-- R304: the lines of memory where some members keep what stands at some offsets of a group's window. -/
def windowLines (s : State) (gid : Nat) (offs ranks : List Nat) : List Nat :=
  ranks.flatMap fun r => match memberOf s gid r with
    | some (_, m, g) => offs.filterMap fun off => match windowKey s m g off with
      | .ok key => some (lineOf key)
      | .error _ => none
    | none => []

/-- R195, R196, R210: the lines that multicast stores of a context have yet to write at some member: a later access of the context to one
of them waits. -/
def mcastLines (s : State) (ctx : Nat) : List Nat :=
  s.fabric.msgs.flatMap fun x => match x.2 with
    | .mcast _ c _ gid _ _ data pending _ _ =>
      if c = ctx then windowLines s gid (data.map (·.1)) pending else []
    | _ => []

/-- R195: an access to some runs waits for a multicast store of its context. -/
def behindMcast (s : State) (ctx : Nat) (rs : List (Nat × Nat)) : Bool :=
  rs.any fun r => (mcastLines s ctx).contains (lineOf r.1)

/-! ### Delivering answers -/

/-- R138: the registers a loaded value takes. -/
def loadTo (t : Team) (sext : Bool) (size dst lane x : Nat) : Team :=
  match size with
  | 1 | 2 => vset t lane dst (if sext then BitVec.ofInt 32 (sextN x (8 * size)) else BitVec.ofNat 32 x)
  | 4 => vset t lane dst (BitVec.ofNat 32 x)
  | 8 => vsetW t lane dst 2 x
  | _ => vsetW t lane dst 4 x

/-- R142: the uniform registers a KLD takes. -/
def loadToK (t : Team) (sext : Bool) (size dst x : Nat) : Team :=
  match size with
  | 1 | 2 => kset t dst (if sext then BitVec.ofInt 32 (sextN x (8 * size)) else BitVec.ofNat 32 x)
  | 4 => kset t dst (BitVec.ofNat 32 x)
  | _ => ksetD t dst (BitVec.ofNat 64 x)

/-- One answer reaches its lane: a fault switches it off (R131), a value is written. -/
def deliverAns (t : Team) (kind : AccKindOp) (size dst : Nat) (a : Ans) : Team :=
  match a.lane with
  | none => if a.fault ≠ 0 then t else match kind with
    | .load sext _ => loadToK t sext size dst a.value
    | _ => t
  | some l =>
    if a.fault ≠ 0 then laneFault t l a.fault
    else match kind with
      | .load sext _ => loadTo t sext size dst l a.value
      | .atom _ => loadTo t false size dst l a.value
      | .watch => loadTo t false size dst l a.value
      | .store => t
      | .red _ => t

/-! ### Scopes (R141, R194) -/

/-- R141: an acquire: from cluster scope on the slot's L1 lines go, from pod scope on the die's copies of remote lines. -/
def acquire (s : State) (ctx : Nat) (scope : Nat) : State :=
  match tget s.ctxs ctx with
  | none => s
  | some c =>
    let s := if 2 ≤ scope then putCtx s ctx { c with l1 := [] } else s
    if 4 ≤ scope then modSite s (ctxSite c) fun x => { x with l2 := [] } else s

/-- R141, R292: earlier stores of the context have been acknowledged, as a release of cluster scope or wider asks. -/
def drained (c : Ctx) : Bool := decide (c.out = 0) && c.parked.all fun p => decide (p.count = 0)

def releaseOk (c : Ctx) (scope : Nat) : Bool := decide (scope < 2) || drained c

/-! ### Watchpoints (R288) -/

/-- R286: the context team index of a team. -/
def teamIndex (s : State) (c : Ctx) (id : Nat) : Nat := (ctxTeams s c).findIdx fun x => decide (x.1 = id)

/-- R288: the bit of DWC that enables a kind. -/
def watchBit : AccKindOp → Nat
  | .load _ _ => 1
  | .watch => 1
  | .store => 2
  | .atom _ => 3
  | .red _ => 3

/-- R288: the watchpoints an access matches. -/
def watchHits (s : State) (w : View) (id : Nat) (kind : AccKindOp) (ea : Dbl) (size : Nat) : List Nat :=
  if !w.c.attached then []
  else (List.range 4).filter fun i =>
    let c := tgetD w.c.dwc i 0
    let b := (tgetD w.c.dwb i 0).toNat
    let l := (tgetD w.c.dwl i 0).toNat
    let space (p : Nat) := if 2 ^ 63 ≤ p then p / 2 ^ 34 else p / 2 ^ 60
    let off (p : Nat) := if 2 ^ 63 ≤ p then p % 2 ^ 34 else p % 2 ^ 60
    c.getLsbD 0 && c.getLsbD (watchBit kind) && (!c.getLsbD 4 || decide (sub c 5 4 = teamIndex s w.c id)) &&
      decide (l ≠ 0 ∧ space ea.toNat = space b ∧ off ea.toNat < off b + l ∧ off b < off ea.toNat + size)

/-- R288: after its effect the team halts, or traps with the lowest watchpoint it hit and its lowest lane. -/
def watchStop (s : State) (id : Nat) (hits : List (Nat × Nat)) : State :=
  match hits with
  | [] => s
  | h :: hs => match viewOf s id with
    | none => s
    | some w => if w.t.ended then s else
      let n := hs.foldl (fun m x => min m x.1) h.1
      let lane := (hits.filter fun x => decide (x.1 = n)).foldl (fun m x => min m x.2) 1023
      let info : Word := BitVec.ofNat 32 (n + lane * 2 ^ 16)
      if sub (tgetD w.c.dwc n 0) 9 2 = 1 then raiseAt s id 0x301 info w.t.pc
      else putTeam s id { w.t with halt := some (0x301, info) }

end Sys2Proof.Machine
end

