-- ==== Sys2Proof/Machine/Memory.lean ====
section
/-! DEFINITION. Memory instructions: LD, ST, KLD, KST, ATOM, RED (R133-R148), WAITA (R149, R150), FENCE (R151) and ST.mc
(R152, R153). -/
namespace Sys2Proof.Machine

/-- One memory instruction of a team: what it does, its access size in bytes, its destination, its accesses, whether its
requests may combine in the fabric (R147), and whether each lane then sends a request of its own (R146): the requests of one
location go together, so that no other operation falls between them (log 31). -/
structure MemOp where
  kind : AccKindOp
  size : Nat
  dest : Nat
  items : List Item
  combine : Bool := false
  single : Bool := false

/-- Progress of a memory instruction over its lanes: the lines already counted at their homes, those whose acknowledgement is
counted, whether a lane stalled on a page, whether one waits for a request, and the cause of a uniform form. -/
structure Pass where
  s : State
  seen : List Nat := []
  acks : List Nat := []
  page : Bool := false
  busy : Bool := false
  bad : Option Nat := none

/-- R134: the lane needs no further issue; its answer reaches it, and an access that took effect may hit watchpoints. -/
def settle (id : Nat) (op : MemOp) (it : Item) (hits : List Nat) (a : Ans) (p : Pass) : Pass :=
  let lane := it.lane.getD 0
  let p := { p with s := modTeam p.s id fun t =>
    let t := deliverAns t op.kind op.size op.dest a
    { t with served := t.served ||| (1#1024 <<< lane)
             watch := if a.fault = 0 then t.watch ++ hits.map fun i => (i, lane) else t.watch } }
  if it.lane.isNone && decide (a.fault ≠ 0) then { p with bad := some a.fault } else p

/-- R292: an access whose acknowledgement a release waits for. -/
def acked : AccKindOp → Bool
  | .store => true
  | .red _ => true
  | .load _ _ => false
  | .atom _ => false
  | .watch => false

/-- R292: one more request of the context counts in its live counter set. -/
def countOut (s : State) (ctx : Nat) : State := modCtx s ctx fun c => { c with out := c.out + 1 }

/-- R141, R292: a store or reduction to another device or region 3 counts until it is acknowledged, once for each line. -/
def countLine (p : Pass) (ctx line : Nat) (kind : AccKindOp) (away : Bool) : Pass :=
  if acked kind && away && !p.acks.contains line then { p with s := countOut p.s ctx, acks := line :: p.acks } else p

/-- R190, R292: a new request of the team's instruction; one that will be acknowledged counts in the live counter set. -/
def addReq (s : State) (q : Req) : State :=
  let set := (tget s.ctxs q.ctx).map (·.set)
  let s := if acked q.kind then countOut s q.ctx else s
  let q := { q with set := if acked q.kind then set else none, sent := clock s (q.from_ / 2), left := s.now, port := q.from_ / 2 }
  { s with reqs := tput s.reqs s.fresh q, fresh := s.fresh + 1 }

/-- R296: a die numbers a request on the plane it leaves on, one tag for each lane of one that stands for its lanes' requests. -/
def numberReq (s : State) (id : Nat) (q : Req) : State :=
  let tag := tgetD (siteOf s q.from_).tags q.plane 0
  let count := if q.single then q.items.length else 1
  let s := modSite s q.from_ fun x => { x with tags := tput x.tags q.plane ((tag + count) % 65536) }
  { s with reqs := tput s.reqs id { q with tag := tag, origin := some q.plane } }

/-- R296: the requests of an instruction are numbered as they leave. -/
def numberNew (s : State) (team : Nat) : State :=
  (s.reqs.filter fun x => decide (x.2.team = team ∧ x.2.origin = none)).foldl (fun s x => numberReq s x.1 x.2) s

/-- R190: an item joins the request of its line that the instruction has just made, or makes one. -/
def sendItem (s : State) (q : Req) (it : Item) (same : Item → Bool) : State :=
  match s.reqs.find? fun x => decide (x.2.team = q.team ∧ x.2.phase = q.phase ∧ x.2.site = q.site) &&
      (match x.2.items with
        | i :: _ => same i
        | [] => false) with
  | some (k, x) => { s with reqs := tput s.reqs k { x with items := x.items ++ [it], sum := x.sum + q.sum } }
  | none => addReq s { q with items := [it] }

/-- The operand of an addition as a signed number (R296). -/
def signedOf (size x : Nat) : Int := sextN x (8 * size)

/-- R186: a stalled access posts its address to the VF firmware core; R187: a host-bias page is counted. -/
def postPage (s : State) (w : View) (ctx reg va : Nat) (write : Bool) (host : Option Nat) : State :=
  let post : PagePost := ⟨ctx, reg, va, write⟩
  let s := modVf s w.c.dev w.c.vf fun v => if v.posts.contains post then v else { v with posts := v.posts ++ [post] }
  match host with
  | none => s
  | some page => modSite s (ctxSite w.c) fun x =>
      match tget x.flips page with
      | some n => { x with flips := tput x.flips page (n + 1) }
      | none => if x.flips.length < 1024 then { x with flips := tput x.flips page 1 } else x

/-- R186: an access that is made again and again until its page is there posts its address once. -/
def postOnce (s : State) (w : View) (ctx reg va : Nat) (write : Bool) (host : Option Nat) : State :=
  if (vfOf s w.c.dev w.c.vf).posts.contains ⟨ctx, reg, va, write⟩ then s else postPage s w ctx reg va write host

def isWrite : AccKindOp → Bool
  | .store => true
  | .atom _ => true
  | .red _ => true
  | .load _ _ => false
  | .watch => false

/-- R210: the unanswered requests of a context for a line. -/
def lineReqs (s : State) (ctx line : Nat) : List (Nat × Req) :=
  s.reqs.filter fun x => decide (x.2.ctx = ctx) && x.2.items.any fun i => decide (lineOf i.ptr.toNat = line)

/-- R210: a request on its way has taken the route that a new request to its line would take. -/
def sameRoute (q : Req) (st : Start) : Bool :=
  decide (q.site = st.site ∧ q.hops = 0) && match q.phase with
    | .toSite => st.hit
    | .egress => st.hit
    | .combining => st.hit
    | .queued => st.hit
    | .held => st.hit
    | .forwarding => st.hit
    | .replied => st.hit
    | .registry => !st.hit
    | .answered => false
    | .asked => false
    | .notHere => false

/-- R137: the load-store unit holds an access of the context for a full Flume queue, and accepts no further memory instruction
from it. -/
def lsuHeld (s : State) (ctx : Nat) : Bool := s.reqs.any fun x => decide (x.2.ctx = ctx ∧ x.2.phase = .held)

/-- R202: the object of a line is homed on another device than a site's. -/
def awayLine (s : State) (site g : Nat) : Bool := decide (homeSite s g / 2 ≠ site / 2)

/-- R141, R190: an ordinary load whose line the L1 or the die's L2 holds sends no request. -/
def isCached (s : State) (kind : AccKindOp) (ctx site : Nat) (p : Dbl) (size : Nat) : Bool :=
  match kind with
  | .load _ false => (l1Line s ctx p.toNat size).isSome ||
      (l2Line s site (awayLine s site (ptrGoid p)) p.toNat size).isSome
  | _ => false

/-- An object access: served from the copies of its line, or at once where its request goes straight to the site that serves
it, otherwise sent (R178). The requests of a context to one line leave in issue order, and one that would take another route
than an earlier one waits (R210). -/
def objectItem (id : Nat) (op : MemOp) (w : View) (hits : List Nat) (p : Pass) (it : Item) : Pass :=
  let s := p.s
  let ctx := w.b.ctx
  let from_ := ctxSite w.c
  let g := ptrGoid it.ptr
  let it := { it with runs := [(it.ptr.toNat, op.size)] }
  let line := lineOf it.ptr.toNat
  let st := startOf s from_ g
  let (mine, others) := (lineReqs s ctx line).partition fun x => decide (x.2.team = id)
  if !siteExists s (goidSite g) then settle id op it [] ⟨it.lane, 0, 0xC3⟩ p
  else if isCached s op.kind ctx from_ it.ptr op.size then
    let (s, a) := serveItem s op.kind op.size ctx from_ (awayLine s from_ g) false it
    settle id op it hits a { p with s := s }
  else if others.any fun x => !sameRoute x.2 st then { p with busy := true }
  else match unreachable s w.c.dev (st.site / 2) with
    | some c => settle id op it [] ⟨it.lane, 0, c⟩ p
    | none =>
      let q : Req := { team := id, ctx := ctx, from_ := from_, kind := op.kind, size := op.size, dest := op.dest,
                       items := [], site := st.site, phase := if st.hit then .toSite else .registry,
                       plane := planeOf s (st.site / 2) it.ptr.toNat, combine := op.combine, single := op.single,
                       sum := signedOf op.size it.data }
      let sent (s : State) : Pass := { p with s := modTeam s id fun t =>
        { t with served := t.served ||| (1#1024 <<< it.lane.getD 0)
                 watch := t.watch ++ hits.map fun i => (i, it.lane.getD 0) } }
      let same (i : Item) : Bool := if op.combine then decide (i.ptr = it.ptr) else decide (lineOf i.ptr.toNat = line)
      if st.hit && op.combine && decide (st.site / 2 ≠ w.c.dev) then sent (sendItem s { q with phase := .egress } it same)
      else if !st.hit || !mine.isEmpty || !others.isEmpty then sent (sendItem s q it same)
      else match answerAt s st.site g (ptrOff it.ptr) false with
        | .served =>
          let moves := match objAt s st.site g with
            | some e => e.moves
            | none => 0
          let s := if p.seen.contains line then s else countAccess (learn s from_ g st.site moves) st.site g from_
          let (s, a) := serveObject s op.kind op.size ctx from_ st.site g it
          let p := { p with s := s, seen := line :: p.seen }
          settle id op it hits a (if a.fault = 0 then countLine p ctx line op.kind (decide (st.site / 2 ≠ w.c.dev)) else p)
        | .dead => settle id op it [] ⟨it.lane, 0, 0xC0⟩ p
        | _ => sent (sendItem s q it same)

/-- One lane of a memory instruction: the checks of R134 in order, then its access. -/
def memItem (id : Nat) (op : MemOp) (p : Pass) (it : Item) : Pass :=
  match viewOf p.s id with
  | none => p
  | some w =>
    let hits := watchHits p.s w id op.kind it.ptr op.size
    match placeOf p.s w it.ptr op.size with
    | .fault c => settle id op it [] ⟨it.lane, 0, c⟩ p
    | .spad key =>
      let (s, a) := serveItem p.s op.kind op.size w.b.ctx (ctxSite w.c) false true { it with runs := [(key, op.size)] }
      settle id op it hits a { p with s := s }
    | .object =>
      if behindMcast p.s w.b.ctx [(it.ptr.toNat, op.size)] then { p with busy := true } else objectItem id op w hits p it
    | .flat reg => match flatAccess p.s w id (it.lane.getD 0) it.ptr op.size (isWrite op.kind) with
      | .fault c => settle id op it [] ⟨it.lane, 0, c⟩ p
      | .stall va host => { p with s := postPage p.s w w.b.ctx reg va (isWrite op.kind) host, page := true }
      | .runs rs used =>
        if behindMcast p.s w.b.ctx rs then { p with busy := true }
        else
        let s := used.foldl (fun s x => cacheXlat s w.b.ctx reg x.1 x.2) p.s
        let (s, a) := serveItem s op.kind op.size w.b.ctx (ctxSite w.c) false false { it with runs := rs }
        let p := { p with s := s }
        settle id op it hits a (if a.fault = 0 then countLine p w.b.ctx (lineOf it.ptr.toNat) op.kind (decide (reg = 3)) else p)

/-- The memory instruction has taken effect: its acquire, then the next instruction, then its watchpoints (R288). -/
def memDone (s : State) (id len : Nat) (acq : Option Nat) : State :=
  match viewOf s id with
  | none => s
  | some w =>
    let s := match acq with
      | some sc => acquire s w.b.ctx sc
      | none => s
    let hits := w.t.watch
    let s := complete s id { w.t with served := 0, watch := [] } len
    watchStop s id hits

/-- R281, R285: the instruction stops before mask word `more`, or has taken effect. -/
def partDone (s : State) (id len : Nat) (acq : Option Nat) (more : Option Nat) : State :=
  match more with
  | some word => modTeam s id fun t => { t with wait := .none, swept := word, stopAt := none }
  | none => memDone s id len acq

/-- The end of an issue of a memory instruction: a precise cause, a wait, a stop before its remaining mask words (R281, R285),
or its completion. -/
def memEnd (p : Pass) (id len : Nat) (acq : Option Nat) (more : Option Nat) : State :=
  match p.bad with
  | some c => match tget p.s.teams id with
    | some t => raiseAt (modTeam p.s id fun t => { t with served := 0, watch := [] }) id c 0 t.pc
    | none => p.s
  | none =>
    let p := { p with s := numberNew p.s id }
    if p.page then modTeam p.s id fun t => { t with wait := .page }
    else if p.busy || p.s.reqs.any (fun x => decide (x.2.team = id)) then modTeam p.s id fun t => { t with wait := .queued }
    else partDone p.s id len acq more

/-- R135: one lane of a prefetch. It returns nothing and raises no fault; a page that is not present and an object in transit
drop it. With `.nc` it reads the point of coherence, drops the copies and fills none (log 16). -/
def prefetchItem (id : Nat) (nc : Bool) (size : Nat) (s : State) (it : Item) : State :=
  match viewOf s id with
  | none => s
  | some w =>
    let ctx := w.b.ctx
    let site := ctxSite w.c
    match placeOf s w it.ptr size with
    | .fault _ => s
    | .spad _ => s
    | .flat reg => match flatAccess s w id (it.lane.getD 0) it.ptr size false with
      | .runs rs used => (loadRuns (used.foldl (fun s x => cacheXlat s ctx reg x.1 x.2) s) ctx site nc false rs).1
      | _ => s
    | .object =>
      let g := ptrGoid it.ptr
      let runs := [(it.ptr.toNat, size)]
      if isCached s (.load false nc) ctx site it.ptr size then (loadRuns s ctx site nc (awayLine s site g) runs).1
      else match routeTo s w.c.dev site g (ptrOff it.ptr) with
        | (s, some _) => s
        | (s, none) =>
          let home := homeSite s g
          if s.moves.any fun x => decide (x.2.goid = g) then s
          else match sizeEntry s home g with
            | some o =>
              if o.size < ptrOff it.ptr + size then s
              else (loadRuns (countAccess s home g site) ctx site nc (decide (home / 2 ≠ w.c.dev)) runs).1
            | none => s

/-- R136: whether an admitted lane needs the provisional hold. -/
def needsHold (w : View) (op : MemOp) (it : Item) : Bool :=
  if isObject it.ptr then !(decide (op.kind = .store) && w.n.desc.retract.any fun r =>
    decide (ptrGoid r.1 = ptrGoid it.ptr ∧ w.n.desc.floor * r.2 ≤ ptrOff it.ptr))
  else decide (region it.ptr ≠ 2 ∨ sub it.ptr 57 3 ≠ 0)

/-- The release of a memory instruction or fence (R141, R153): what keeps it from going on. -/
inductive Gate where
  | go
  | wait
  | failed (entry : Nat)
deriving DecidableEq, Repr

def releaseGate (w : View) (rel : Option Nat) (reports : Bool) : Gate :=
  match rel with
  | none => .go
  | some sc =>
    if !releaseOk w.c sc then .wait
    else if decide (4 ≤ sc) && reports then match w.t.mcfail with
      | g :: _ => .failed g
      | [] => .go
    else .go

/-- R153: the failure of entry g is raised and no longer pending. -/
def raiseMcfail (s : State) (t : Team) (g : Nat) : State :=
  raise (putTeam s s.cur { t with mcfail := t.mcfail.filter (· ≠ g) }) 0x282 g

/-- The lines an access touches, where it is made now. -/
def itemLines (s : State) (w : View) (id : Nat) (op : MemOp) (it : Item) : List Nat :=
  match placeOf s w it.ptr op.size with
  | .fault _ => []
  | .spad key => [lineOf key]
  | .object => [lineOf it.ptr.toNat]
  | .flat _ => match flatAccess s w id (it.lane.getD 0) it.ptr op.size (isWrite op.kind) with
    | .runs rs _ => rs.map fun r => lineOf r.1
    | _ => []

/-- R281: where an issue that is to stop before mask word `n` stops: lanes that touch one line go together, so that the line is read
once (R140), the lanes of one location are adjacent (R146, R214) and a record is written whole (R208): the first word from `n` on that
parts no line. `lines` has the lane and the lines of each access. -/
def splitWord (lines : List (Nat × List Nat)) (n : Nat) : Nat :=
  ((List.range 32).find? fun k => decide (n ≤ k) && lines.all fun a => decide (k ≤ a.1 / 32) || lines.all fun b =>
    decide (b.1 / 32 < k) || a.2.all fun l => !b.2.contains l).getD 32

/-- R281: the accesses that this issue makes, and the mask word before which it stops where lanes beyond it remain. -/
def stopBefore (s : State) (w : View) (id : Nat) (op : MemOp) (items : List Item) : List Item × Option Nat :=
  match w.t.stopAt with
  | none => (items, none)
  | some n =>
    let n := splitWord (items.map fun i => (i.lane.getD 0, itemLines s w id op i)) n
    let (now, later) := items.partition fun i => decide (i.lane.getD 0 / 32 < n)
    (now, if later.isEmpty then none else some n)

/-- A memory instruction: hold, release, the accesses not yet made, acquire (R134, R139, R145). -/
def runMem (s : State) (w : View) (len : Nat) (rel acq : Option Nat) (op : MemOp) : Out :=
  if heldBack w && isWrite op.kind && op.items.any (needsHold w op) then block s .hold
  else if w.t.served = 0 && lsuHeld s w.b.ctx then block s .queued
  else match (if w.t.served = 0 then releaseGate w rel true else .go) with
    | .wait => block s .release
    | .failed g => .next (raiseMcfail s w.t g)
    | .go =>
      let (items, more) := stopBefore s w s.cur op (op.items.filter fun i => !w.t.served.getLsbD (i.lane.getD 0))
      .next (memEnd (items.foldl (memItem s.cur op) { s := s }) s.cur len acq more)

/-- A load whose destination is a discard operand (R135), or a memory instruction. -/
def runLoad (s : State) (w : View) (len : Nat) (acq : Option Nat) (op : MemOp) (nc : Bool) : Out :=
  if op.dest = 0 then
    if lsuHeld s w.b.ctx then block s .queued
    else .next (memDone (op.items.foldl (prefetchItem s.cur nc op.size) s) s.cur len acq)
  else runMem s w len none acq op

/-- R133: effective addresses of an M64 instruction. -/
def eaOf (t : Team) (kbase : Bool) (va vi : Nat) (imm : Int) (lane : Nat) : Dbl :=
  let base : Dbl := if kbase then kgetD t (va % 64) else BitVec.ofNat 64 (vgetW t lane va 2)
  advance base ((if vi = 0 then 0 else (vget t lane vi).toInt) + imm)

/-- The registers an M64 address reads: the base pair and the index. -/
def baseRegs (kbase : Bool) (va vi : Nat) : List (Nat × Nat) × List (Nat × Nat) :=
  ((if kbase then [] else [(va, 2)]) ++ [(vi, 1)], if kbase then [(va % 64, 2)] else [])

/-- Registers of a size code: b, h and w one, d a pair, q a quad. -/
def sizeRegs (code : Nat) : Nat := if code = 4 then 4 else if code = 3 then 2 else 1

/-- R138-R141: LD and its M-format. -/
def loadOp (s : State) (len code : Nat) (kbase sext nc : Bool) (va vi vd : Nat) (imm : Int) (neg : Bool) (g : BitVec 3)
    (acq : Option Nat) : Out :=
  let (vs, ks) := baseRegs kbase va vi
  withView s [(vd, sizeRegs code)] vs ks fun w =>
    let items := (activeLanes w.t neg g).map fun l => { lane := some l, ptr := eaOf w.t kbase va vi imm l : Item }
    runLoad s w len acq { kind := .load sext nc, size := 2 ^ code, dest := vd, items := items } nc

/-- R138-R141: ST and its M-format. -/
def storeOp (s : State) (len code : Nat) (kbase : Bool) (va vi vs : Nat) (imm : Int) (neg : Bool) (g : BitVec 3)
    (rel : Option Nat) : Out :=
  let (vr, ks) := baseRegs kbase va vi
  withView s [] (vr ++ [(vs, sizeRegs code)]) ks fun w =>
    let items := (activeLanes w.t neg g).map fun l =>
      { lane := some l, ptr := eaOf w.t kbase va vi imm l, data := vgetW w.t l vs (sizeRegs code) : Item }
    runMem s w len rel none { kind := .store, size := 2 ^ code, dest := 0, items := items }

/-- R80: the scope of an ordered access. -/
def scopeIf (b : Bool) (sc : BitVec 3) : Option Nat := if b then some sc.toNat else none

/-- R139: LD. -/
def execLd (o : M64) (s : State) : Out :=
  loadOp s 8 (sub o.m 0 3) (o.m.getLsbD 6) (o.m.getLsbD 3) (o.m.getLsbD 4) o.va.toNat o.vi.toNat o.vd.toNat o.imm.toInt
    o.n o.g (scopeIf (o.m.getLsbD 5) o.sc)

/-- R139: ST. -/
def execSt (o : M64) (s : State) : Out :=
  storeOp s 8 (sub o.m 0 3) (o.m.getLsbD 6) o.va.toNat o.vi.toNat o.vd.toNat o.imm.toInt o.n o.g
    (scopeIf (o.m.getLsbD 5) o.sc)

/-- R72: the M format is the plain, lane-based, unindexed access; imm7 counts access sizes. -/
def ldM (o : Mem32) (code : Nat) (s : State) : Out :=
  loadOp s 4 code false false false o.a.toNat 0 o.d.toNat (o.imm.toInt * 2 ^ code) false o.g none

def stM (o : Mem32) (code : Nat) (s : State) : Out :=
  storeOp s 4 code false o.a.toNat 0 o.d.toNat (o.imm.toInt * 2 ^ code) false o.g none

/-- R72, R139: LD.b. -/
def execLdBM (o : Mem32) (s : State) : Out := ldM o 0 s
/-- R72, R139: LD.h. -/
def execLdHM (o : Mem32) (s : State) : Out := ldM o 1 s
/-- R72, R139: LD.w. -/
def execLdWM (o : Mem32) (s : State) : Out := ldM o 2 s
/-- R72, R139: LD.d. -/
def execLdDM (o : Mem32) (s : State) : Out := ldM o 3 s
/-- R72, R139: LD.q. -/
def execLdQM (o : Mem32) (s : State) : Out := ldM o 4 s
/-- R72, R139: ST.b. -/
def execStBM (o : Mem32) (s : State) : Out := stM o 0 s
/-- R72, R139: ST.h. -/
def execStHM (o : Mem32) (s : State) : Out := stM o 1 s
/-- R72, R139: ST.w. -/
def execStWM (o : Mem32) (s : State) : Out := stM o 2 s
/-- R72, R139: ST.d. -/
def execStDM (o : Mem32) (s : State) : Out := stM o 3 s
/-- R72, R139: ST.q. -/
def execStQM (o : Mem32) (s : State) : Out := stM o 4 s

/-- R142: the address of a uniform access. -/
def kea (t : Team) (o : M64) : Dbl := advance (kgetD t (sub o.va 0 6)) o.imm.toInt

/-- R142: KLD. -/
def execKld (o : M64) (s : State) : Out :=
  let code := sub o.m 1 3
  let kd := sub o.vd 0 6
  withView s [] [] [(sub o.va 0 6, 2)] (kd := [(kd, sizeRegs code)]) fun w =>
    let op : MemOp := ⟨.load (o.m.getLsbD 4) (o.m.getLsbD 6), 2 ^ code, kd, [{ lane := none, ptr := kea w.t o }], false, false⟩
    runLoad s w 8 (scopeIf (o.m.getLsbD 5) o.sc) op (o.m.getLsbD 6)

/-- R142: KST. -/
def execKst (o : M64) (s : State) : Out :=
  let code := sub o.m 1 3
  let ks := sub o.vd 0 6
  withView s [] [] [(sub o.va 0 6, 2), (ks, sizeRegs code)] fun w =>
    let x := if code = 3 then (kgetD w.t ks).toNat else (kget w.t ks).toNat
    let op : MemOp := ⟨.store, 2 ^ code, 0, [{ lane := none, ptr := kea w.t o, data := x }], false, false⟩
    runMem s w 8 (scopeIf (o.m.getLsbD 5) o.sc) none op

/-- R143-R148: ATOM. A cas takes its comparand from the first half of its operand group. -/
def atomOp (op : AtomOp) (combine single : Bool) (o : M64) (s : State) : Out :=
  let n := if o.m.getLsbD 7 then 2 else 1
  let kbase := o.m.getLsbD 6
  let wi := if op = .cas then 2 * n else n
  let order := sub o.m 4 2
  withView s [(o.vd.toNat, n)] ((if kbase then [] else [(o.va.toNat, 2)]) ++ [(o.vi.toNat, wi)])
      (if kbase then [(sub o.va 0 6, 2)] else []) fun w =>
    let items : List Item := (activeLanes w.t o.n o.g).map fun l =>
      let x := vgetW w.t l o.vi.toNat wi
      let half := 2 ^ (32 * n)
      let ea := eaOf w.t kbase o.va.toNat 0 o.imm.toInt l
      ⟨some l, ea, [], if op = .cas then x / half else x, if op = .cas then x % half else 0⟩
    runMem s w 8 (scopeIf (decide (2 ≤ order)) o.sc) (scopeIf (order % 2 = 1) o.sc)
      ⟨.atom op, 4 * n, o.vd.toNat, items, combine, single⟩

/-- R143, R146: RED sends one request per lane group, and its locations take the lanes in increasing order. -/
def redOp (op : AtomOp) (combine : Bool) (o : M64) (s : State) : Out :=
  let n := if o.m.getLsbD 7 then 2 else 1
  let kbase := o.m.getLsbD 6
  let (vr, ks) := baseRegs kbase o.va.toNat o.vi.toNat
  withView s [] (vr ++ [(o.vd.toNat, n)]) ks fun w =>
    let items : List Item := (activeLanes w.t o.n o.g).map fun l =>
      ⟨some l, eaOf w.t kbase o.va.toNat o.vi.toNat o.imm.toInt l, [], vgetW w.t l o.vd.toNat n, 0⟩
    runMem s w 8 (scopeIf (sub o.m 4 2 = 2) o.sc) none ⟨.red op, 4 * n, 0, items, combine, false⟩

/-- R145: ATOM.add. -/
def execAtomAdd (o : M64) (s : State) : Out := atomOp .add true true o s
/-- R146: ATOM.add.cmb. -/
def execAtomAddCmb (o : M64) (s : State) : Out := atomOp .add true false o s
/-- R147: ATOM.add.noc. -/
def execAtomAddNoc (o : M64) (s : State) : Out := atomOp .add false false o s
/-- R146, R147: ATOM.add.cmb.noc. -/
def execAtomAddCmbNoc (o : M64) (s : State) : Out := atomOp .add false false o s
/-- R145: ATOM.min. -/
def execAtomMin (o : M64) (s : State) : Out := atomOp .min false false o s
/-- R145: ATOM.max. -/
def execAtomMax (o : M64) (s : State) : Out := atomOp .max false false o s
/-- R145: ATOM.min.n. -/
def execAtomMinN (o : M64) (s : State) : Out := atomOp .minN false false o s
/-- R145: ATOM.max.n. -/
def execAtomMaxN (o : M64) (s : State) : Out := atomOp .maxN false false o s
/-- R145: ATOM.and. -/
def execAtomAnd (o : M64) (s : State) : Out := atomOp .and false false o s
/-- R145: ATOM.or. -/
def execAtomOr (o : M64) (s : State) : Out := atomOp .or false false o s
/-- R145: ATOM.xor. -/
def execAtomXor (o : M64) (s : State) : Out := atomOp .xor false false o s
/-- R145: ATOM.exch. -/
def execAtomExch (o : M64) (s : State) : Out := atomOp .exch false false o s
/-- R144, R145: ATOM.cas. -/
def execAtomCas (o : M64) (s : State) : Out := atomOp .cas false false o s
/-- R145: ATOM.fadd. -/
def execAtomFadd (o : M64) (s : State) : Out := atomOp .fadd false false o s
/-- R146: RED.add. -/
def execRedAdd (o : M64) (s : State) : Out := redOp .add true o s
/-- R147: RED.add.noc. -/
def execRedAddNoc (o : M64) (s : State) : Out := redOp .add false o s
/-- R146: RED.min. -/
def execRedMin (o : M64) (s : State) : Out := redOp .min false o s
/-- R146: RED.max. -/
def execRedMax (o : M64) (s : State) : Out := redOp .max false o s
/-- R146: RED.min.n. -/
def execRedMinN (o : M64) (s : State) : Out := redOp .minN false o s
/-- R146: RED.max.n. -/
def execRedMaxN (o : M64) (s : State) : Out := redOp .maxN false o s
/-- R146: RED.and. -/
def execRedAnd (o : M64) (s : State) : Out := redOp .and false o s
/-- R146: RED.or. -/
def execRedOr (o : M64) (s : State) : Out := redOp .or false o s
/-- R146: RED.xor. -/
def execRedXor (o : M64) (s : State) : Out := redOp .xor false o s

end Sys2Proof.Machine
end

