-- ==== Sys2Proof/Machine/Sync.lean ====
section
/-! DEFINITION. WAITA (R149, R150), fences (R151), multicast stores (R152, R153), barriers (R154-R158), tags and timelines
(R159-R162). -/
namespace Sys2Proof.Machine

/-! ### WAITA -/

/-- What one lane of a WAITA watches: its runs, or why it watches nothing. -/
inductive WatchRes where
  | fault (cause : Nat)
  | stall (reg va : Nat) (host : Option Nat)
  | transfer
  | runs (rs : List (Nat × Nat)) (used : List (Nat × Xlat)) (spad : Bool)
deriving DecidableEq, Repr

/-- R149, R134: the checks of one lane; an object is watched at its point of coherence, wherever it is (log 13). -/
def watchOf (s : State) (w : View) (id lane : Nat) (ea : Dbl) (size : Nat) : WatchRes :=
  match placeOf s w ea size with
  | .fault c => .fault c
  | .spad key => .runs [(key, size)] [] true
  | .flat reg => match flatAccess s w id lane ea size false with
    | .fault c => .fault c
    | .stall va host => .stall reg va host
    | .runs rs used => if behindMcast s w.b.ctx rs then .transfer else .runs rs used false
  | .object =>
    let g := ptrGoid ea
    match (routeTo s w.c.dev (ctxSite w.c) g (ptrOff ea)).2 with
    | some c => .fault c
    | none => match sizeEntry s (homeSite s g) g with
      | none => .fault 0xC0
      | some e =>
        if e.size < ptrOff ea + size then .fault 0xC1
        else if answerAt s (homeSite s g) g (ptrOff ea) false = .queued || behindMcast s w.b.ctx [(ea.toNat, size)] then .transfer
        else .runs [(ea.toNat, size)] [] false

/-- The value at the point of coherence under some runs, or the cause of an uncorrectable error. -/
def rawRuns (s : State) (rs : List (Nat × Nat)) : Except Nat Nat :=
  match rs.findSome? fun r => lineErr s r.1 with
  | some e => .error e
  | none => .ok (rs.foldr (fun r acc => readNat s.mem r.1 r.2 + acc * 256 ^ r.2) 0)

/-- R150: a monitor watches an address for some team. -/
def monitored (s : State) (key : Nat) : Bool :=
  s.teams.any fun x => match x.2.wait with
    | .waita _ _ ws => ws.any fun y => y.mon && decide (y.key = key)
    | _ => false

/-- R150: the watches of a wait: a scratchpad word is watched in its core, waiters on one address share its monitor, and a new
address takes one where the table has room (log 13). -/
def takeWatches (s : State) (runs : List (Nat × Nat × Bool)) : State × List Watch :=
  runs.foldl (fun (acc : State × List Watch) r =>
    let w (mon : Bool) : Watch := ⟨r.1, r.2.1, readNat acc.1.mem r.1 r.2.1, mon⟩
    if r.2.2 || monitored acc.1 r.1 then (acc.1, acc.2 ++ [w true])
    else match acc.2.find? fun y => decide (y.key = r.1) with
      | some y => (acc.1, acc.2 ++ [w y.mon])
      | none => ({ acc.1 with stamp := acc.1.stamp + 1 }, acc.2 ++ [w (Config.monitorFree acc.1.stamp)])) (s, [])

/-- A lane of a WAITA that passed its checks: the lane, its pointer, its runs, the translations used, whether its word lies in a
scratchpad. -/
structure WatchLane where
  lane : Nat
  ea : Dbl
  runs : List (Nat × Nat)
  used : List (Nat × Xlat)
  spad : Bool

/-- R149: the wait is over: each lane loads its word, the acquire follows. -/
def waitaDone (s : State) (w : View) (o : M64) (good : List WatchLane) (value : WatchLane → Nat) : State :=
  let id := s.cur
  let site := ctxSite w.c
  let size := if o.m.getLsbD 2 then 8 else 4
  let s := good.foldl (fun s g =>
    let s := g.used.foldl (fun s x => cacheXlat s w.b.ctx (region g.ea) x.1 x.2) s
    let s := if isObject g.ea then countAccess (routed s w.c g.ea) (homeSite s (ptrGoid g.ea)) (ptrGoid g.ea) site else s
    if g.spad then s else g.runs.foldl (fun s r => dropLine s w.b.ctx site (lineOf r.1)) s) s
  let s := modTeam s id fun t => good.foldl (fun t g =>
    { loadTo t false size o.vd.toNat g.lane (value g) with
      watch := t.watch ++ (watchHits s w id .watch g.ea size).map fun i => (i, g.lane) }) t
  memDone s id 8 (scopeIf (o.m.getLsbD 3) o.sc)

/-- R149: a WAITA that cannot look at its words now waits until it can; one that has been woken stays so, and ends then (R150, R168). -/
def waitaHeld (t : Team) (w : Wait) : Wait :=
  match t.wait with
  | .waita true since watch => .waita true since watch
  | _ => w

/-- R149: lanes whose checks fail, or whose word holds an uncorrectable error, are switched off; the others wait until a word
differs, or are woken; then each loads its word, and the acquire follows. One that meets a frame in transfer waits as R173 gives and
ends as a spurious wakeup. -/
def execWaita (o : M64) (s : State) : Out :=
  let n := if o.m.getLsbD 2 then 2 else 1
  let size := 4 * n
  let kbase := o.m.getLsbD 6
  withView s [(o.vd.toNat, n)] ((if kbase then [] else [(o.va.toNat, 2)]) ++ [(o.vi.toNat, n)])
      (if kbase then [(sub o.va 0 6, 2)] else []) fun w =>
    let id := s.cur
    if decide (w.t.wait = .none ∨ w.t.wait = .queued) && lsuHeld s w.b.ctx then block s .queued
    else
      let rs := (activeLanes w.t o.n o.g).map fun l =>
        let ea := eaOf w.t kbase o.va.toNat 0 o.imm.toInt l
        (l, ea, watchOf s w id l ea size)
      let bad := rs.filterMap fun r => match r.2.2 with
        | .fault c => some (r.1, c)
        | .runs runs _ _ => (runs.findSome? fun x => lineErr s x.1).map fun c => (r.1, c)
        | _ => none
      let s := modTeam s id fun t => bad.foldl (fun t x => laneFault t x.1 x.2) t
      let stalls := rs.filterMap fun r => match r.2.2 with
        | .stall reg va host => some (reg, va, host)
        | _ => none
      if !stalls.isEmpty then
        let woken := waitaHeld w.t .page
        let s := stalls.foldl (fun s x => (if woken = .page then postPage else postOnce) s w w.b.ctx x.1 x.2.1 false x.2.2) s
        .next (modTeam s id fun t => { t with wait := woken })
      else if rs.any fun r => decide (r.2.2 = .transfer) then
        .next (modTeam s id fun t => { t with wait := waitaHeld w.t (.waita true (clock s w.c.dev) []) })
      else
        let good : List WatchLane := rs.filterMap fun r => match r.2.2 with
          | .runs runs used spad =>
            if bad.any fun b => decide (b.1 = r.1) then none else some ⟨r.1, r.2.1, runs, used, spad⟩
          | _ => none
        let value (g : WatchLane) : Nat := match rawRuns s g.runs with
          | .ok x => x
          | .error _ => 0
        let woken := match w.t.wait with
          | .waita woken _ _ => woken
          | _ => false
        if good.isEmpty || woken || good.any (fun g => decide (value g ≠ vgetW w.t g.lane o.vi.toNat n)) then
          .next (waitaDone s w o good value)
        else
          let (s, watch) := takeWatches s (good.flatMap fun g => g.runs.map fun r => (r.1, r.2, g.spad))
          .next (modTeam s id fun t => { t with wait := .waita false (clock s w.c.dev) watch })

/-- R149: a waiting team is woken. -/
def wake (t : Team) : Team :=
  match t.wait with
  | .waita _ since watch => { t with wait := .waita true since watch }
  | _ => t

/-- R149: a watched word that a monitor watches (`mon`), or that none does, differs from the value waited on. -/
def watchDiffers (s : State) (mon : Bool) (t : Team) : Bool :=
  match t.wait with
  | .waita _ _ watch => watch.any fun y => y.mon == mon && decide (readNat s.mem y.key y.bytes ≠ y.value)
  | _ => false

/-- R149, R150: after a step, every monitor whose word changed wakes the teams that wait on it. -/
def wakeWatchers (s : State) : State :=
  { s with teams := s.teams.map fun x => if watchDiffers s true x.2 then (x.1, wake x.2) else x }

/-- R173, R188: the watches on keys of [lo, hi) end as spurious wakeups. -/
def wakeRange (s : State) (lo hi : Nat) : State :=
  { s with teams := s.teams.map fun x => match x.2.wait with
      | .waita _ _ watch => if watch.any fun y => decide (lo ≤ y.key ∧ y.key < hi) then (x.1, wake x.2) else x
      | _ => x }

/-- R150: WAITA_RECHECK: the words without a monitor are looked at every 4,096 ac. -/
def execWaitaRecheck (team : Nat) (s : State) : Out :=
  match viewOf s team with
  | none => .next s
  | some w => match w.t.wait with
    | .waita false since watch =>
      let now := clock s w.c.dev
      if !(watch.any fun y => !y.mon) || decide (now < since + Config.recheckAc) then .next s
      else .next (putTeam s team (if watchDiffers s false w.t then wake w.t else { w.t with wait := .waita false now watch }))
    | _ => .next s

/-- R149: SPURIOUS_WAKEUP. -/
def execSpuriousWakeup (team : Nat) (s : State) : Out := .next (modTeam s team wake)

/-! ### Fences (R151) -/

/-- R151: a fence: its release, then its acquire. It makes no access, and the load-store unit does not keep it for a full Flume queue
(log 37). -/
def fence (s : State) (rel acq : Option Nat) : Out :=
  withView s [] [] [] fun w => match releaseGate w rel true with
    | .wait => block s .release
    | .failed g => .next (raiseMcfail s w.t g)
    | .go => .next (memDone s s.cur 8 acq)

/-- R151: FENCE.acq. -/
def execFenceAcq (o : M64) (s : State) : Out := fence s none (some o.sc.toNat)
/-- R151: FENCE.rel. -/
def execFenceRel (o : M64) (s : State) : Out := fence s (some o.sc.toNat) none
/-- R151: FENCE.ar. -/
def execFenceAr (o : M64) (s : State) : Out := fence s (some o.sc.toNat) (some o.sc.toNat)
/-- R208: a multicast store of the team has not reached every member. -/
def mcastOut (s : State) (id : Nat) : Bool :=
  s.fabric.msgs.any fun x => match x.2 with
    | .mcast team _ _ _ _ _ _ _ _ _ => decide (team = id)
    | _ => false

/-- R151, R208: FENCE.rec waits until every store of the team has reached L2 (an ordinary store has when it completes, log 7),
then empties the record cache. -/
def execFenceRec (s : State) : Out :=
  withView s [] [] [] fun w =>
    if mcastOut s s.cur then block s .release
    else .next (complete (modCtx s w.b.ctx fun c => { c with records := [] }) s.cur w.t 8)

/-! ### Multicast stores (R152, R153, R304) -/

/-- R306: the entry g of a context's group table, when it is valid. -/
def groupOf (c : Ctx) (g : Nat) : Option Group := (tget c.groups g).filter (·.valid)

def addMsg (s : State) (m : Msg) : State :=
  { s with fabric := { s.fabric with msgs := tput s.fabric.msgs s.fresh m }, fresh := s.fresh + 1 }

/-- R304: the bytes of some lanes of a multicast store, gathered by line of the window, the lowest lane first. -/
def byLine (stores : List (Nat × List Byte)) : List (List (Nat × List Byte)) :=
  (stores.map fun x => x.1 / 64).eraseDups.map fun line => stores.filter fun x => decide (x.1 / 64 = line)

/-- R152, R295, R304: ST.mc: the admitted lanes' bytes leave for every member's window as one request for each line, on the plane
of the group and the line of the window (log 15). It stops at a mask word as a store does (R281, R285), and waits for an unanswered
request of the context to a line it writes (R195, R210). -/
def execStMc (o : M64) (s : State) : Out :=
  let size := 2 ^ sub o.m 2 3
  let g := o.imm.toNat
  let n := sizeRegs (sub o.m 2 3)
  withView s [] [(o.va.toNat, 2), (o.vd.toNat, n)] [] fun w =>
    let id := s.cur
    let lanes := (activeLanes w.t o.n o.g).filter fun l => !w.t.served.getLsbD l
    let first := decide (w.t.served = 0)
    if heldBack w && !lanes.isEmpty then block s .hold
    else if first && lsuHeld s w.b.ctx then block s .queued
    else match groupOf w.c g with
      | none => .next (raise s 0x240 g)
      | some e => match (if first then releaseGate w (scopeIf (o.m.getLsbD 5) o.sc) false else .go) with
        | .wait => block s .release
        | .failed _ => .next s
        | .go =>
          let off (l : Nat) := vgetW w.t l o.va.toNat 2
          let check (l : Nat) : Option Nat :=
            if off l % size ≠ 0 then some 0x44
            else if e.bytes.toNat < off l + size then some 0x82
            else if (livePlanes s).isEmpty then some 0x281
            else none
          let word := w.t.stopAt.map (splitWord (lanes.map fun l => (l, [off l / 64])))
          let (now, later) := lanes.partition fun l => word.all fun k => decide (l / 32 < k)
          let (bad, good) := now.partition fun l => (check l).isSome
          let ranks := setLanes e.members 1024
          if !s.reqs.isEmpty && (windowLines s e.gid (good.map off) ranks).any fun line => !(lineReqs s w.b.ctx line).isEmpty then
            block s .queued
          else
          let s := modTeam s id fun t =>
            let t := bad.foldl (fun t l => laneFault t l ((check l).getD 0)) t
            { t with served := t.served ||| laneSet now
                     watch := t.watch ++ good.flatMap fun l =>
                       (watchHits s w id .store (e.base + BitVec.ofNat 64 (off l)) size).map fun i => (i, l) }
          let s := (byLine (good.map fun l => (off l, natBytes size (vgetW w.t l o.vd.toNat n)))).foldl (fun s data =>
            addMsg (countOut s w.b.ctx) (.mcast id w.b.ctx g e.gid (planeOf s e.gid ((data.headD (0, [])).1)) w.c.set data
              ranks 0 false)) s
          .next (partDone s id 8 none (if later.isEmpty then none else word))

/-! ### Barriers (R154-R157) -/

/-- R156: the scope of a barrier. -/
def barScope (b : Nat) : Nat := if b < 16 then 1 else if b < 24 then 2 else 3

/-- R154: the checks every barrier instruction makes, then its meaning. -/
def withBar (s : State) (ks : List (Nat × Nat)) (b : Nat) (f : View → BarRef → Out) (kd : List (Nat × Nat) := []) : Out :=
  withView s [] [] ks (kd := kd) fun w => match barRef w b with
    | none => .next (raise s 0x121 b)
    | some r =>
      if decide (b < 16) && !(tgetD w.b.barMask b 0).testBit w.t.num then .next (raise s 0x122 b)
      else f w r

/-- R156: the arrival would count. -/
def arrives (s : State) (w : View) (r : BarRef) (b : Nat) : Bool :=
  let x := barOf s r
  !x.overrun && decide (tget w.t.counted b ≠ some x.phase)

/-- R156, R157: a counted arrival. -/
def arrive (s : State) (w : View) (r : BarRef) (b : Nat) : State :=
  if arrives s w r b then
    let x := barOf s r
    let s := modTeam s s.cur fun t => { t with counted := tput t.counted b x.phase }
    barTest (putBar s r { x with arrived := x.arrived ++ [s.cur] }) r
  else s

/-- R156: the phase of the team's last counted arrival has completed, or it never arrived. -/
def barPassed (s : State) (t : Team) (r : BarRef) (b : Nat) : Bool :=
  match tget t.counted b with
  | some p => decide (p < (barOf s r).phase)
  | none => true

/-- The wait of BAR.wait and BAR.sync. -/
def barWaitPart (s : State) (ctx : Nat) (r : BarRef) (b : Nat) : Out :=
  if (barOf s r).overrun then .next (raise s (0x100 + b) b)
  else match tget s.teams s.cur with
    | none => .next s
    | some t =>
      if barPassed s t r b then .next (complete (acquire s ctx (barScope b)) s.cur t 8)
      else block s .barrier

/-- The hold of R136 and the release of R156 before an arrival. -/
def barGate (s : State) (w : View) (r : BarRef) (b : Nat) (k : Unit → Out) : Out :=
  if decide (24 ≤ b) && heldBack w then block s .hold
  else if arrives s w r b && !releaseOk w.c (barScope b) then block s .release
  else k ()

/-- R156: BAR.arv. -/
def execBarArv (o : A64) (s : State) : Out :=
  let b := sub o.vc 0 5
  withBar s [] b fun w r => barGate s w r b fun _ =>
    let s := arrive s w r b
    match tget s.teams s.cur with
    | some t => .next (complete s s.cur t 8)
    | none => .next s

/-- R156: BAR.wait. -/
def execBarWait (o : A64) (s : State) : Out :=
  let b := sub o.vc 0 5
  withBar s [] b fun w r => barWaitPart s w.b.ctx r b

/-- R156: BAR.sync arrives, then waits; re-issued while it waits, it makes no second arrival. -/
def execBarSync (o : A64) (s : State) : Out :=
  let b := sub o.vc 0 5
  withBar s [] b fun w r =>
    if w.t.wait = .barrier then barWaitPart s w.b.ctx r b
    else if (barOf s r).overrun then .next (raise s (0x100 + b) b)
    else barGate s w r b fun _ => barWaitPart (arrive s w r b) w.b.ctx r b

/-- R155, R156: BAR.exp adds k[ka] + n to the counter of the phase of the team's next counted arrival. -/
def execBarExp (o : A64) (s : State) : Out :=
  let b := sub o.vc 0 5
  let ka := sub o.va 0 6
  withBar s [(ka, 1)] b fun w r =>
    let x := barOf s r
    let bytes := (kget w.t ka).toNat + o.pb.toNat * 256 + o.pa.toNat
    let parity := if tget w.t.counted b = some x.phase then x.phase + 1 else x.phase
    let c := counterOf x parity + (bytes : Int)
    if 2 ^ 31 ≤ bytes ∨ (2 ^ 31 : Int) ≤ c then .next (raise s 0x123 b)
    else if x.overrun then .next (complete s s.cur w.t 8)
    else
      let s := barTest (putBar s r (setCounter x parity c)) r
      match tget s.teams s.cur with
      | some t => .next (complete s s.cur t 8)
      | none => .next s

/-- R156: BAR.test. -/
def execBarTest (o : A64) (s : State) : Out :=
  let b := sub o.vc 0 5
  let kd := sub o.vd 0 6
  withBar s [] b (kd := [(kd, 1)]) fun w r =>
    if (barOf s r).overrun then .next (raise s (0x100 + b) b)
    else if barPassed s w.t r b then .next (complete (acquire s w.b.ctx (barScope b)) s.cur (kset w.t kd 1) 8)
    else .next (complete s s.cur (kset w.t kd 0) 8)

/-! ### Tags (R159, R160, R162) -/

/-- R159: the tags of a mask, rising. -/
def tagMask (t : Team) (o : I64) : List Nat :=
  let m := kgetD t (sub o.va 0 6) ||| o.imm.setWidth 64
  (List.range 64).filter fun i => m.getLsbD i

def tagOf (b : Block) (i : Nat) : Tag := tgetD b.tags i {}
def putTag (b : Block) (i : Nat) (x : Tag) : Block := { b with tags := tput b.tags i x }
/-- R160: a tag that can never be set again without a new operation. -/
def deadTag (b : Block) (i : Nat) : Bool := !(tagOf b i).ready && decide ((tagOf b i).count = 0)

/-- R160, R162: TAG.wait. -/
def execTagWait (o : I64) (s : State) : Out :=
  let any := o.m.getLsbD 3
  withView s [] [] [(sub o.va 0 6, 2)] fun w =>
    let tags := tagMask w.t o
    let ready (i : Nat) := (tagOf w.b i).ready
    let dead := tags.filter (deadTag w.b)
    if tags.isEmpty then .next (complete s s.cur w.t 8)
    else if if any then decide (dead.length = tags.length) else !dead.isEmpty then .next (raise s 0x124 (dead.headD 0))
    else if !(if any then tags.any ready else tags.all ready) then block s .tag
    else match tags.filter fun i => ready i && (tagOf w.b i).err with
      | [] => .next (complete s s.cur w.t 8)
      | e :: es => .next (raise (putBlock s w.t.block ((e :: es).foldl (fun b i => putTag b i { tagOf b i with err := false }) w.b))
          0x181 e)

/-- R160: TAG.ffs. -/
def execTagFfs (o : I64) (s : State) : Out :=
  let kd := sub o.vd 0 6
  withView s [] [] [(sub o.va 0 6, 2)] (kd := [(kd, 1)]) fun w =>
    finish s (kset w.t kd (BitVec.ofNat 32 (((tagMask w.t o).find? fun i => (tagOf w.b i).ready).getD 64))) 8

/-- R160: TAG.clr. -/
def execTagClr (o : I64) (s : State) : Out :=
  withView s [] [] [(sub o.va 0 6, 2)] fun w =>
    let b := (tagMask w.t o).foldl (fun b i => if (tagOf b i).count = 0 then putTag b i { tagOf b i with ready := false } else b) w.b
    .next (complete (putBlock s w.t.block b) s.cur w.t 8)

/-! ### Timelines (R161, R162) -/

/-- R159: a timeline by its engine code: copy, matrix, gather of the block; coll, flume of the context. -/
def timelineOf (w : View) (e : Nat) : Timeline :=
  match e with
  | 0 => w.b.copy
  | 1 => w.b.mat
  | 2 => w.b.gath
  | 3 => w.c.coll
  | _ => w.c.flume

def putTimeline (s : State) (w : View) (e : Nat) (x : Timeline) : State :=
  match e with
  | 0 => modBlock s w.t.block fun b => { b with copy := x }
  | 1 => modBlock s w.t.block fun b => { b with mat := x }
  | 2 => modBlock s w.t.block fun b => { b with gath := x }
  | 3 => modCtx s w.b.ctx fun c => { c with coll := x }
  | _ => modCtx s w.b.ctx fun c => { c with flume := x }

/-- R161: a new operation takes the next number. -/
def tlIssue (x : Timeline) : Timeline := { x with issued := x.issued + 1 }

/-- R161: the counter advances over the numbers completed beyond it. -/
def tlCatchUp : Nat → Timeline → Timeline
  | 0, x => x
  | n + 1, x => if x.ahead.contains (x.count + 1)
      then tlCatchUp n { x with count := x.count + 1, ahead := x.ahead.filter (· ≠ x.count + 1) } else x

/-- R161, R162: operation `n` has completed, been refused or failed. -/
def tlDone (x : Timeline) (n : Nat) (failed : Bool) : Timeline :=
  let x := { x with ahead := n :: x.ahead, failed := if failed then n :: x.failed else x.failed }
  tlCatchUp x.ahead.length x

/-- R161, R162: TL.wait. -/
def execTlWait (o : I64) (s : State) : Out :=
  let e := sub o.m 3 3
  withView s [] [] [(sub o.va 0 6, 2)] fun w =>
    let n := (kgetD w.t (sub o.va 0 6) + o.imm.signExtend 64).toNat
    let x := timelineOf w e
    if x.issued < n then .next (raise s 0x125 (n % 2 ^ 32))
    else if x.count < n then block s .timeline
    else match x.failed.filter (· ≤ n) with
      | [] => .next (complete (if 3 ≤ e then acquire s w.b.ctx 4 else s) s.cur w.t 8)
      | f :: fs => .next (raise (putTimeline s w e { x with failed := x.failed.filter fun y => decide (n < y) })
          0x181 (fs.foldl min f % 2 ^ 32))

/-- R161: TL.rd. -/
def execTlRd (o : I64) (s : State) : Out :=
  let e := sub o.m 3 3
  let kd := sub o.vd 0 6
  withView s [] [] [] (kd := [(kd, 2)]) fun w =>
    let x := timelineOf w e
    finish s (ksetD w.t kd (BitVec.ofNat 64 (if o.imm.getLsbD 0 then x.issued else x.count))) 8

end Sys2Proof.Machine
end

