-- ==== Sys2Proof/Machine/Objects.lean ====
section
/-! DEFINITION. Objects: the object instructions (R163-R167), the moves of the Flume (R173, R174, R177, R181-R183), the
requests on their way to a home (R178-R180, R190-R192), windows, stubs, sketches and purges. -/
namespace Sys2Proof.Machine

/-! ### Frames, flume numbers -/

/-- R172: frames of an object of a size. -/
def framesOf (size : Nat) : Nat := (size + Config.frameBytes - 1) / Config.frameBytes

/-- R182: the other die of a site's device holds the copy of a twin. -/
def partner (site : Nat) : Nat := if site % 2 = 0 then site + 1 else site - 1

/-- R172: frames of a tier at a site. -/
def tierSize (tier2 : Bool) : Nat := if tier2 then Config.tier2Frames else Config.tier1Frames

/-- R172, R177, R182: the frames of a site's tier that objects hold there, twins' copies and those that moves have taken
included. -/
def heldFrames (s : State) (site : Nat) (tier2 : Bool) : List Nat :=
  let own (i : Nat) (copy : Bool) : List Nat := (siteOf s i).objects.flatMap fun x =>
    if x.2.tier2 = tier2 then (if copy then x.2.copy else x.2.frames) else []
  let coming (m : Move) : List Nat := ((m.goid, m.tier2, m.got, m.copy) :: m.rest).flatMap fun r =>
    if r.2.1 ≠ tier2 then [] else if m.dst = site then r.2.2.1 else if m.dst = partner site then r.2.2.2 else []
  own site false ++ own (partner site) true ++ s.moves.flatMap fun x => coming x.2

def retiredOf (x : Site) (tier2 : Bool) : List Nat := if tier2 then x.retired2 else x.retired1

/-- R172, R323: the free frames of a site's tier; a retired frame is in no free list, and one that an object holds leaves it
when the object gives it back. -/
def freeFrames (s : State) (site : Nat) (tier2 : Bool) : Nat :=
  let x := siteOf s site
  let held := heldFrames s site tier2
  (if tier2 then x.frames2 else x.frames1) - ((retiredOf x tier2).filter fun f => !held.contains f).length

/-- The first frame from a number on that is not in use. -/
def nextFrame (used : List Nat) (total : Nat) : Nat → Nat → Nat
  | 0, f => f
  | n + 1, f => if used.contains f then nextFrame used total n ((f + 1) % total) else f

/-- Frames not in use, each from where an implementation looks first (log 36). -/
def pickFrames (total stamp : Nat) (used : List Nat) : Nat → List Nat
  | 0 => []
  | n + 1 =>
    let fs := pickFrames total stamp used n
    nextFrame (fs ++ used) total (n + used.length) (Config.framePick (stamp + n) % total) :: fs

/-- Takes free frames of a site's tier. -/
def takeFrames (s : State) (site : Nat) (tier2 : Bool) (n : Nat) : State × List Nat :=
  let fs := pickFrames (tierSize tier2) s.stamp (heldFrames s site tier2 ++ retiredOf (siteOf s site) tier2) n
  (modSite { s with stamp := s.stamp + n } site fun x =>
    if tier2 then { x with frames2 := x.frames2 - n } else { x with frames1 := x.frames1 - n }, fs)

/-- Gives frames of a site's tier back. -/
def giveFrames (s : State) (site : Nat) (tier2 : Bool) (n : Nat) : State :=
  modSite s site fun x => if tier2 then { x with frames2 := x.frames2 + n } else { x with frames1 := x.frames1 + n }

/-- R182: takes the frames of an object, and those of a twin's copy at the partner. -/
def takeBoth (s : State) (site : Nat) (tier2 twin : Bool) (n : Nat) : State × List Nat × List Nat :=
  let (s, fs) := takeFrames s site tier2 n
  if twin then
    let (s, cs) := takeFrames s (partner site) tier2 n
    (s, fs, cs)
  else (s, fs, [])

def giveBoth (s : State) (site : Nat) (tier2 twin : Bool) (n : Nat) : State :=
  let s := giveFrames s site tier2 n
  if twin then giveFrames s (partner site) tier2 n else s

def fits (s : State) (site : Nat) (tier2 twin : Bool) (n : Nat) : Bool :=
  decide (n ≤ freeFrames s site tier2) && (!twin || decide (n ≤ freeFrames s (partner site) tier2))

/-- R172: entries of a site's object table, those of moves on their way in counted. -/
def tableUse (s : State) (site : Nat) : Nat :=
  (siteOf s site).objects.length + ((s.moves.filter fun x => decide (x.2.dst = site ∧ x.2.src ≠ site)).map
    fun x => 1 + x.2.rest.length).sum

/-- R161: the next number of a context's flume timeline. -/
def issueFlume (s : State) (ctx : Nat) : State × Nat :=
  match tget s.ctxs ctx with
  | some c => (putCtx s ctx { c with flume := tlIssue c.flume }, c.flume.issued + 1)
  | none => (s, 0)

/-- R161, R174: numbers of flume timelines complete. -/
def flumeDone (s : State) (asked : List (Nat × Nat)) : State :=
  asked.foldl (fun s a => modCtx s a.1 fun c => { c with flume := tlDone c.flume a.2 false }) s

/-- Every cached copy of the lines of [lo, hi) goes, and of the records in it (R208, R274). -/
def flushRange (s : State) (lo hi : Nat) : State :=
  let keep (t : Tbl (List Byte)) := t.filter fun x => decide (x.1 * 64 + 64 ≤ lo) || decide (hi ≤ x.1 * 64)
  { s with ctxs := s.ctxs.map fun x => (x.1, { x.2 with
             l1 := keep x.2.l1
             records := x.2.records.filter fun r => decide (r.1 + 32 ≤ lo) || decide (hi ≤ r.1) })
           sites := s.sites.map fun x => (x.1, { x.2 with l2 := keep x.2.l2 }) }

/-- R202: an object now homed on a device has no copies beside its home there. -/
def dropCopies (s : State) (site g : Nat) : State :=
  let drop (s : State) (x : Nat) := modSite s x fun y =>
    { y with l2 := y.l2.filter fun z => decide (z.1 / 2 ^ 28 ≠ goidPtr g 0 / 2 ^ 34) }
  drop (drop s site) (partner site)

/-- R165, R189: bytes given to a new use: zero under `.z`, otherwise without a promised value. -/
def newBytes (s : State) (lo hi : Nat) (zero : Bool) : State :=
  let s := flushRange s lo hi
  if zero then { s with mem := zeroRange s.mem lo hi }
  else { s with mem := freshRange s.mem lo hi s.stamp, stamp := s.stamp + 1 }

/-! ### Moves (R173, R174, R177) -/

/-- Puts a GOID among others that rise by serial, then by number. -/
def insertSerial (g : Nat) : List Nat → List Nat
  | [] => [g]
  | x :: xs => if goidSerial g < goidSerial x ∨ goidSerial g = goidSerial x ∧ g ≤ x then g :: x :: xs
    else x :: insertSerial g xs

/-- R181: the record of a group, held by the registry of site k mod 1,024. -/
def groupOfNum (s : State) (k : Nat) : Option CoGroup := tget (siteOf s (k % 1024)).groups k
def putGroup (s : State) (k : Nat) (x : CoGroup) : State :=
  modSite s (k % 1024) fun y => { y with groups := if x.members.isEmpty then tdel y.groups k else tput y.groups k x }

/-- The members that move with an object, in increasing serial order (R177, R181). -/
def groupMembers (s : State) (g : Nat) : List Nat :=
  match (regEntry s g).bind fun e => e.group.bind fun k => groupOfNum s k with
  | some x => x.members.foldr insertSerial []
  | none => [g]

/-- R177: the move that an object is part of. -/
def inMove (g : Nat) (m : Move) : Bool := decide (m.goid = g) || m.rest.any fun r => decide (r.1 = g)
def isMoving (s : State) (g : Nat) : Bool := s.moves.any fun x => inMove g x.2

/-- R173: the move of one object starts, its first frame in transfer; monitors on that frame release their waiters. -/
def beginMove (s : State) (id : Nat) (m : Move) : State :=
  match regEntry s m.goid, objAt s m.src m.goid with
  | some e, some o =>
    let s := putReg s m.goid { e with state := .moving }
    let s := putObj s m.src m.goid { o with state := .movingOut, dest := m.dst }
    let s := { s with moves := tput s.moves id { m with frame := 0, frames := framesOf o.size, queue := [] } }
    wakeRange s (goidPtr m.goid 0) (goidPtr m.goid 0 + min o.size Config.frameBytes)
  | _, _ => s

/-- R177: the tier that an object has after a move: its own, but at a move between the tiers of one site. -/
def tierAfter (src target : Nat) (tier2 : Bool) (o : ObjEntry) : Bool := if target = src then tier2 else o.tier2

/-- R177: whether the frames of a tier at a site hold those of some objects, twins' copies apart. -/
def roomFor (s : State) (site : Nat) (tier2 : Bool) (os : List (Bool × ObjEntry)) : Bool :=
  decide (((os.filter fun x => decide (x.1 = tier2)).map fun x => framesOf x.2.size).sum ≤ freeFrames s site tier2)

/-- R175, R177: the accesses of a site to an object at its home in the last window. -/
def lastCount (o : ObjEntry) (home site : Nat) : Nat :=
  if site = home || (o.twin && decide (site = partner home)) then o.lastLocal
  else ((o.lastSketch.filter fun x => decide (x.1 = site)).map (·.2)).sum

/-- R177: the conditions under which a request for an object is carried out: `group` are the object and the members of its group, `gs`
those of them that move; `veto` is the requesting site of a migration request. The veto weighs an object of no group as a group of its
own (log 41). A twin has no tier 2 (R165). -/
def moveAllowed (s : State) (g : Nat) (group gs : List Nat) (src target : Nat) (tier2 : Bool) (veto : Option Nat) : Bool :=
  let all := group.filterMap fun g => objAt s src g
  let os := gs.filterMap fun g => objAt s src g
  let ends := os.map fun o => (tierAfter src target tier2 o, o)
  let twins := ends.filter fun x => x.2.twin
  group.all (fun g => match regEntry s g with
    | some e => decide (e.state = .live) && !e.pinned
    | none => false) &&
  decide (all.length = group.length) && siteExists s target &&
  (siteOf s src).osite.getLsbD 1 && (siteOf s target).osite.getLsbD 2 &&
  (match veto with
    | none => true
    | some r => decide ((all.map fun o => o.lastLocal).sum ≤ (all.map fun o => lastCount o src r).sum)) &&
  (decide (target ≠ src) || (objAt s src g).any fun o => decide (o.tier2 ≠ tier2)) &&
  (decide (target = src) || decide (tableUse s target + gs.length ≤ Config.objectTable)) &&
  !(twins.any fun x => x.1) &&
  [false, true].all fun tier => roomFor s target tier ends && roomFor s (partner target) tier twins

/-- R177: a request to move an object, with its group unless it joins one: carried out, or refused, in which case the
numbers asked complete at once. At a move between tiers the members already in the tier stay. -/
def moveRequest (s : State) (g target : Nat) (tier2 : Bool) (asked : List (Nat × Nat)) (veto : Option Nat) (single : Bool) :
    State :=
  if isMoving s g then
    { s with moves := s.moves.map fun x => if inMove g x.2 then (x.1, { x.2 with asked := x.2.asked ++ asked }) else x }
  else match regEntry s g with
    | none => flumeDone s asked
    | some e =>
      let group := if single then [g] else groupMembers s g
      let gs := group.filter fun x => decide (target ≠ e.site) || (objAt s e.site x).any fun o => decide (o.tier2 ≠ tier2)
      if moveAllowed s g group gs e.site target tier2 veto then
        let (s, parts) := gs.foldl (fun (acc : State × List (Nat × Bool × List Nat × List Nat)) x =>
          match objAt acc.1 e.site x with
          | some o =>
            let tier := tierAfter e.site target tier2 o
            let (s, fs, cs) := takeBoth acc.1 target tier o.twin (framesOf o.size)
            (s, acc.2 ++ [(x, tier, fs, cs)])
          | none => acc) (s, [])
        match parts with
        | [] => flumeDone s asked
        | h :: rest =>
          beginMove { s with fresh := s.fresh + 1 } s.fresh
            { goid := h.1, src := e.site, dst := target, tier2 := h.2.1, got := h.2.2.1, copy := h.2.2.2, asked := asked,
              rest := rest, group := e.group }
      else flumeDone s asked

/-- R191: the window a site is in, on its device's clock. -/
def windowAt (s : State) (site : Nat) : Nat := clock s (site / 2) / Config.windowAc

/-- R189: the key slot of a VF on a device. Only the security block of the site knows the keys; which slot a VF has is the device's
choice (log 25). -/
def vfKey (dev vf : Nat) : Nat := 1 + Config.keySlot dev vf % 63

/-- R174: the end of an object's move; then the next member of its group moves, or the numbers asked complete. The new home's sketch,
streaks and counts of the last window are empty (log 21); on another device the object stands under its owner's key slot there
(R189). -/
def moveEnd (s : State) (id : Nat) (m : Move) : State :=
  match regEntry s m.goid, objAt s m.src m.goid with
  | some e, some o =>
    let count := (o.moves + 1) % 2 ^ 16
    let s := giveBoth s m.src o.tier2 o.twin (framesOf o.size)
    let s := putObj s m.dst m.goid { o with state := .home, tier2 := m.tier2, frames := m.got, copy := m.copy, pinned := e.pinned,
                                            moves := count, forwarded := 0, quiet := 0, local_ := 0, sketch := [],
                                            streaks := [], lastLocal := 0, lastSketch := [],
                                            key := if m.dst / 2 = m.src / 2 then o.key else vfKey (m.dst / 2) o.owner }
    let s := dropCopies (putReg s m.goid { e with state := .live, site := m.dst, moves := count }) m.dst m.goid
    let s := if m.src = m.dst then s else putObj s m.src m.goid
      { state := .stub, dest := m.dst, moves := count, born := windowAt s m.src }
    match m.rest with
    | h :: rest => beginMove s id { m with goid := h.1, tier2 := h.2.1, got := h.2.2.1, copy := h.2.2.2, rest := rest }
    | [] =>
      let s := { s with moves := tdel s.moves id }
      let s := match m.group.bind fun k => (groupOfNum s k).map fun x => (k, x) with
        | some (k, x) => if x.members.contains m.goid then putGroup s k { x with home := m.dst } else s
        | none => s
      flumeDone s m.asked
  | _, _ => { s with moves := tdel s.moves id }

/-! ### Requests at a site (R172, R178) -/

def reqOff (q : Req) : Nat := match q.items with
  | i :: _ => ptrOff i.ptr
  | [] => 0
def reqGoid (q : Req) : Nat := match q.items with
  | i :: _ => ptrGoid i.ptr
  | [] => 0
/-- R295: the address that places a request on a plane. -/
def reqPtr (q : Req) : Nat := match q.items with
  | i :: _ => i.ptr.toNat
  | [] => 0
def putReq (s : State) (id : Nat) (q : Req) : State := { s with reqs := tput s.reqs id q }
/-- Every item is answered with a cause. -/
def faultAll (q : Req) (cause : Nat) : List Ans := q.items.map fun i => ⟨i.lane, 0, cause⟩

/-- R295: a request leaves a device for a site, on the plane that the rule gives. -/
def sendOn (s : State) (q : Req) (site : Nat) : Req :=
  { q with port := q.site / 2, site := site, plane := planeOf s (site / 2) (reqPtr q), left := s.now }

/-- R178, R295, R296: the requester sends a request again, to a site or to a registry: it is numbered afresh on the plane it takes. -/
def sendAgain (s : State) (id : Nat) (q : Req) (site : Nat) : State :=
  numberReq s id { sendOn s q site with port := q.from_ / 2 }

/-- R302, R311: the request has its answers; the reply carries the serving site and its move count. -/
def replyWith (s : State) (id : Nat) (q : Req) (site : Nat) (as_ : List Ans) : State :=
  let moves := match (sizeEntry s site (reqGoid q)).orElse fun _ => objAt s site (reqGoid q) with
    | some e => e.moves
    | none => 0
  putReq s id { q with phase := .replied, home := site, moves := moves, answers := as_, applied := true, fromHome := true,
                        left := s.now, port := site / 2 }

/-- R192: the site that counts an access served at a site: where the object's entry is, the source while it moves. -/
def countSite (s : State) (site g : Nat) : Nat :=
  match s.moves.find? fun x => decide (x.2.goid = g ∧ x.2.dst = site) with
  | some x => x.2.src
  | none => site

/-- R196: the die that the context of a write has come to since it was sent keeps no older copy of its line. -/
def dropWritten (s : State) (q : Req) : State :=
  match tget s.ctxs q.ctx with
  | some c => if isWrite q.kind && decide (ctxSite c ≠ q.from_) then
      modSite s (ctxSite c) fun x => { x with l2 := q.items.foldl (fun t i => tdel t (lineOf i.ptr.toNat)) x.l2 }
    else s
  | none => s

/-- R172, R175: the home serves a request: it counts the access and makes every item's effect. -/
def serveReq (s : State) (id : Nat) (q : Req) : State :=
  if q.applied then putReq s id { q with phase := .replied }
  else
    let g := reqGoid q
    let s := countAccess s (countSite s q.site g) g q.from_
    let r := q.items.foldl (fun (r : State × List Ans) i =>
      let (s, a) := serveObject r.1 q.kind q.size q.ctx q.from_ q.site g i
      (s, r.2 ++ [a])) (s, [])
    replyWith (dropWritten r.1 q) id q q.site r.2

/-- R137: the requests in the Flume queue of a site. -/
def flumeUse (s : State) (site : Nat) : Nat :=
  ((s.moves.filter fun x => decide (x.2.src = site)).map fun x => x.2.queue.length).sum

/-- R173: what meets a frame in transfer takes its place in the Flume queue, in arrival order. -/
def queueAt (s : State) (site g id : Nat) : State :=
  { s with moves := s.moves.map fun x =>
      if decide (x.2.goid = g ∧ x.2.src = site) && !x.2.queue.contains id then (x.1, { x.2 with queue := x.2.queue ++ [id] }) else x }

/-- R190, R295: a dead object's answer carries no move count, and the locator learns nothing from it (log 21). -/
def deadReply (s : State) (id : Nat) (q : Req) : State :=
  putReq s id { q with phase := .replied, home := q.site, answers := faultAll q 0xC0, applied := true, left := s.now, port := q.site / 2 }

/-- R170, R173, R178: a request reaches a site. One that meets a frame in transfer is queued, or held where the queue is full
(R137, log 37); a stub counts each request that reaches it (R191). -/
def arriveAt (s : State) (id : Nat) (q : Req) : State :=
  let g := reqGoid q
  match answerAt s q.site g (reqOff q) q.viaMove with
  | .served => serveReq s id q
  | .queued =>
    if Config.flumeQueue ≤ flumeUse s q.site then putReq s id { q with phase := .held }
    else putReq (queueAt s q.site g id) id { q with phase := .queued }
  | .forward dst false => putReq s id (sendOn s { q with viaMove := true } dst)
  | .forward _ true =>
    let s := match objAt s q.site g with
      | some e => putObj s q.site g { e with forwarded := e.forwarded + 1 }
      | none => s
    putReq s id { q with phase := .forwarding }
  | .notHere => putReq s id { q with phase := .notHere }
  | .dead => deadReply s id q

/-- R210: an earlier request of the context to the line of a request has not been answered, and goes first. -/
def overtakes (s : State) (id : Nat) (q : Req) : Bool :=
  let lines := q.items.map fun i => lineOf i.ptr.toNat
  s.reqs.any fun x => decide (x.1 < id ∧ x.2.ctx = q.ctx ∧ x.2.phase ≠ .replied) &&
    x.2.items.any fun i => lines.contains (lineOf i.ptr.toNat)

/-- R301, R303: the device of a request's target has left the pod, or has been reset since the request went there. -/
def lostTarget (s : State) (q : Req) : Bool :=
  (s.fabric.absent.contains (q.site / 2) || q.lost) && decide (q.site / 2 ≠ q.from_ / 2)

/-- R295: the device a request or its reply is on its way to. -/
def bound (q : Req) : Nat := if q.phase = .replied then q.from_ / 2 else q.site / 2

/-- R295: a flit that left the same port earlier for the same port on the same plane has not arrived: it goes first, where nothing but
the fabric keeps it (R210). -/
def behindFlit (s : State) (id : Nat) (q : Req) : Bool :=
  decide (q.port ≠ bound q) && s.reqs.any fun x =>
    decide (x.2.phase = q.phase ∧ x.2.plane = q.plane ∧ x.2.port = q.port ∧ bound x.2 = bound q ∧
      (x.2.left < q.left ∨ x.2.left = q.left ∧ x.1 < id)) &&
    (decide (q.phase = .replied) || !overtakes s x.1 x.2 && !lostTarget s x.2)

/-- R172: HOME_SERVE: a request arrives, in the order of the Sluice (R295) and of its line (R210). One to a device that has left the
pod gets no answer (R303). -/
def execHomeServe (req : Nat) (s : State) : Out :=
  match tget s.reqs req with
  | some q => .next (if decide (q.phase ≠ .toSite) || overtakes s req q || behindFlit s req q || lostTarget s q then s
      else arriveAt s req q)
  | none => .next s

/-- R178 step 2: STUB_FORWARD: the stub forwards the request, or answers ASK at the ninth hop. -/
def execStubForward (req : Nat) (s : State) : Out :=
  match tget s.reqs req with
  | some q =>
    if decide (q.phase ≠ .forwarding) || overtakes s req q || lostTarget s q then .next s
    else match objAt s q.site (reqGoid q) with
      | some e =>
        if e.state = .stub then
          .next (putReq s req (if q.hops < 8 then sendOn s { q with hops := q.hops + 1, phase := .toSite } e.dest
            else { q with phase := .asked }))
        else .next (putReq s req { q with phase := .toSite })
      | none => .next (putReq s req { q with phase := .toSite })
  | none => .next s

/-- R178 step 3: NOT_HERE_RECEIVE: the locator entry goes and the requester asks the registry. -/
def execNotHereReceive (req : Nat) (s : State) : Out :=
  match tget s.reqs req with
  | some q => .next (if q.phase = .notHere then
      sendAgain (dropLocator s q.from_ (reqGoid q)) req { q with phase := .registry, hops := 0 } (goidSite (reqGoid q)) else s)
  | none => .next s

/-- R178 step 2: ASK_RECEIVE: the requester asks the registry. -/
def execAskReceive (req : Nat) (s : State) : Out :=
  match tget s.reqs req with
  | some q => .next (if q.phase = .asked then
      sendAgain s req { q with phase := .registry, hops := 0 } (goidSite (reqGoid q)) else s)
  | none => .next s

/-- R178 step 4, R190: REGISTRY_LOOKUP: the birth site's registry answers; a die keeps one lookup in flight per GOID. -/
def execRegistryLookup (req : Nat) (s : State) : Out :=
  match tget s.reqs req with
  | some q =>
    if q.phase ≠ .registry || lostTarget s q || s.reqs.any (fun x => decide (x.2.phase = .answered ∧ x.2.from_ = q.from_ ∧
        reqGoid x.2 = reqGoid q)) then .next s
    else match registryFault s (reqGoid q) with
      | some c => .next (putReq s req { q with phase := .answered, answers := faultAll q c })
      | none => match regEntry s (reqGoid q) with
        | some e => .next (putReq s req { q with phase := .answered, site := e.site, answers := [] })
        | none => .next s
  | none => .next s

/-- The registry's answer reaches a request: it is sent to the site named, to be combined where it may (R298), or ends with the
cause (R178, R303). -/
def takeAnswer (s : State) (id : Nat) (q a : Req) : State :=
  let refused (cause : Nat) := putReq s id { q with phase := .replied, home := q.from_, applied := true, answers := faultAll q cause }
  match a.answers with
  | x :: _ => refused x.fault
  | [] => match unreachable s (q.from_ / 2) (a.site / 2) with
    | some c => refused c
    | none => sendAgain s id
        { q with phase := if q.combine && !q.resent && decide (a.site / 2 ≠ q.from_ / 2) then .egress else .toSite
                 answers := [] } a.site

/-- R190: REGISTRY_ANSWER: the request and those of its die that wait for the same GOID go to the site named. -/
def execRegistryAnswer (req : Nat) (s : State) : Out :=
  match tget s.reqs req with
  | some a =>
    if a.phase ≠ .answered then .next s
    else .next (s.reqs.foldl (fun s x =>
      if x.1 = req || (decide (x.2.phase = .registry) && decide (x.2.from_ = a.from_) && decide (reqGoid x.2 = reqGoid a))
      then takeAnswer s x.1 x.2 a else s) s)
  | none => .next s

/-- R175, R177: MIGRATION_REQUEST of the affinity counters or the dispatcher, on behalf of the target site. -/
def execMigrationRequest (goid target : Nat) (tier2 : Bool) (s : State) : Out :=
  .next (if isMoving s goid then s else moveRequest s goid target tier2 [] (some target) false)

/-! ### Windows (R175, R179, R191, R192) -/

/-- R176: K, H and N of a site. -/
def osK (x : Site) : Nat := max 1 (sub x.osite 12 4)
def osH (x : Site) : Nat := sub x.osite 8 4
def osN (x : Site) : Nat := max 1 (sub x.osite 4 4)

/-- R191: the stub test of a window that has ended. -/
def stubWindow (x : Site) (window : Nat) (e : ObjEntry) : ObjEntry :=
  if window ≤ e.born then (if e.born = window then { e with forwarded := 0 } else e)
  else if e.forwarded ≠ 0 then { e with forwarded := 0, quiet := 0 }
  else if osK x ≤ e.quiet + 1 then { state := .collected, moves := e.moves }
  else { e with quiet := e.quiet + 1 }

/-- R175: the streaks of the sites whose count exceeds H × local in the window that has ended. -/
def streakWindow (x : Site) (e : ObjEntry) : Tbl Nat :=
  let beyond := if osH x < 2 then [] else e.sketch.filter fun y => decide (osH x * e.local_ < y.2)
  beyond.foldl (fun t y => tput t y.1 (tgetD e.streaks y.1 0 + 1)) []

/-- R175, R192: a home object's counts of the window that has ended: its streaks, and a new sketch. -/
def rollHome (x : Site) (e : ObjEntry) : ObjEntry :=
  { e with local_ := 0, sketch := [], streaks := streakWindow x e, lastLocal := e.local_, lastSketch := e.sketch }

/-- R175: the tests of a home object whose window has ended: a migration request for one site, or a split advisory. -/
def homeWindow (s : State) (site g : Nat) : State :=
  let x := siteOf s site
  match objAt s site g with
  | none => s
  | some e =>
    if !x.osite.getLsbD 0 || decide (e.state ≠ .home) then s
    else match e.streaks.filter fun y => decide (osN x ≤ y.2) with
      | [] => s
      | [y] => if !isMoving s g then moveRequest s g y.1 e.tier2 [] (some y.1) false else s
      | hot => if x.osite.getLsbD 3 then modDev s (site / 2) fun d => { d with advisories := d.advisories ++ [(g, hot.map (·.1))] }
        else s

/-- R187: a host-bias page counted above H in N consecutive windows is posted as a flip request. -/
def flipWindow (s : State) (site : Nat) : State :=
  let x := siteOf s site
  let streaks := (x.flips.filter fun y => decide (osH x < y.2)).foldl
    (fun t y => tput t y.1 (tgetD x.flipStreaks y.1 0 + 1)) ([] : Tbl Nat)
  let due := (streaks.filter fun y => decide (y.2 = osN x)).map (·.1)
  let s := putSite s site { x with flips := [], flipStreaks := streaks }
  if due.isEmpty then s
  else modDev s (site / 2) fun d => { d with flipPosts := d.flipPosts ++ due }

/-- R191: WINDOW_END of a site: once for each boundary of 2^20 ac that its device's clock has passed. Every count of the window
is closed before any test of it. -/
def execWindowEnd (site : Nat) (s : State) : Out :=
  let x := siteOf s site
  if windowAt s site ≤ x.window then .next s
  else
    let roll (y : Nat × ObjEntry) : Nat × ObjEntry := (y.1, match y.2.state with
      | .stub => stubWindow x x.window y.2
      | .home => rollHome x y.2
      | .movingOut => rollHome x y.2
      | .collected => y.2
      | .dead => y.2)
    let s := putSite s site { x with window := x.window + 1, objects := x.objects.map roll }
    .next (flipWindow (x.objects.foldl (fun s y => homeWindow s site y.1) s) site)

/-- R191: every window whose end a device's clock has passed ends. -/
def endWindows (s : State) : State :=
  (tkeys s.sites).foldl (fun s site => (List.range (windowAt s site - (siteOf s site).window)).foldl (fun s _ =>
    match execWindowEnd site s with
    | .next s => s
    | _ => s) s) s

/-! ### Purges (R171, R180) -/

/-- R180: PURGE: firmware starts the pod-wide purge of dead serials of a birth site. -/
def execPurge (site : Nat) (serials : List Nat) (s : State) : Out :=
  let x := siteOf s site
  let dead := serials.filter fun n => match tget x.registry n with
    | some e => decide (e.state = .dead)
    | none => false
  if !x.purging.isEmpty || dead.isEmpty then .next s
  else
    let registry := dead.foldl (fun r n => tmod r n fun e => { e with state := .purging }) x.registry
    .next (putSite s site { x with registry := registry, purging := dead.eraseDups, purgeAcks := [] })

/-- R180: PURGE_ACK: a die removes every locator, stub, collected and dead entry of the serials; when every die of the
pod has, the serials become free. -/
def execPurgeAck (site die : Nat) (s : State) : Out :=
  let x := siteOf s site
  if x.purging.isEmpty || !siteExists s die || x.purgeAcks.contains die then .next s
  else
    let gs := x.purging.map fun n => site * 2 ^ 19 + n
    let s := gs.foldl (fun s g => dropLocator s die g) s
    let stays (x : Nat × ObjEntry) : Bool := !gs.contains x.1 || decide (x.2.state = .home ∨ x.2.state = .movingOut)
    let s := modSite s die fun y => { y with objects := y.objects.filter stays }
    let s := modSite s site fun y => { y with purgeAcks := die :: y.purgeAcks }
    let y := siteOf s site
    if y.purgeAcks.length < 2 * s.fabric.devices then .next s
    else .next (putSite s site { y with
      registry := y.purging.foldl (fun r n => tmod r n fun e => { e with state := .free }) y.registry
      freed := y.freed ++ y.purging, purging := [], purgeAcks := [] })

/-! ### The object instructions (R163-R167) -/

/-- R167: the faults of a pointer operand, before the instruction's own. -/
def objFault (s : State) (p : Dbl) (deadOk : Bool) : Option Nat :=
  if !isObject p then some 0xC4
  else match registryFault s (ptrGoid p) with
    | some 0xC0 => if deadOk then none else some 0xC0
    | r => r

/-- The home entry of a live object. -/
def homeOf (s : State) (g : Nat) : Option (Nat × ObjEntry) :=
  match regEntry s g with
  | some e => (objAt s e.site g).map fun o => (e.site, o)
  | none => none

def kdOf (o : I64) : Nat := sub o.vd 0 6
def kaOf (o : I64) : Nat := sub o.va 0 6

/-- An object instruction on the pointer in ka: the hold of R136, then the checks. -/
def withObject (s : State) (kd ks : List (Nat × Nat)) (o : I64) (held deadOk : Bool) (f : View → Dbl → Nat → Out) : Out :=
  withView s [] [] ks (kd := kd) fun w =>
    let p := kgetD w.t (kaOf o)
    if held && heldBack w then block s .hold
    else match objFault s p deadOk with
      | some c => .next (raise s c 0)
      | none => match unreachable s w.c.dev (goidSite (ptrGoid p) / 2) with
        | some c => .next (raise s c 0)
        | none => f w p (ptrGoid p)

/-- R164: the placement word. A dead object holds no attributes: those bits are a free value (log 12). -/
def placement (s : State) (g : Nat) (e : RegEntry) : Dbl :=
  let dead := decide (e.state ≠ .live ∧ e.state ≠ .moving)
  let attrs : Nat := match dead, objAt s e.site g with
    | false, some o => (if o.tier2 then 1 else 0) + (if o.twin then 2 else 0) + (if o.retract then 4 else 0)
    | _, _ => (Config.freeDbl s.stamp).toNat % 8
  BitVec.ofNat 64 (e.site + (if dead then 2 else if e.state = .moving then 1 else 0) * 2 ^ 10 + attrs * 2 ^ 13 +
    (if e.pinned then 1 else 0) * 2 ^ 16 + (match e.group with
      | some k => 2 ^ 17 + k * 2 ^ 18
      | none => 0))

/-- R164: OQRY. The size and cap of a dead object are not stated: a free value (log 12). -/
def execOqry (o : I64) (s : State) : Out :=
  let kd := kdOf o
  withObject s [(kd, 2)] [(kaOf o, 2)] o false true fun w _ g => match regEntry s g with
    | none => .next s
    | some e =>
      let live := decide (e.state = .live ∨ e.state = .moving)
      let x : Dbl := if o.imm = 0 then placement s g e
        else match live, objAt s e.site g with
          | true, some x => BitVec.ofNat 64 (if o.imm = 1 then x.size else x.cap)
          | _, _ => Config.freeDbl s.stamp
      .next (complete { s with stamp := s.stamp + 1 } s.cur (ksetD w.t kd x) 8)

/-- The site of an object instruction: [9:0], or the issuing team's under [10]. -/
def siteArg (w : View) (o : I64) : Nat := if o.imm.getLsbD 10 then ctxSite w.c else sub o.imm 0 10

/-- R167, R177: OHINT. -/
def execOhint (o : I64) (s : State) : Out :=
  let kd := kdOf o
  withObject s [(kd, 2)] [(kaOf o, 2)] o false false fun w _ g =>
    let (s, n) := issueFlume s w.b.ctx
    let tier2 := match homeOf s g with
      | some (_, e) => e.tier2
      | none => false
    let s := moveRequest s g (siteArg w o) tier2 [(w.b.ctx, n)] none false
    .next (complete s s.cur (ksetD w.t kd (BitVec.ofNat 64 n)) 8)

/-- R167, R172: OPIN, OUNPIN: in the registry and at the home. -/
def pinOp (pin : Bool) (o : I64) (s : State) : Out :=
  withObject s [] [(kaOf o, 2)] o true false fun w _ g => match regEntry s g with
    | some e =>
      let s := match objAt s e.site g with
        | some x => putObj s e.site g { x with pinned := pin }
        | none => s
      .next (complete (putReg s g { e with pinned := pin }) s.cur w.t 8)
    | none => .next s

def execOpin (o : I64) (s : State) : Out := pinOp true o s
def execOunpin (o : I64) (s : State) : Out := pinOp false o s

/-- R165, R171: the serial a new object takes at its site: the oldest free one, else the lowest never used. -/
def takeSerial (x : Site) : Option (Nat × Site) :=
  match x.freed with
  | n :: ns => some (n, { x with freed := ns })
  | [] => if x.unused < Config.serials then some (x.unused, { x with unused := x.unused + 1 }) else none

/-- R165: OALLOC. -/
def execOalloc (o : I64) (s : State) : Out :=
  let kd := kdOf o
  let ka := kaOf o
  withView s [] [] [(ka, 4)] (kd := [(kd, 2)]) fun w =>
    if heldBack w then block s .hold
    else
      let size := (kgetD w.t ka).toNat
      let retract := o.imm.getLsbD 13
      let cap := if !retract then size else if ka = 0 then 0 else (kgetD w.t (ka + 2)).toNat
      let tier2 := o.imm.getLsbD 11
      let twin := o.imm.getLsbD 12
      let site := siteArg w o
      if size = 0 ∨ 2 ^ 34 < size ∨ cap < size ∨ 2 ^ 34 < cap ∨ siteExists s site = false ∨ (twin && tier2) = true then
        .next (raise s 0xC4 0)
      else match unreachable s w.c.dev (site / 2) with
      | some c => .next (raise s c 0)
      | none => match takeSerial (siteOf s site) with
        | none => .next (complete s s.cur (ksetD w.t kd 0) 8)
        | some (n, x) =>
          if !fits s site tier2 twin (framesOf size) || decide (Config.objectTable ≤ tableUse s site) then
            .next (complete s s.cur (ksetD w.t kd 0) 8)
          else
            let g := site * 2 ^ 19 + n
            let (s, fs, cs) := takeBoth (putSite s site x) site tier2 twin (framesOf size)
            let s := putReg s g { state := .live, site := site, pinned := o.imm.getLsbD 14 }
            let s := putObj s site g { state := .home, size := size, cap := cap, tier2 := tier2, twin := twin, retract := retract,
                                       key := if site / 2 = w.c.dev then w.c.key else vfKey (site / 2) w.c.vf, owner := w.c.vf,
                                       pinned := o.imm.getLsbD 14, frames := fs, copy := cs }
            let s := newBytes s (goidPtr g 0) (goidPtr g 0 + size) (o.m.getLsbD 4)
            .next (complete s s.cur (ksetD w.t kd (BitVec.ofNat 64 (goidPtr g 0))) 8)

/-- R181: an object leaves its group. -/
def leaveGroup (s : State) (g : Nat) (e : RegEntry) : State :=
  match e.group with
  | none => s
  | some k =>
    let s := putReg s g { e with group := none }
    match groupOfNum s k with
    | none => s
    | some x => putGroup s k { x with members := x.members.filter (· ≠ g) }

/-- R166: the object is marked dead and its frames are freed. -/
def killObject (s : State) (g : Nat) (e : RegEntry) : State :=
  match objAt s e.site g with
  | none => s
  | some x =>
    let s := giveBoth s e.site x.tier2 x.twin (framesOf x.size)
    let s := leaveGroup s g e
    putObj (putReg s g { e with state := .dead, group := none }) e.site g { state := .dead, moves := x.moves }

/-- R166: OFREE: release(pod), then it waits for a move to end. -/
def execOfree (o : I64) (s : State) : Out :=
  withObject s [] [(kaOf o, 2)] o true false fun w _ g =>
    if !releaseOk w.c 4 then block s .release
    else if isMoving s g then block s .move
    else match regEntry s g with
      | some e => .next (complete (killObject s g e) s.cur w.t 8)
      | none => .next s

/-- R166, R270: the object at its home grows to a size; none when frames ran out. -/
def extend (s : State) (site g : Nat) (x : ObjEntry) (size : Nat) (zero : Bool) : Option State :=
  let n := framesOf size - framesOf x.size
  if size ≤ x.size then some s
  else if !fits s site x.tier2 x.twin n then none
  else
    let (s, fs, cs) := takeBoth s site x.tier2 x.twin n
    some (newBytes (putObj s site g { x with size := size, frames := x.frames ++ fs, copy := x.copy ++ cs })
      (goidPtr g 0 + x.size) (goidPtr g 0 + size) zero)

/-- R166: the object at its home is cut to a size; no copy answers for the bytes cut off. -/
def trim (s : State) (site g : Nat) (x : ObjEntry) (size : Nat) : State :=
  if x.size ≤ size then s
  else
    let n := framesOf size
    let s := putObj s site g { x with size := size, frames := x.frames.take n, copy := x.copy.take n }
    flushRange (giveBoth s site x.tier2 x.twin (framesOf x.size - n)) (goidPtr g 0 + size) (goidPtr g 0 + x.size)

/-- R163: the second half of an operand quad; a quad at k0 is wholly a discard operand. -/
def quadHigh (t : Team) (ka : Nat) : Nat := if ka = 0 then 0 else (kgetD t (ka + 2)).toNat

/-- R166: OEXT. -/
def execOext (o : I64) (s : State) : Out :=
  let kd := kdOf o
  withObject s [(kd, 1)] [(kaOf o, 4)] o true false fun w _ g =>
    if isMoving s g then block s .move
    else
      let size := quadHigh w.t (kaOf o)
      match homeOf s g with
      | none => .next s
      | some (site, x) =>
        if !x.retract || decide (x.cap < size) then .next (raise s 0xC4 0)
        else match extend s site g x size (o.m.getLsbD 4) with
          | some s => .next (complete s s.cur (kset w.t kd 1) 8)
          | none => .next (complete s s.cur (kset w.t kd 0) 8)

/-- R166: OTRIM. -/
def execOtrim (o : I64) (s : State) : Out :=
  withObject s [] [(kaOf o, 4)] o true false fun w _ g =>
    if isMoving s g then block s .move
    else
      let size := quadHigh w.t (kaOf o)
      match homeOf s g with
      | none => .next s
      | some (site, x) =>
        if !x.retract || decide (x.cap < size) then .next (raise s 0xC4 0)
        else .next (complete (trim s site g x size) s.cur w.t 8)

/-- R167, R181: the object joins group k: at once where its home is the group's, else by a move there; a refused move
leaves it out of the group (log 21). -/
def joinGroup (s : State) (ctx n g k : Nat) (e : RegEntry) : State :=
  let s := leaveGroup s g e
  let enter (s : State) (x : CoGroup) : State := match regEntry s g with
    | some e => putGroup (putReg s g { e with group := some k }) k { x with members := x.members ++ [g] }
    | none => s
  match groupOfNum s k with
  | none => flumeDone (enter s ⟨e.site, []⟩) [(ctx, n)]
  | some x =>
    if x.home = e.site then flumeDone (enter s x) [(ctx, n)]
    else
      let tier2 := (objAt s e.site g).any (·.tier2)
      if moveAllowed s g [g] [g] e.site x.home tier2 none then
        enter (moveRequest s g x.home tier2 [(ctx, n)] none true) x
      else flumeDone s [(ctx, n)]

/-- R167: OGRP. The record of a group lies with the registry of its own site (R181), which must answer (R303). -/
def execOgrp (o : I64) (s : State) : Out :=
  let kd := kdOf o
  let k := sub o.imm 0 12
  let leave := o.imm.getLsbD 31
  withObject s [(kd, 2)] [(kaOf o, 2)] o true false fun w _ g => match regEntry s g with
    | none => .next s
    | some e => match ((if leave then [] else [k]) ++ e.group.toList).findSome? fun k =>
        unreachable s w.c.dev (k % 1024 / 2) with
      | some c => .next (raise s c 0)
      | none =>
        if (groupMembers s g).any (isMoving s) || (groupOfNum s k).any (fun x => !leave && x.members.any (isMoving s)) then
          block s .move
        else
          let elsewhere := (groupOfNum s k).any fun x => decide (x.home ≠ e.site)
          if !leave && e.pinned && elsewhere && decide (e.group ≠ some k) then .next (raise s 0xC4 0)
          else
            let (s, n) := issueFlume s w.b.ctx
            let s := if leave then flumeDone (leaveGroup s g e) [(w.b.ctx, n)]
              else if e.group = some k then flumeDone s [(w.b.ctx, n)]
              else joinGroup s w.b.ctx n g k e
            .next (complete s s.cur (ksetD w.t kd (BitVec.ofNat 64 n)) 8)

end Sys2Proof.Machine
end

