-- ==== Sys2Proof/Machine/Tiles.lean ====
section
/-! DEFINITION. Tile records and where their elements stand (R215-R219), the tile registers (R220, R221), and what every
engine operation shares: its checks at issue (R222, R223, R227) and its way to memory (R224, R226). -/
namespace Sys2Proof.Machine

/-! ### Formats of R48 as stored -/

/-- R48: bits of an element as stored. -/
def elemBits (f : Nat) : Nat :=
  match f with
  | 0x00 | 0x01 => 32
  | 0x02 | 0x03 | 0x04 => 16
  | 0x0A | 0x0B | 0x14 => 6
  | 0x0C | 0x0D | 0x0E | 0x0F | 0x16 | 0x1B | 0x1F => 4
  | 0x10 | 0x11 | 0x1D => 2
  | 0x12 => 1
  | 0x15 | 0x18 => 5
  | 0x17 | 0x1C => 3
  | 0x19 => 7
  | _ => 8

/-- R49, R50: q formats and z formats, in blocks of 32 elements. -/
def isQ (f : Nat) : Bool := decide (0x13 ≤ f ∧ f ≤ 0x19)
def isZ (f : Nat) : Bool := decide (f = 0x1E ∨ f = 0x1F)
def isBlocked (f : Nat) : Bool := isQ f || isZ f
/-- Header bytes of a block, and its size. -/
def blockHead (f : Nat) : Nat := if isQ f then 2 else 1
def blockBytes (f : Nat) : Nat := blockHead f + 4 * elemBits f

/-- R47, R216: the formats that have a NaN code. -/
def hasNan (f : Nat) : Bool := isQ f || decide (f ≤ 3) || decide (5 ≤ f ∧ f ≤ 7)

/-! ### Records (R215, R216) -/

/-- R216: row bytes. -/
def rowBytes (r : TileRec) : Nat :=
  if isBlocked r.format then r.cols / 32 * blockBytes r.format else r.cols * elemBits r.format / 8

/-- R219: bytes from base to the end of the last row. -/
def footprint (r : TileRec) : Nat := r.rows * r.pitch

/-- R216. -/
def malformed (r : TileRec) : Bool :=
  decide (r.rows = 0) || decide (r.cols = 0) || decide (r.rows < r.vrows) || decide (r.cols < r.vcols) ||
  (if isBlocked r.format then decide (r.cols % 32 ≠ 0) || decide (r.vcols % 32 ≠ 0)
    else decide (r.cols * elemBits r.format % 8 ≠ 0)) ||
  decide (r.base.toNat % 16 ≠ 0) || decide (r.pitch % 16 ≠ 0) || decide (r.pitch < rowBytes r) ||
  decide (5 ≤ r.swizzle) || (decide (1 ≤ r.swizzle) && decide (r.pitch % (16 * 2 ^ r.swizzle) ≠ 0)) ||
  decide (3 ≤ r.fillMode) || (decide (r.fillMode = 1) && isBlocked r.format) ||
  (decide (r.fillMode = 2) && !hasNan r.format) || (!isObject r.base && decide (4 ≤ region r.base))

/-- R215: a record from its 32 bytes; none when a reserved byte is nonzero. -/
def parseRec (bs : List Byte) : Option TileRec :=
  let n (lo k : Nat) := bytesNat ((bs.drop lo).take k)
  if n 22 2 ≠ 0 ∨ n 28 4 ≠ 0 then none
  else some ⟨BitVec.ofNat 64 (n 0 8), n 8 2, n 10 2, n 12 4, n 16 1 % 32, n 16 1 / 32, n 17 1, n 18 2, n 20 2,
    BitVec.ofNat 32 (n 24 4)⟩

/-! ### Where bits stand (R217, R218) -/

/-- R217: a byte of row r moves by the swizzle. -/
def swizzled (r : TileRec) (row o : Nat) : Nat :=
  if r.swizzle = 0 then o
  else
    let L := 16 * 2 ^ r.swizzle
    o / L * L + Nat.xor (o % L / 16) (row % (L / 16)) * 16 + o % 16

/-- The pointer to byte `o` of a row, unswizzled `o`. -/
def rowPtr (r : TileRec) (row o : Nat) : Dbl := advance r.base ((row * r.pitch + swizzled r row o : Nat) : Int)

/-- The first bit of element c in its row's bit string. -/
def elemBit (f c : Nat) : Nat :=
  if isBlocked f then (c / 32 * blockBytes f + blockHead f) * 8 + elemBits f * (c % 32) else elemBits f * c

/-- The element a bit of a row belongs to; a header belongs to the first element of its block. -/
def bitElem (f p : Nat) : Nat :=
  if isBlocked f then
    let q := p / 8 / blockBytes f
    let b := p - 8 * q * blockBytes f
    q * 32 + (b - 8 * blockHead f) / elemBits f
  else p / elemBits f

/-- R218: a bit lies in the valid area of a record. -/
def bitValid (r : TileRec) (row p : Nat) : Bool := decide (row < r.vrows) && decide (bitElem r.format p < r.vcols)

/-- R218: an element of the fill. -/
def fillCode (r : TileRec) : Nat :=
  match r.fillMode with
  | 1 => r.fillValue.toNat % 2 ^ elemBits r.format
  | 2 => match fmtOf r.format with
    | some f => f.nan
    | none => 0
  | _ => 0

/-- R218: a bit of the fill of a record. -/
def fillBit (r : TileRec) (p : Nat) : Bool :=
  let f := r.format
  if isBlocked f then
    isQ f && decide (r.fillMode = 2) && decide (p - 8 * (p / 8 / blockBytes f) * blockBytes f < 16)
  else (fillCode r).testBit (p % elemBits f)

/-- The bits of byte `o` of a row of `d` that an engine writes, for elements below column `lim`. -/
def byteMask (d : TileRec) (lim row o : Nat) : Byte :=
  BitVec.ofNat 8 (((List.range 8).map fun i =>
    if bitValid d row (8 * o + i) && decide (bitElem d.format (8 * o + i) < lim) then 2 ^ i else 0).sum)

/-- R229: byte `o` a source row gives: what memory holds inside its valid area, the fill elsewhere. -/
def sourceByte (x : TileRec) (row o : Nat) (mem : Byte) : Byte :=
  BitVec.ofNat 8 (((List.range 8).map fun i =>
    if (if bitValid x row (8 * o + i) then mem.getLsbD i else fillBit x (8 * o + i)) then 2 ^ i else 0).sum)

/-- Whether byte `o` of a source row has a bit in the valid area. -/
def byteNeeded (x : TileRec) (row o : Nat) : Bool := byteMask x x.cols row o ≠ 0

/-! ### The way of an engine to memory (R224, R226) -/

/-- What an access of an engine, or of a record read, meets. -/
inductive Direct where
  | fail (cause : Nat)
  | stall (reg va : Nat) (host : Option Nat)
  | queued
  | runs (rs : List (Nat × Nat)) (used : List (Nat × Xlat)) (remote spad : Bool)
deriving DecidableEq, Repr

/-- R134 checks 1 to 11 of an access that goes straight to where its data is (R224; the route is invisible, R210); `copies` lets it end
at the die's copy of a remote line. It waits for what a multicast store of the context has yet to write there (R195). -/
def reach (copies : Bool) (s : State) (w : View) (id : Nat) (p : Dbl) (size : Nat) (write : Bool) : Direct :=
  match placeOf s w p 1 with
  | .fault c => .fail c
  | .spad key => if (match windowBlock s w (sub p 57 3) with
      | some (_, b) => decide (b.spad < sub p 0 57 + size)
      | none => true) then .fail 0x40 else .runs [(key, size)] [] false true
  | .flat reg => match flatAccess s w id 0 p size write with
    | .fault c => .fail c
    | .stall va host => .stall reg va host
    | .runs rs used => if behindMcast s w.b.ctx rs then .queued else .runs rs used false false
  | .object =>
    let g := ptrGoid p
    let home := homeSite s g
    let remote := decide (home / 2 ≠ ctxSite w.c / 2)
    if copies && decide (p.toNat % 64 + size ≤ 64) && (l2Line s (ctxSite w.c) remote p.toNat size).isSome then
      .runs [(p.toNat, size)] [] remote false
    else match (routeTo s w.c.dev (ctxSite w.c) g (ptrOff p)).2 with
    | some c => .fail c
    | none => match sizeEntry s home g with
      | none => .fail 0xC0
      | some e =>
        if e.size < ptrOff p + size then .fail 0xC1
        else if answerAt s home g (ptrOff p) false = .queued || behindMcast s w.b.ctx [(p.toNat, size)] then .queued
        else .runs [(p.toNat, size)] [] remote false

/-- R205, R202: an access of an engine or of firmware; a read may end at the die's copy of a remote line. -/
def direct (s : State) (w : View) (id : Nat) (p : Dbl) (size : Nat) (write : Bool) : Direct := reach (!write) s w id p size write

/-- R205, R202: an engine reads global memory from L2: the die's copy of a remote line, or the point of coherence. -/
def engineRead (s : State) (site : Nat) (remote : Bool) (rs : List (Nat × Nat)) : Except Nat (List Byte) :=
  rs.foldl (fun acc r => match acc with
    | .error e => .error e
    | .ok bs => match l2Line s site remote r.1 r.2 with
      | some l => if badCopy s site r.1 then .error 0x2C2 else .ok (bs ++ (l.drop (r.1 % 64)).take r.2)
      | none => match lineErr s r.1 with
        | some e => .error e
        | none => .ok (bs ++ readBytes s.mem r.1 r.2)) (.ok [])

/-- The caches a translation leaves behind (R184). -/
def cacheAll (s : State) (ctx reg : Nat) (used : List (Nat × Xlat)) : State :=
  used.foldl (fun s x => cacheXlat s ctx reg x.1 x.2) s

/-- R208: a record is read through the record cache of the context, which fills from the point of coherence: a copy in L2 may be older
than the last FENCE.rec. -/
def readRecord (s : State) (w : View) (rs : List (Nat × Nat)) : State × Except Nat (List Byte) :=
  let key := match rs with
    | r :: _ => r.1
    | [] => 0
  match tget w.c.records key with
  | some bs => (s, .ok bs)
  | none => match engineRead s (ctxSite w.c) false rs with
    | .ok bs => (modCtx s w.b.ctx fun c => { c with records := tput c.records key bs }, .ok bs)
    | .error e => (s, .error e)

/-! ### Tile-register instructions (R221) -/

def x1Of (o : E64) : Nat := o.x1.toNat
def x2Of (o : E64) : Nat := o.x2.toNat
def kpOf (o : E64) : Nat := o.kp.toNat
def kqOf (o : E64) : Nat := o.kq.toNat

/-- R216: a changed record enters its register, or 0x184. -/
def setTile (s : State) (w : View) (n : Nat) (r : TileRec) : Out :=
  if malformed r then .next (raise s 0x184 n)
  else finish s { w.t with x := tput w.t.x n r, badX := w.t.badX.filter (· ≠ n) } 8

/-- R220, R223, R280: of the tile registers an instruction reads, the first that is not loaded, or holds an uncorrectable
error. -/
def tileFault (t : Team) (reads : List Nat) : Option (Nat × Nat) :=
  match reads.find? fun n => (tget t.x n).isNone with
  | some n => some (0x182, n)
  | none => (reads.find? fun n => t.badX.contains n).map fun n => (0x2C6, n)

/-- A meaning on the record of a tile register. -/
def withTile (s : State) (w : View) (n : Nat) (f : TileRec → Out) : Out :=
  match tileFault w.t [n], tget w.t.x n with
  | some (c, i), _ => .next (raise s c i)
  | none, some r => f r
  | none, none => .next s

/-- R221: XLD. A record of an object that the record cache holds meets none of the object checks again (log 16). -/
def execXld (o : E64) (s : State) : Out :=
  withView s [] [] [(kpOf o, 2)] fun w =>
    let p := kgetD w.t (kpOf o)
    if p.toNat % 32 ≠ 0 then .next (raise s 0x183 0)
    else match (if isObject p then tget w.c.records p.toNat else none) with
    | some bs => match parseRec bs with
      | none => .next (raise s 0x184 (x1Of o))
      | some r => setTile s w (x1Of o) r
    | none => match reach false s w s.cur p 32 false with
      | .fail c => .next (raise (routed s w.c p) c 0)
      | .stall reg va host => block (postPage s w w.b.ctx reg va false host) .page
      | .queued => block s .move
      | .runs rs used _ _ =>
        match readRecord (cacheAll (routed s w.c p) w.b.ctx (region p) used) w rs with
        | (s, .error e) => .next (raise s e 0)
        | (s, .ok bs) => match parseRec bs with
          | none => .next (raise s 0x184 (x1Of o))
          | some r => setTile s w (x1Of o) r

/-- R221: XADD. -/
def execXadd (o : E64) (s : State) : Out :=
  withView s [] [] [(kpOf o, 2)] fun w => withTile s w (x2Of o) fun r =>
    setTile s w (x1Of o) { r with base := advance r.base (kgetD w.t (kpOf o)).toInt }

/-- R221: a record with one field replaced by the low bits of a value. -/
def setField (r : TileRec) (sel v : Nat) : TileRec :=
  match sel with
  | 0 => { r with base := BitVec.ofNat 64 v }
  | 1 => { r with rows := v % 65536 }
  | 2 => { r with cols := v % 65536 }
  | 3 => { r with pitch := v % 2 ^ 32 }
  | 4 => { r with format := v % 32, swizzle := v / 32 % 8 }
  | 5 => { r with fillMode := v % 256 }
  | 6 => { r with vrows := v % 65536 }
  | 7 => { r with vcols := v % 65536 }
  | 8 => { r with fillValue := BitVec.ofNat 32 v }
  | 9 => { r with rows := v % 65536, cols := v / 65536 % 65536 }
  | _ => { r with vrows := v % 65536, vcols := v / 65536 % 65536 }

/-- R221: a field of a record. -/
def getField (r : TileRec) (sel : Nat) : Nat :=
  match sel with
  | 0 => r.base.toNat
  | 1 => r.rows
  | 2 => r.cols
  | 3 => r.pitch
  | 4 => r.format + 32 * r.swizzle
  | 5 => r.fillMode
  | 6 => r.vrows
  | 7 => r.vcols
  | 8 => r.fillValue.toNat
  | 9 => r.rows + 65536 * r.cols
  | 10 => r.vrows + 65536 * r.vcols
  | _ => footprint r

/-- R221: XSET. -/
def execXset (o : E64) (s : State) : Out :=
  let sel := sub o.m 2 6
  let wide := decide (sel = 0)
  withView s [] [] [(kpOf o, wideOf wide)] fun w => withTile s w (x1Of o) fun r =>
    setTile s w (x1Of o) (setField r sel (if wide then (kgetD w.t (kpOf o)).toNat else (kget w.t (kpOf o)).toNat))

/-- R221: XQRY. -/
def execXqry (o : E64) (s : State) : Out :=
  let sel := sub o.m 2 6
  let wide := decide (sel = 0 ∨ sel = 12)
  withView s [] [] [] (kd := [(kpOf o, wideOf wide)]) fun w =>
    if sel = 16 then
      finish (modBlock s w.t.block fun b => { b with errlog := 0 }) (kset w.t (kpOf o) w.b.errlog) 8
    else if sel = 11 then
      finish s (kset w.t (kpOf o) (if (tget w.t.x (kqOf o % 16)).isSome then 1 else 0)) 8
    else withTile s w (x1Of o) fun r =>
      finish s (if wide then ksetD w.t (kpOf o) (BitVec.ofNat 64 (getField r sel))
        else kset w.t (kpOf o) (BitVec.ofNat 32 (getField r sel))) 8

/-! ### Issue of an engine operation (R222, R223) -/

/-- R219: a region 2 record whose footprint leaves the named member's allocation. -/
def badFootprint (s : State) (w : View) (r : TileRec) : Bool :=
  !isObject r.base && decide (region r.base = 2) && match windowBlock s w (sub r.base 57 3) with
    | some (_, b) => decide (b.spad < sub r.base 0 57 + footprint r)
    | none => true

/-- R227: a destination footprint that a provisional block may write at once: within a retractable object at or beyond
extent(F), up to its end, or in the block's own scratchpad. -/
def ownFootprint (s : State) (w : View) (r : TileRec) : Bool :=
  if isObject r.base then w.n.desc.retract.any fun x =>
    decide (ptrGoid x.1 = ptrGoid r.base ∧ w.n.desc.floor * x.2 ≤ ptrOff r.base) &&
      (sizeEntry s (homeSite s (ptrGoid r.base)) (ptrGoid r.base)).any fun e => decide (ptrOff r.base + footprint r ≤ e.size)
  else decide (region r.base = 2 ∧ sub r.base 57 3 = 0)

/-- R222: the tag of TG and the barrier number of BC. -/
def tagArg (o : E64) : Option Nat := if o.fl.getLsbD 3 then some o.tb.toNat else none
def barArg (t : Team) (o : E64) : Option Nat := if o.fl.getLsbD 2 then some (sub (kget t (kqOf o)) 0 5) else none

/-- R223 steps 1 to 7 in order: the first cause with its detail, or a wait. -/
structure EngGate where
  /-- Step 1: the tile registers read, in the order tested. -/
  reads : List Nat
  /-- Step 2: the entry's own checks. -/
  own : Option (Nat × Nat) := none
  /-- Step 3: (register, record). -/
  feet : List (Nat × TileRec) := []
  /-- Step 4, 5. -/
  tag : Option Nat := none
  bar : Option Nat := none
  /-- Step 6: must hold in a provisional block. -/
  hold : Bool := false
  /-- Step 7. -/
  full : Bool := false

/-- R223: steps 2 to 7, then `go`. -/
def engIssue (s : State) (w : View) (g : EngGate) (go : Unit → Out) : Out :=
  match tileFault w.t g.reads with
  | some (c, n) => .next (raise s c n)
  | none => match g.own with
    | some (c, i) => .next (raise s c i)
    | none => match g.feet.find? fun x => badFootprint s w x.2 with
      | some x => .next (raise s 0x180 x.1)
      | none =>
        if g.tag.any fun t => decide (15 ≤ (tagOf w.b t).count) then .next (raise s 0x120 (g.tag.getD 0))
        else if g.bar.any fun b => decide (24 ≤ b) || (barRef w b).isNone then .next (raise s 0x121 (g.bar.getD 0))
        else if heldBack w && g.hold then block s .hold
        else if g.full then block s .queueFull
        else go ()

/-- R223 step 8: TG clears the tag's bit and adds one to its count. -/
def takeTag (b : Block) (tag : Option Nat) : Block :=
  match tag with
  | some t => putTag b t { tagOf b t with ready := false, count := (tagOf b t).count + 1 }
  | none => b

/-- R223 step 8, R156: BC captures the barrier and its phase parity. -/
def capture (s : State) (w : View) (bar : Option Nat) : Option Credit :=
  bar.map fun b => ⟨b, match barRef w b with
    | some r => (barOf s r).phase % 2
    | none => 0⟩

/-! ### Credits and completion (R160, R161, R224, R225, R249) -/

/-- R249: whether a context's credits and completions are held for its stream-in. -/
def holdsEvents (c : Ctx) : Bool := decide (c.state = .streamingOut ∨ c.state = .saved ∨ c.state = .streamingIn)

/-- R225: landed bytes are credited to the barrier captured. -/
def creditNow (s : State) (block : Nat) (bar parity bytes : Nat) : State :=
  match tget s.blocks block with
  | none => s
  | some b => match tget s.nodes b.node with
    | none => s
    | some n =>
      let r : BarRef := if bar < 16 then .block block bar else .node b.node (clusterOf n b * 32 + bar) bar
      barCredit s r parity bytes

def creditBytes (s : State) (block : Nat) (credit : Option Credit) (bytes : Nat) : State :=
  match credit, tget s.blocks block with
  | some c, some b => match tget s.ctxs b.ctx with
    | some x =>
      if bytes = 0 then s
      else if holdsEvents x then
        putCtx s b.ctx { x with heldEvents := x.heldEvents ++ [.credit block c.bar c.parity bytes] }
      else creditNow s block c.bar c.parity bytes
    | none => s
  | _, _ => s

/-- R160: an operation on a tag has completed. -/
def tagDone (b : Block) (tag : Option Nat) (failed : Bool) : Block :=
  match tag with
  | none => b
  | some t =>
    let x := tagOf b t
    putTag b t { count := x.count - 1, ready := x.ready || decide (x.count ≤ 1), err := x.err || failed }

/-- R160, R161: the tag and the timeline of a block take a completion. -/
def blockDone (s : State) (block : Nat) (gather : Bool) (num : Nat) (tag : Option Nat) (failed : Bool) : State :=
  modBlock s block fun b =>
    let b := tagDone b tag failed
    if gather then { b with gath := tlDone b.gath num failed } else { b with copy := tlDone b.copy num failed }

/-- R224: the first failure since the last read of the log is recorded. -/
def logError (b : Block) (engine cause : Nat) : Block :=
  if b.errlog.getLsbD 31 then b
  else { b with errlog := BitVec.ofNat 32 (2 ^ 31 + engine % 8 * 2 ^ 10 + cause % 2 ^ 10) }

end Sys2Proof.Machine
end

