-- ==== Sys2Proof/Machine/Engines.lean ====
section
/-! DEFINITION. Copy and gather: CPY, GATH, SCAT (R228, R229) and the steps of their operations (R224-R226, R249, R251). -/
namespace Sys2Proof.Machine

/-! ### Issue -/

/-- R228: the entry's own checks: equal formats, then the index array inside the block's allocation. -/
def copyChecks (w : View) (d x : TileRec) (arr : Option (Nat × Nat)) : Option (Nat × Nat) :=
  if d.format ≠ x.format then some (0x185, 0)
  else match arr with
    | some (off, n) => if off % 4 ≠ 0 ∨ w.b.spad < off + 4 * n then some (0x180, 0) else none
    | none => none

/-- R228: the issue of a copy or gather operation. -/
def engStart (kind : EngKind) (o : E64) (s : State) : Out :=
  let usesK := decide (kind ≠ .cpy)
  withView s [] [] ((if usesK then [(kpOf o, 1)] else []) ++ [(kqOf o, 1)]) fun w =>
    match tget w.t.x (x1Of o), tget w.t.x (x2Of o) with
    | some d, some x =>
      let off := (kget w.t (kpOf o)).toNat
      let n := if kind = .scat then x.rows else d.rows
      let queue := if usesK then w.b.gathQ else w.b.copyQ
      let bar := barArg w.t o
      engIssue s w { reads := [x1Of o, x2Of o], own := copyChecks w d x (if usesK then some (off, n) else none),
                     feet := [(x1Of o, d), (x2Of o, x)], tag := tagArg o, bar := bar, hold := !ownFootprint s w d,
                     full := decide (32 ≤ queue.length) } fun _ =>
        let num := (if usesK then w.b.gath else w.b.copy).issued + 1
        let op : EngOp := { num := num, team := s.cur, kind := kind, dst := d, src := x, index := off, tag := tagArg o,
                            credit := capture s w bar }
        let s := modBlock s w.t.block fun b =>
          let b := takeTag b (tagArg o)
          if usesK then { b with gathQ := b.gathQ ++ [op], gath := tlIssue b.gath }
          else { b with copyQ := b.copyQ ++ [op], copy := tlIssue b.copy }
        .next (complete s s.cur w.t 8)
    | none, _ => .next (raise s 0x182 (x1Of o))
    | _, none => .next (raise s 0x182 (x2Of o))

/-- R229: CPY. -/
def execCpy (o : E64) (s : State) : Out := engStart .cpy o s
/-- R229: GATH. -/
def execGath (o : E64) (s : State) : Out := engStart .gath o s
/-- R229: SCAT. -/
def execScat (o : E64) (s : State) : Out := engStart .scat o s

/-! ### The operation -/

def engQueue (b : Block) (gather : Bool) : List EngOp := if gather then b.gathQ else b.copyQ
def setQueue (b : Block) (gather : Bool) (q : List EngOp) : Block := if gather then { b with gathQ := q } else { b with copyQ := q }

/-- The operation a reference names. -/
def engOp (s : State) (r : EngRef) : Option EngOp :=
  match tget s.blocks r.block with
  | some b => (engQueue b r.gather).find? fun x => decide (x.num = r.num)
  | none => none

def putOp (s : State) (r : EngRef) (x : EngOp) : State :=
  modBlock s r.block fun b => setQueue b r.gather ((engQueue b r.gather).map fun y => if y.num = r.num then x else y)
def dropOp (s : State) (r : EngRef) : State :=
  modBlock s r.block fun b => setQueue b r.gather ((engQueue b r.gather).filter fun y => decide (y.num ≠ r.num))

/-- R249: whether an operation may act: its context is placed, or it has started on a global destination. -/
def mayAct (c : Ctx) (x : EngOp) : Bool :=
  decide (c.state = .running ∨ c.state = .ready) ||
    (x.started && decide (c.state ≠ .left) && (isObject x.dst.base || decide (region x.dst.base ≠ 2))) ||
    (x.started && decide (c.state = .streamingOut))

/-- R283, R292: one request of a counter set of a context is acknowledged; a parked set at 0 frees its place. -/
def ackSet (c : Ctx) (set : Nat) : Ctx :=
  if set = c.set then { c with out := c.out - 1 }
  else { c with parked := (c.parked.map fun p => if p.set = set then { p with count := p.count - 1 } else p).filter fun p =>
           decide (p.count ≠ 0) }

/-- R249: the bytes of an operation on a global destination are in flight. -/
def globalOut (x : EngOp) : Bool := x.started && (isObject x.dst.base || decide (region x.dst.base ≠ 2))

/-- R249: the operations of a context whose bytes a counter set takes at a stream-out. -/
def enginesOut (s : State) (c : Ctx) : Nat :=
  (c.blocks.map fun i => match tget s.blocks i with
    | some b => ((b.copyQ ++ b.gathQ).filter fun x => globalOut x && x.set.isNone).length
    | none => 0).sum

/-- R249: a completion, or the hold of it while the context is out. -/
def engDone (s : State) (r : EngRef) (x : EngOp) (failed : Bool) : State :=
  let s := dropOp s r
  match tget s.blocks r.block with
  | none => s
  | some b => match tget s.ctxs b.ctx with
    | none => s
    | some c =>
      let (s, c) := match x.set with
        | some n => (putCtx s b.ctx (ackSet c n), ackSet c n)
        | none => (s, c)
      if holdsEvents c then putCtx s b.ctx { c with heldEvents := c.heldEvents ++ [.done r.block r.gather x.num x.tag failed] }
      else blockDone s r.block r.gather x.num x.tag failed

/-- R224: the operation fails: no more accesses, its remaining bytes are credited, it completes as failed and is logged. -/
def engFail (s : State) (r : EngRef) (x : EngOp) (cause : Nat) : State :=
  let s := modBlock s r.block fun b => logError b (if r.gather then 1 else 0) cause
  engDone (creditBytes s r.block x.credit (x.total - x.credited)) r x true

/-- R229: rows of the loop of an operation. -/
def engRows (x : EngOp) : Nat := if x.kind = .scat then x.src.rows else x.dst.rows

/-- R229: columns a row writes at most. -/
def engLim (x : EngOp) : Nat := if x.kind = .scat then x.src.cols else x.dst.cols

/-- R229: (destination row, source row) of step r; none for a SCAT row that a later equal index replaces. -/
def engPair (x : EngOp) (r : Nat) : Option (Nat × Nat) :=
  match x.kind with
  | .cpy => some (r, r)
  | .gath => some (r, x.idx.getD r 0)
  | .scat => if (x.idx.drop (r + 1)).contains (x.idx.getD r 0) then none else some (x.idx.getD r 0, r)

/-- R225: destination bytes of a row that is written. -/
def rowCount (x : EngOp) (row : Nat) : Nat :=
  ((List.range (rowBytes x.dst)).filter fun o => byteMask x.dst (engLim x) row o ≠ 0).length

/-- R225: all destination bytes of an operation. -/
def engTotal (x : EngOp) : Nat :=
  let per := rowCount x 0
  per * ((List.range (engRows x)).filter fun r => match engPair x r with
    | some (d, _) => decide (d < x.dst.vrows)
    | none => false).length

/-- ENGINE_START (R229): the operation starts; GATH and SCAT read their indices. -/
def execEngineStart (r : EngRef) (s : State) : Out :=
  match engOp s r with
  | none => .next s
  | some x => match viewOf s x.team with
    | none => .next s
    | some w =>
      if x.started || !decide (w.c.state = .running ∨ w.c.state = .ready) then .next s
      else
        let n := if x.kind = .cpy then 0 else engRows x
        let key := spadKey r.block x.index
        let x := { x with started := true, idx := (List.range n).map fun i => readNat s.mem (key + 4 * i) 4 }
        let x := { x with total := engTotal x }
        if (List.range n).any fun i => (lineErr s (key + 4 * i)).isSome then .next (engFail s r x 0x2C5)
        else .next (putOp s r x)

/-- The bytes lo to hi of a 16-byte chunk that an access covers; in region 1 in whole words (R185). -/
def chunkSpan (p : Dbl) (os : List Nat) : Option (Nat × Nat) :=
  match os with
  | [] => none
  | a :: as_ =>
    let lo := as_.foldl min a
    let hi := as_.foldl max a
    if !isObject p && decide (region p = 1) then some (lo / 4 * 4, hi / 4 * 4 + 3) else some (lo, hi)

/-- The memory keys of the bytes of some runs. -/
def runKeys (rs : List (Nat × Nat)) : List Nat := rs.flatMap fun r => (List.range r.2).map (r.1 + ·)

/-- What one row of an operation meets. -/
inductive RowRes where
  | fail (cause : Nat)
  | stall (reg va : Nat) (host : Option Nat) (write : Bool)
  /-- Behind the move of an object. -/
  | queued (p : Dbl)
  | ok (s : State) (chunks : List Chunk)

/-- One 16-byte chunk j of a row: its source bytes are read and its destination checked (R217, R218, R224, R251). -/
def engChunk (s : State) (w : View) (x : EngOp) (drow srow j : Nat) : RowRes :=
  let os := (List.range 16).filter fun i => decide (16 * j + i < rowBytes x.dst) && byteMask x.dst (engLim x) drow (16 * j + i) ≠ 0
  let dp := rowPtr x.dst drow (16 * j)
  let sp := rowPtr x.src srow (16 * j)
  match chunkSpan dp os with
  | none => .ok s []
  | some (dlo, dhi) => match direct s w x.team (advance dp (dlo : Int)) (dhi - dlo + 1) true with
    | .fail c => .fail c
    | .stall reg va host => .stall reg va host true
    | .queued => .queued dp
    | .runs drs dused _ _ =>
      let s := cacheAll s w.b.ctx (region dp) dused
      let write (s : State) (mem : Nat → Byte) : RowRes :=
        .ok s [⟨os.map fun i => ((runKeys drs).getD (i - dlo) 0, sourceByte x.src srow (16 * j + i) (mem i),
          byteMask x.dst (engLim x) drow (16 * j + i))⟩]
      match chunkSpan sp (os.filter fun i => byteNeeded x.src srow (16 * j + i)) with
      | none => write s fun _ => 0
      | some (slo, shi) => match direct s w x.team (advance sp (slo : Int)) (shi - slo + 1) false with
        | .fail c => .fail c
        | .stall reg va host => .stall reg va host false
        | .queued => .queued sp
        | .runs srs sused remote _ =>
          let s := cacheAll s w.b.ctx (region sp) sused
          match engineRead s (ctxSite w.c) remote srs with
          | .error e => .fail e
          | .ok bs => write s fun i => bs.getD (i - slo) 0

/-- R175, R178: the way to a row of an object, which its home counts once. -/
def countRow (s : State) (w : View) (p : Dbl) : State :=
  if isObject p then
    let s := routed s w.c p
    match regEntry s (ptrGoid p) with
    | some e => countAccess s e.site (ptrGoid p) (ctxSite w.c)
    | none => s
  else s

/-- One row: its chunks in order, the first that does not go through deciding. -/
def engRow (s : State) (w : View) (x : EngOp) : RowRes :=
  match engPair x x.row with
  | none => .ok s []
  | some (d, r) =>
    if x.dst.vrows ≤ d then .ok s []
    else (List.range ((rowBytes x.dst + 15) / 16)).foldl (fun acc j => match acc with
      | .ok s cs => match engChunk s w x d r j with
        | .ok s c => .ok s (cs ++ c)
        | e => e
      | e => e) (.ok (countRow (countRow s w x.dst.base) w x.src.base) [])

/-- R173, R224: an access of an operation that meets a frame in transfer takes its place in the Flume queue, where there is room. -/
def engQueued (s : State) (r : EngRef) (x : EngOp) (p : Dbl) : State :=
  let site := homeSite s (ptrGoid p)
  let id := x.ticket.getD s.fresh
  if !isObject p || s.moves.any (fun m => m.2.queue.contains id) || decide (Config.flumeQueue ≤ flumeUse s site) ||
      answerAt s site (ptrGoid p) (ptrOff p) false ≠ .queued then s
  else queueAt { putOp s r { x with ticket := some id } with fresh := max s.fresh (id + 1) } site (ptrGoid p) id

/-- ENGINE_ACCESS (R224, R226): the operation makes the accesses of its next row, or stalls, waits or fails. -/
def execEngineAccess (r : EngRef) (s : State) : Out :=
  match engOp s r with
  | none => .next s
  | some x => match viewOf s x.team with
    | none => .next s
    | some w =>
      if !x.started || x.stalled || decide (engRows x ≤ x.row) || !mayAct w.c x then .next s
      else match engRow s w x with
        | .fail c => .next (engFail s r x c)
        | .stall reg va host write => .next (putOp (postPage s w w.b.ctx reg va write host) r { x with stalled := true })
        | .queued p => .next (engQueued s r x p)
        | .ok s cs => .next (putOp s r { x with row := x.row + 1, stalled := false, ticket := none, landing := x.landing ++ cs })

/-- R225, R251: one chunk lands: only the bits of its elements change. -/
def landChunk (s : State) (w : View) (c : Chunk) : State :=
  c.cells.foldl (fun s x =>
    let old := readByte s.mem x.1
    storeRun s w.b.ctx (ctxSite w.c) x.1 [(old &&& ~~~x.2.2) ||| (x.2.1 &&& x.2.2)]) s

/-- The chunks that land together: the first, and those after it while their bytes stay within the number. -/
def landing (bytes : Nat) : List Chunk → List Chunk
  | [] => []
  | c :: cs => c :: if c.cells.length < bytes then landing (bytes - c.cells.length) cs else []

/-- ENGINE_BYTES_LAND (R225): bytes land and are credited. -/
def execEngineBytesLand (r : EngRef) (bytes : Nat) (s : State) : Out :=
  match engOp s r with
  | none => .next s
  | some x => match viewOf s x.team with
    | none => .next s
    | some w =>
      if !mayAct w.c x then .next s
      else
        let cs := landing bytes x.landing
        let n := (cs.map fun c => c.cells.length).sum
        let s := cs.foldl (fun s c => landChunk s w c) s
        let s := putOp s r { x with landing := x.landing.drop cs.length, credited := x.credited + n }
        .next (creditBytes s r.block x.credit n)

/-- R188: the bytes of engines on their way to some memory keys land. -/
def landOn (s : State) (lo hi : Nat) : State :=
  s.blocks.foldl (fun s b => [false, true].foldl (fun s g => (engQueue b.2 g).foldl (fun s x =>
    if x.landing.any fun c => c.cells.any fun k => decide (lo ≤ k.1 ∧ k.1 < hi) then
      match execEngineBytesLand ⟨b.1, g, x.num⟩ (16 * x.landing.length) s with
      | .next s => s
      | _ => s
    else s) s) s) s

/-- ENGINE_COMPLETE (R225): every write has landed. -/
def execEngineComplete (r : EngRef) (s : State) : Out :=
  match engOp s r with
  | none => .next s
  | some x => match viewOf s x.team with
    | none => .next s
    | some w =>
      if x.started && decide (engRows x ≤ x.row) && x.landing.isEmpty && mayAct w.c x then .next (engDone s r x false)
      else .next s

end Sys2Proof.Machine
end

