-- ==== Sys2Proof/Machine/MatFmt.lean ====
section
/-! DEFINITION. The arithmetic of the matrix array: element values (R48-R52), accumulator elements (R53), sums (R58, R59),
and the quantiser (R61, R62). -/
namespace Sys2Proof.Machine

/-- R48: the integer-valued formats. -/
def intValued (f : Nat) : Bool := decide (f = 4 ∨ f = 8 ∨ f = 9 ∨ 0xE ≤ f ∧ f ≤ 0x12) || isZ f

/-- R55: the rate classes W, H, S16, B8, N4, T2 in order of speed. -/
def rateClass (f : Nat) : Nat :=
  if f = 0 then 0 else if f = 1 then 1
  else if f = 2 ∨ f = 3 ∨ f = 4 ∨ isC f = true then 2
  else if 0xC ≤ f ∧ f ≤ 0xF ∨ f = 0x16 ∨ f = 0x17 ∨ f = 0x1F then 4
  else if 0x10 ≤ f ∧ f ≤ 0x12 then 5 else 3

/-- R55, R56: Kmax of a class. -/
def kMax (c : Nat) : Nat := 32 * 2 ^ c

/-- R56: (M, N) of bits [2:0] of a shape code. -/
def shapeMN (sh : Nat) : Nat × Nat :=
  match sh % 8 with
  | 0 => (16, 128) | 1 => (32, 128) | 2 => (64, 128) | 3 => (128, 128)
  | 4 => (256, 64) | 5 => (512, 32) | 6 => (64, 64) | _ => (32, 32)

/-- R56: K of a shape code for a class; none where the shape is illegal. -/
def shapeK (c sh : Nat) : Option Nat :=
  let k := kMax c / 2 ^ (sh / 8 % 4)
  if 32 ≤ k ∨ (c = 0 ∧ k = 16) then some k else none

/-- R52: the code of element c of a row's bytes. -/
def elemCode (f : Nat) (row : List Byte) (c : Nat) : Nat :=
  let p := elemBit f c
  bytesNat ((row.drop (p / 8)).take 5) / 2 ^ (p % 8) % 2 ^ elemBits f

/-- An integer as a value. -/
def intVal (x : Int) : FVal := ofInt x

/-- R49: the value of a q element from its header bytes. -/
def qVal (f e0 e1 code : Nat) : FVal :=
  let w := elemBits f
  let sel := decide (code / 2 ^ (w - 1) = 1)
  let low := code % 2 ^ (w - 1)
  let neg := decide (low / 2 ^ (w - 2) = 1)
  let e := if sel then e1 else e0
  if e = 255 then .nan false
  else if e = 0 then .num neg 0 0
  else if f = 0x18 ∨ f = 0x19 then
    match fdecode (if f = 0x18 then e2m1 else e2m3) low with
    | .num n m x => .num n m (x + e - 127)
    | v => v
  else .num neg (low % 2 ^ (w - 2)) ((e : Int) - 127 - ((w : Int) - 2))

/-- R48-R51: the value of element c of a row; `book` gives the codebook entries of a c format. -/
def elemVal (f : Nat) (book : Nat → Half) (row : List Byte) (c : Nat) : FVal :=
  let code := elemCode f row c
  match fmtOf f with
  | some t => fdecode t code
  | none =>
    if isQ f then
      let h := c / 32 * blockBytes f
      qVal f (row.getD h 0).toNat (row.getD (h + 1) 0).toNat code
    else if isZ f then intVal ((code : Int) - (row.getD (c / 32 * blockBytes f) 0).toNat)
    else if isC f then fdecode bf16 (book code).toNat
    else match f with
      | 0x04 | 0x08 | 0x0E | 0x10 => intVal (sextN code (elemBits f))
      | 0x11 => intVal (match code with
        | 1 => 1
        | 3 => -1
        | _ => 0)
      | 0x12 => intVal (if code = 0 then -1 else 1)
      | _ => intVal code

/-! ### Accumulator elements (R53, R58, R59) -/

/-- R53: the value of an accumulator element. -/
def accVal (k : AccKind) (x : BitVec 40) : FVal :=
  match k with
  | .a40 => fdecode a40 x.toNat
  | .int40 => intVal x.toInt

/-- R58: a value enters a40 rounded rn; whether a finite value overflowed. -/
def toA40 (v : FVal) : BitVec 40 × Bool :=
  let (c, fl) := fround a40 .rn v
  (BitVec.ofNat 40 c, fl &&& fOF ≠ 0)

/-- R53, R58: an exact integer saturates into int40. -/
def toI40 (x : Int) : BitVec 40 × Bool :=
  if 2 ^ 39 ≤ x then (BitVec.ofInt 40 (2 ^ 39 - 1), true)
  else if x < -(2 ^ 39) then (BitVec.ofInt 40 (-(2 ^ 39)), true)
  else (BitVec.ofInt 40 x, false)

/-- The integer an integer-valued element stands for. -/
def asI (v : FVal) : Int :=
  match v with
  | .num neg m _ => if neg then -(m : Int) else m
  | _ => 0

/-- R59: the exact sum of a chunk of products. -/
def chunkSum : List (FVal × FVal) → FVal
  | [] => .num false 0 0
  | (a, b) :: ps => ps.foldl (fun s p => (fadd .rn s (fmul p.1 p.2).1).1) (fmul a b).1

/-- The pairs of a row of A and a row of B in chunks of 32 (R58). -/
def chunks32 : Nat → List (FVal × FVal) → List (List (FVal × FVal))
  | 0, _ => []
  | n + 1, ps => if ps.isEmpty then [] else ps.take 32 :: chunks32 n (ps.drop 32)

/-- R58: one output element over all chunks, and whether it clamped or overflowed. -/
def dotStep (k : AccKind) (d : BitVec 40) (ps : List (FVal × FVal)) : BitVec 40 × Bool :=
  (chunks32 (ps.length / 32 + 1) ps).foldl (fun acc c =>
    match k with
    | .int40 =>
      let s := (c.map fun p => asI p.1 * asI p.2).sum
      let (x, sat) := toI40 (acc.1.toInt + s)
      (x, acc.2 || sat)
    | .a40 =>
      let (x, of) := toA40 (fadd .rn (accVal .a40 acc.1) (chunkSum c)).1
      (x, acc.2 || of)) (d, false)

/-- R237: the constant a masked element takes. -/
def triConst (k : AccKind) (w : Word) : BitVec 40 :=
  match k with
  | .a40 => (toA40 (fdecode f32 w.toNat)).1
  | .int40 => w.signExtend 40

/-- R237: whether element (i, j) is masked: d, row0 and col0. -/
def triMasked (ps : List Word) (i j : Nat) : Bool :=
  let d : Int := (ps.getD 4 0).toInt
  decide (d < (((ps.getD 6 0).toNat + j : Nat) : Int) - (((ps.getD 5 0).toNat + i : Nat) : Int))

/-- R58, R237: a product of rows of A, the first of which is row i0 of its tile, and N rows of B into an accumulator. -/
def product (k : AccKind) (n : Nat) (as_ bs : List (List FVal)) (old : List (BitVec 40)) (tri : Option (List Word))
    (i0 : Nat := 0) : List (BitVec 40) × Bool :=
  (as_.zipIdx.foldl (fun acc ai =>
    bs.zipIdx.foldl (fun (acc : List (BitVec 40) × List (BitVec 40) × Bool) bj =>
      let (out, rest, sat) := acc
      let d := rest.headD 0
      match tri with
      | some ps => if triMasked ps (i0 + ai.2) bj.2 then (triConst k (ps.getD 7 0) :: out, rest.drop 1, sat)
          else let (x, o) := dotStep k d (ai.1.zip bj.1)
            (x :: out, rest.drop 1, sat || o)
      | none => let (x, o) := dotStep k d (ai.1.zip bj.1)
        (x :: out, rest.drop 1, sat || o)) acc) (([] : List (BitVec 40)), old, false)) |>
    fun r => (r.1.reverse.take (as_.length * n), r.2.2)

/-! ### Writing elements (R47, R61-R63) -/

/-- R235 MRD, R47: the code of a value in a plain format, and whether QS is set. -/
def readCode (f : Nat) (v : FVal) : Nat × Bool :=
  match fmtOf f with
  | some t => let (c, fl) := fround t .rn v
    (c, fl &&& (fOF ||| fNV) ≠ 0)
  | none =>
    let w := elemBits f
    let lo : Int := if f = 0x11 then -1 else if f = 0x09 ∨ f = 0x0F then 0 else -(2 ^ (w - 1))
    let hi : Int := if f = 0x11 then 1 else if f = 0x09 ∨ f = 0x0F then 2 ^ w - 1 else 2 ^ (w - 1) - 1
    let (x, special) : Int × Bool := match v with
      | .nan _ => (0, true)
      | .inf n => (if n then lo else hi, true)
      | .num n m e => ((roundInt .rn n m e).1, false)
    let y := max lo (min hi x)
    ((y % 2 ^ w).toNat, special || decide (y ≠ x))

/-- R61: magnitudes of a q format as codes: MAX and HALF. -/
def qMax (f : Nat) : Nat := if f = 0x18 then 7 else if f = 0x19 then 31 else 2 ^ (elemBits f - 2) - 1
def qHalf (f : Nat) : Nat := if f = 0x18 then 5 else if f = 0x19 then 23 else 2 ^ (elemBits f - 3) - 1

/-- R61: rmag(x, E) of a finite magnitude m × 2^e, as a code. -/
def rmag (f : Nat) (m : Nat) (e : Int) (E : Nat) : Nat :=
  if f = 0x18 ∨ f = 0x19 then
    let t := if f = 0x18 then e2m1 else e2m3
    if m = 0 then 0
    else
      let e := e - ((E : Int) - 127)
      let top := e + bitLen m - 1
      let q := max (top - t.mb) t.qmin
      let k := (roundAt .rn false m e q).1
      (k + (q - t.qmin) * 2 ^ t.mb).toNat
  else (roundAt .rn false m e ((E : Int) - 127 - ((elemBits f : Int) - 2))).1

/-- R61: one pass over a block under E0: the (sel, mag) of each finite element, and whether one is over. -/
def qPass (f g E0 : Nat) (xs : List FVal) : List (Bool × Nat) × Bool :=
  let E1 := if g + 1 ≤ E0 then E0 - g else 0
  xs.foldr (fun x acc => match x with
    | .num _ m e =>
      let r1 := rmag f m e E1
      if 1 ≤ E1 ∧ r1 ≤ qMax f then ((true, r1) :: acc.1, acc.2)
      else
        let r0 := rmag f m e E0
        ((false, r0) :: acc.1, acc.2 || decide (qMax f < r0))
    | .inf _ => ((false, qMax f) :: acc.1, acc.2)
    | .nan _ => ((false, 0) :: acc.1, acc.2)) ([], false)

/-- R61: the passes of a block: the last E0 and its elements. -/
def qPasses (f g : Nat) (xs : List FVal) : Nat → Nat → Nat × List (Bool × Nat)
  | 0, E0 => (E0, (qPass f g E0 xs).1)
  | n + 1, E0 =>
    let (es, sat) := qPass f g E0 xs
    if !sat || decide (E0 = 254) then (E0, es) else qPasses f g xs n (E0 + 1)

/-- R61: a block: its header bytes, its element codes, QS, and the prediction for the next row. -/
def qBlock (f g pred : Nat) (xs : List FVal) : (Nat × Nat) × List Nat × Bool × Nat :=
  let (E0, es) := qPasses f g xs 2 pred
  let w := elemBits f
  let codes := (xs.zip es).map fun x =>
    let neg := match x.1 with
      | .num n _ _ => n
      | .inf n => n
      | .nan _ => false
    (if x.2.1 then 2 ^ (w - 1) else 0) + (if neg then 2 ^ (w - 2) else 0) + min x.2.2 (qMax f)
  let special := xs.any fun x => match x with
    | .num _ _ _ => false
    | _ => true
  let qs := special || es.any fun e => decide (qMax f < e.2)
  let small := !special && xs.all fun x => match x with
    | .num _ m e => decide (rmag f m e E0 ≤ qHalf f)
    | _ => false
  ((E0, if g + 1 ≤ E0 then E0 - g else 0), codes, qs, if 2 ≤ E0 && small then E0 - 1 else E0)

/-- R62: a z block: its zero point, its codes and QS. -/
def zBlock (f : Nat) (xs : List FVal) : Nat × List Nat × Bool :=
  let vs := xs.map fun x => match x with
    | .nan _ => ((0 : Int), true)
    | .inf n => (if n then -(2 ^ 39) else 2 ^ 39 - 1, true)
    | .num n m e => ((roundInt .rn n m e).1, false)
  let least := vs.foldl (fun a v => min a v.1) (vs.headD (0, false)).1
  let z := max 0 (min 255 (-least))
  let top : Int := 2 ^ elemBits f - 1
  (z.toNat, vs.map fun v => (max 0 (min top (v.1 + z))).toNat,
    vs.any fun v => v.2 || decide (v.1 + z < 0) || decide (top < v.1 + z))

/-- R52: the bytes of a row from (bit position, bits, code). -/
def packRow (bytes : Nat) (fields : List (Nat × Nat)) : List Byte :=
  natBytes bytes ((fields.map fun x => x.2 * 2 ^ x.1).sum)

/-- R61, R62: the quantised row of a slot: its bytes, QS, and the predictions for the next row. -/
def quantRow (f g : Nat) (preds : List Nat) (xs : List FVal) : List Byte × Bool × List Nat :=
  let nb := xs.length / 32
  let blocks := (List.range nb).map fun b =>
    let ys := (xs.drop (32 * b)).take 32
    let base := b * blockBytes f * 8
    if isQ f then
      let ((e0, e1), cs, qs, p) := qBlock f g (preds.getD b 0) ys
      ([(base, e0), (base + 8, e1)] ++ (cs.zipIdx.map fun (c : Nat × Nat) => (elemBit f (32 * b + c.2), c.1)), qs, p)
    else
      let (z, cs, qs) := zBlock f ys
      ([(base, z)] ++ (cs.zipIdx.map fun (c : Nat × Nat) => (elemBit f (32 * b + c.2), c.1)), qs, 0)
  (packRow (nb * blockBytes f) (blocks.flatMap (·.1)), blocks.any (·.2.1), blocks.map (·.2.2))

end Sys2Proof.Machine
end

