-- ==== Sys2Proof/Machine/Matrix.lean ====
section
/-! DEFINITION. The matrix instructions (R230-R237, R252) and the steps of the matrix sequencer. -/
namespace Sys2Proof.Machine

/-! ### Issue -/

/-- R276: the detail of causes 0x140 to 0x149. -/
def matInfo (o : E64) : Nat := o.h.toNat + 256 * kpOf o

/-- An entry's own check: its cause where it fails. -/
def chk (bad : Bool) (cause info : Nat) : Option (Nat × Nat) := if bad then some (cause, info) else none

/-- The first check that fails, in the order written. -/
def firstBad : List (Option (Nat × Nat)) → Option (Nat × Nat)
  | [] => none
  | some x :: _ => some x
  | none :: cs => firstBad cs

/-- The record of a tile register (one that is not loaded has raised 0x182 before it is used). -/
def recOf (t : Team) (n : Nat) : TileRec := (tget t.x n).getD ⟨0, 0, 0, 0, 0, 0, 0, 0, 0, 0⟩

/-- R234: 0x145. -/
def notOwn (r : TileRec) : Bool := isObject r.base || decide (region r.base ≠ 2 ∨ sub r.base 57 3 ≠ 0)

/-- R233: the slot that an id names in the issued view. -/
def islotOf (b : Block) (id : Nat) : Option ISlot := b.islots.find? fun x => decide (x.view = .slot id)

/-- R233: a handle's issued value. -/
def handleOf (t : Team) (h : Nat) : Nat := tgetD t.a h 255

/-- R233, R20: a handle that still waits for the slot of an issued operation. -/
def handlePending (t : Team) (h : Nat) : Bool :=
  match tget t.ia h with
  | some (.alloc _) => true
  | _ => false

/-- R233: a use of a handle that is not a first write. -/
def readHandle (b : Block) (id info : Nat) : Option (Nat × Nat) :=
  if id = 255 then some (0x140, info) else chk (islotOf b id).isNone 0x148 info

/-- R280: the slot that an instruction reads holds an uncorrectable error, and no operation before it in the queue writes it. -/
def badSlot (w : View) (id : Nat) : Option (Nat × Nat) :=
  chk ((tget w.c.slots id).any (·.bad) && !(w.b.matQ.any fun q => decide (q.dst = .slot id))) 0x2C7 id

/-- R233, R252: a first write: the quota, or the slot that is reused. -/
def writeHandle (b : Block) (id info : Nat) : Option (Nat × Nat) :=
  if id = 255 then chk (decide (b.quota ≤ b.islots.length)) 0x142 info else chk (islotOf b id).isNone 0x148 info

/-- R54, R234: an accumulating use of a slot of the issued view: its kind, then (M, N). -/
def accChecks (b : Block) (id info : Nat) (kind : AccKind) (m n : Nat) : Option (Nat × Nat) :=
  match islotOf b id with
  | some x => firstBad [chk (decide (x.kind ≠ kind)) 0x141 info, chk (decide (x.m ≠ m ∨ x.n ≠ n)) 0x143 info]
  | none => none

/-- R233: the issued view after a first write. -/
def claimSlot (b : Block) (id num : Nat) (kind : AccKind) (m n : Nat) : Block :=
  if id = 255 then { b with islots := b.islots ++ [⟨.alloc num, kind, m, n⟩] }
  else { b with islots := b.islots.map fun x => if x.view = .slot id then ⟨.slot id, kind, m, n⟩ else x }

/-- The parameter run k[kp] to k[kp + 7] (R232). -/
def paramRun (t : Team) (kp : Nat) : List Word := (List.range 8).map fun i => kget t (kp + i)

/-- R232: a codebook number of the context. -/
def badBook (w : View) (n : Nat) : Bool := decide ((if w.c.slot = .wide then 15 else 7) < n)
def bookA (ps : List Word) : Nat := (ps.getD 0 0).toNat % 16
def bookB (ps : List Word) : Nat := (ps.getD 0 0).toNat / 16 % 16
/-- R280: a codebook register holds an uncorrectable error, and no MCBL before the instruction in the queue loads it. -/
def spoiltBook (w : View) (n : Nat) : Bool :=
  w.c.badBooks.contains n && !(w.b.matQ.any fun q => decide (q.kind = .mcbl ∧ (q.params.getD 0 0).toNat % 16 = n))
def bookChecks (w : View) (ps : List Word) (fa fb : Nat) (info : Nat) : Option (Nat × Nat) :=
  firstBad [chk ((isC fa && badBook w (bookA ps)) || (isC fb && badBook w (bookB ps))) 0x146 info,
    chk (isC fa && spoiltBook w (bookA ps)) 0x2C6 (bookA ps), chk (isC fb && spoiltBook w (bookB ps)) 0x2C6 (bookB ps)]

/-- R223 step 8: a matrix operation takes its place in the block's queue. -/
def enqueue (s : State) (w : View) (op : MatOp) (f : Nat → Block → Block) : State :=
  let num := w.b.mat.issued + 1
  modBlock { s with fresh := s.fresh + 1 } w.t.block fun b =>
    let b := takeTag (f num b) op.tag
    { b with matQ := b.matQ ++ [{ op with num := num, team := s.cur, order := s.fresh }], mat := tlIssue b.mat }

/-- R233: the view of a handle's value, and the handle once an operation allocates through it. -/
def viewOfId (id num : Nat) : HandleView := if id = 255 then .alloc num else .slot id
def awaitSlot (t : Team) (h id num : Nat) : Team :=
  if id = 255 then { t with ia := tput t.ia h (.alloc num) } else t

/-- R232: the words of the parameter run that an instruction reads: for a codebook, a loop and the triangle. -/
def paramWords (book loop tri : Bool) : List Nat :=
  (if book then [0] else []) ++ (if loop then [1, 2, 3] else []) ++ (if tri then [4, 5, 6, 7] else [])

/-- A matrix instruction: its handle is read when the scoreboard allows (R280: the register may hold an error), then the steps of
R223. -/
def matIssue (o : E64) (s : State) (hs words : List Nat) (g : View → EngGate) (go : View → Out) : Out :=
  withView s [] [] ((kqOf o, 1) :: words.map fun i => (kpOf o + i, 1)) fun w =>
    if hs.any (handlePending w.t) then block s .handle
    else match hs.find? fun h => w.t.badA.contains h with
    | some h => .next (raise s 0x2C6 h)
    | none => engIssue s w { g w with full := decide (8 ≤ w.b.matQ.length) } fun _ => go w

/-- R234: an A or B operand: format, place, rows and columns. -/
def tileChecks (r : TileRec) (fmt rows cols info : Nat) : List (Option (Nat × Nat)) :=
  [chk (decide (r.format ≠ fmt)) 0x144 info, chk (notOwn r) 0x145 info,
   chk (decide (r.rows < rows ∨ r.cols < cols)) 0x143 info]

/-- MLDS (R234, R235). -/
def execMlds (o : E64) (s : State) : Out :=
  let fb := o.fb.toNat
  let (_, n) := shapeMN o.sh.toNat
  let k := shapeK (rateClass fb) o.sh.toNat
  let info := matInfo o
  matIssue o s [] (paramWords (isC fb) false false) (fun w =>
      let x := recOf w.t (x2Of o)
      { reads := [x2Of o], feet := [(x2Of o, x)],
        own := firstBad ([chk k.isNone 0x00A 0] ++ tileChecks x fb n (k.getD 0) info ++
          [bookChecks w (paramRun w.t (kpOf o)) 0 fb info]) }) fun w =>
    let x := recOf w.t (x2Of o)
    let ps := paramRun w.t (kpOf o)
    let s := enqueue s w { num := 0, team := 0, kind := .mlds, x2 := some x, fb := fb, n := n, k := k.getD 0, params := ps }
      fun _ b => { b with ishadow := some { src := x, n := n, k := k.getD 0, fmt := fb, book := bookB ps } }
    .next (complete s s.cur w.t 8)

/-- MSWP (R235). -/
def execMswp (s : State) : Out :=
  withView s [] [] [] fun w =>
    engIssue s w { reads := [], full := decide (8 ≤ w.b.matQ.length) } fun _ =>
      let s := enqueue s w { num := 0, team := 0, kind := .mswp } fun _ b => { b with iactive := b.ishadow, ishadow := b.iactive }
      .next (complete s s.cur w.t 8)

/-- R54: the kind of a product. -/
def productKind (fa fb : Nat) : AccKind := if intValued fa && intValued fb then .int40 else .a40

/-- R234: a plane of the issued view against what an instruction needs. -/
def planeChecks (p : Option Plane) (fb n k info : Nat) : Option (Nat × Nat) :=
  match p with
  | none => some (0x149, info)
  | some p => firstBad [chk (decide (p.fmt ≠ fb)) 0x144 info, chk (decide (p.n ≠ n ∨ p.k ≠ k)) 0x143 info]

/-- R233, R234: the handle of MMA and MLOOP. -/
def dstChecks (w : View) (ovw : Bool) (id info : Nat) (kind : AccKind) (m n : Nat) : Option (Nat × Nat) :=
  if ovw then writeHandle w.b id info else firstBad [readHandle w.b id info, badSlot w id, accChecks w.b id info kind m n]

/-- R236: the steps S and the increments of a parameter run. -/
def loopSteps (ps : List Word) : Nat := (ps.getD 1 0).toNat
def loopDA (ps : List Word) : Int := (ps.getD 2 0).toInt
def loopDB (ps : List Word) : Int := (ps.getD 3 0).toInt

/-- R219, R236: the record of a step, and whether its footprint leaves the block's allocation. -/
def stepRec (r : TileRec) (i : Nat) (d : Int) : TileRec := { r with base := advance r.base (i * d) }
def stepOut (b : Block) (r : TileRec) (i : Nat) (d : Int) : Bool :=
  let lo := (sub r.base 0 57 : Int) + i * d
  decide (lo < 0 ∨ (b.spad : Int) < lo + footprint r)

/-- MMA (R234, R235). -/
def execMma (o : E64) (s : State) : Out :=
  let fa := o.fa.toNat
  let fb := o.fb.toNat
  let (m, n) := shapeMN o.sh.toNat
  let k := shapeK (min (rateClass fa) (rateClass fb)) o.sh.toNat
  let ovw := o.fl.getLsbD 0
  let info := matInfo o
  matIssue o s [o.h.toNat] (paramWords (isC fa || isC fb) false (o.fl.getLsbD 1)) (fun w =>
      let x := recOf w.t (x1Of o)
      { reads := [x1Of o], feet := [(x1Of o, x)],
        own := firstBad ([chk k.isNone 0x00A 0] ++ tileChecks x fa m (k.getD 0) info ++
          [planeChecks w.b.iactive fb n (k.getD 0) info,
           dstChecks w ovw (handleOf w.t o.h.toNat) info (productKind fa fb) m n,
           bookChecks w (paramRun w.t (kpOf o)) fa fb info]) }) fun w =>
    let id := handleOf w.t o.h.toNat
    let num := w.b.mat.issued + 1
    let s := enqueue s w { num := 0, team := 0, kind := .mma, x1 := some (recOf w.t (x1Of o)), handle := o.h.toNat,
                           dst := viewOfId id num, fa := fa, fb := fb, m := m, n := n, k := k.getD 0, ovw := ovw,
                           tri := o.fl.getLsbD 1, params := paramRun w.t (kpOf o) }
      fun num b => if ovw then claimSlot b id num (productKind fa fb) m n else b
    .next (complete s s.cur (awaitSlot w.t o.h.toNat id num) 8)

/-- MLOOP (R234, R236). -/
def execMloop (o : E64) (s : State) : Out :=
  let fa := o.fa.toNat
  let fb := o.fb.toNat
  let (m, n) := shapeMN o.sh.toNat
  let k := shapeK (min (rateClass fa) (rateClass fb)) o.sh.toNat
  let ovw := o.fl.getLsbD 0
  let pre := o.fl.getLsbD 2
  let info := matInfo o
  matIssue o s [o.h.toNat] (paramWords (isC fa || isC fb) true (o.fl.getLsbD 1)) (fun w =>
      let x := recOf w.t (x1Of o)
      let y := recOf w.t (x2Of o)
      let ps := paramRun w.t (kpOf o)
      { reads := [x1Of o, x2Of o],
        feet := [],
        own := firstBad ([chk k.isNone 0x00A 0] ++ tileChecks x fa m (k.getD 0) info ++
          [dstChecks w ovw (handleOf w.t o.h.toNat) info (productKind fa fb) m n,
           bookChecks w ps fa fb info] ++ tileChecks y fb n (k.getD 0) info ++
          [chk (decide (loopSteps ps = 0 ∨ 65535 < loopSteps ps ∨ loopDA ps % 16 ≠ 0 ∨ loopDB ps % 16 ≠ 0)) 0x147 info,
           if pre then planeChecks w.b.ishadow fb n (k.getD 0) info else none,
           chk (stepOut w.b x 0 0 || stepOut w.b x (loopSteps ps - 1) (loopDA ps)) 0x180 (x1Of o),
           chk (stepOut w.b y 0 0 || stepOut w.b y (loopSteps ps - 1) (loopDB ps)) 0x180 (x2Of o)]) }) fun w =>
    let id := handleOf w.t o.h.toNat
    let num := w.b.mat.issued + 1
    let ps := paramRun w.t (kpOf o)
    let y := recOf w.t (x2Of o)
    let last : Option Plane := if pre && decide (loopSteps ps = 1) then w.b.ishadow
      else some { src := stepRec y (loopSteps ps - 1) (loopDB ps), n := n, k := k.getD 0, fmt := fb, book := bookB ps }
    let s := enqueue s w { num := 0, team := 0, kind := .mloop, x1 := some (recOf w.t (x1Of o)), x2 := some y,
                           handle := o.h.toNat, dst := viewOfId id num, fa := fa, fb := fb, m := m, n := n, k := k.getD 0,
                           ovw := ovw, tri := o.fl.getLsbD 1, pre := pre, params := ps }
      fun num b => { (if ovw then claimSlot b id num (productKind fa fb) m n else b) with iactive := last, ishadow := none }
    .next (complete s s.cur (awaitSlot w.t o.h.toNat id num) 8)

/-- MZERO (R234, R235). -/
def execMzero (o : E64) (s : State) : Out :=
  let (m, n) := shapeMN o.sh.toNat
  let kind : AccKind := if o.fl.getLsbD 0 then .int40 else .a40
  matIssue o s [o.h.toNat] [] (fun w => { reads := [], own := writeHandle w.b (handleOf w.t o.h.toNat) (matInfo o) }) fun w =>
    let id := handleOf w.t o.h.toNat
    let num := w.b.mat.issued + 1
    let s := enqueue s w { num := 0, team := 0, kind := .mzero, handle := o.h.toNat, dst := viewOfId id num, m := m, n := n,
                           tri := o.fl.getLsbD 0 } fun num b => claimSlot b id num kind m n
    .next (complete s s.cur (awaitSlot w.t o.h.toNat id num) 8)

/-- MREL (R233, R235). -/
def execMrel (o : E64) (s : State) : Out :=
  let h := o.h.toNat
  matIssue o s [h] [] (fun w => { reads := [], own := if handleOf w.t h = 255 then none else readHandle w.b (handleOf w.t h) (matInfo o) }) fun w =>
    let id := handleOf w.t h
    let s := enqueue s w { num := 0, team := 0, kind := .mrel, handle := h, src := if id = 255 then .none else .slot id }
      fun _ b => { b with islots := b.islots.filter fun x => decide (x.view ≠ .slot id) }
    .next (complete s s.cur { w.t with a := tput w.t.a h 255 } 8)

/-- R234: the checks MRD and MQNT share. Their rows list no handle check: it stands between 0x145 and 0x143 (log 22). -/
def drainChecks (o : E64) (w : View) (x : TileRec) : List (Option (Nat × Nat)) :=
  let info := matInfo o
  let id := handleOf w.t o.h.toNat
  [chk (decide (x.format ≠ o.fa.toNat)) 0x144 info, chk (notOwn x) 0x145 info, readHandle w.b id info, badSlot w id,
   match islotOf w.b id with
   | some q => chk (decide (x.rows < q.m ∨ x.cols < q.n)) 0x143 info
   | none => none]

/-- R234: MRD and MQNT take their place in the queue. -/
def drainIssue (kind : MatKind) (o : E64) (s : State) (words : List Nat) (more : View → Option (Nat × Nat)) : Out :=
  matIssue o s [o.h.toNat] words (fun w =>
      let x := recOf w.t (x1Of o)
      { reads := [x1Of o], own := firstBad (drainChecks o w x ++ [more w]), feet := [(x1Of o, x)], tag := tagArg o,
        bar := barArg w.t o }) fun w =>
    let id := handleOf w.t o.h.toNat
    let (m, n) := match islotOf w.b id with
      | some q => (q.m, q.n)
      | none => (0, 0)
    let s := enqueue s w { num := 0, team := 0, kind := kind, x1 := some (recOf w.t (x1Of o)), handle := o.h.toNat,
                           src := .slot id, fa := o.fa.toNat, m := m, n := n, params := paramRun w.t (kpOf o),
                           tag := tagArg o, credit := capture s w (barArg w.t o) } fun _ b => b
    .next (complete s s.cur w.t 8)

/-- MRD (R234, R235). -/
def execMrd (o : E64) (s : State) : Out := drainIssue .mrd o s [] fun _ => none

/-- MQNT (R232, R234, R235): the seed and the gap of a q format. -/
def execMqnt (o : E64) (s : State) : Out :=
  drainIssue .mqnt o s (paramWords (isQ o.fa.toNat) false false) fun w =>
    let p := (kget w.t (kpOf o)).toNat
    chk (isQ o.fa.toNat && decide (p % 256 = 0 ∨ p % 256 = 255 ∨ p / 256 % 16 = 0)) 0x147 (matInfo o)

/-- MSCAC (R234, R235): aD in the handle field, aS in minor bits [14:12]. -/
def execMscac (o : E64) (s : State) : Out :=
  let hd := o.h.toNat
  let hs := sub o.m 4 3
  let acc := o.fl.getLsbD 0
  let info := matInfo o
  matIssue o s [hs, hd] [] (fun w =>
      let x := recOf w.t (x1Of o)
      let y := recOf w.t (x2Of o)
      let src := handleOf w.t hs
      let dst := handleOf w.t hd
      let q := (islotOf w.b src).getD ⟨.none, .a40, 0, 0⟩
      { reads := [x1Of o, x2Of o], feet := [(x1Of o, x), (x2Of o, y)],
        own := firstBad [readHandle w.b src info, badSlot w src, chk (decide (x.format ≠ 0 ∨ y.format ≠ 0)) 0x144 info,
          chk (notOwn x || notOwn y) 0x145 info,
          chk (decide (x.cols < q.m ∨ y.cols < q.n ∨ x.rows = 0 ∨ y.rows = 0)) 0x143 info,
          if acc then firstBad [readHandle w.b dst info, badSlot w dst, accChecks w.b dst info .a40 q.m q.n] else writeHandle w.b dst info] })
    fun w =>
      let src := handleOf w.t hs
      let dst := handleOf w.t hd
      let q := (islotOf w.b src).getD ⟨.none, .a40, 0, 0⟩
      let num := w.b.mat.issued + 1
      let s := enqueue s w { num := 0, team := 0, kind := .mscac, x1 := some (recOf w.t (x1Of o)),
                             x2 := some (recOf w.t (x2Of o)), handle := hd, dst := viewOfId dst num, src := .slot src,
                             m := q.m, n := q.n, ovw := !acc }
        fun num b => if acc then b else claimSlot b dst num .a40 q.m q.n
      .next (complete s s.cur (awaitSlot w.t hd dst num) 8)

/-- MCBL (R234, R235): the record may stand anywhere. -/
def execMcbl (o : E64) (s : State) : Out :=
  let info := matInfo o
  matIssue o s [] (paramWords true false false) (fun w =>
      let x := recOf w.t (x1Of o)
      { reads := [x1Of o], feet := [(x1Of o, x)],
        own := firstBad [chk (decide (x.format ≠ 2)) 0x144 info,
          chk (badBook w ((kget w.t (kpOf o)).toNat % 16)) 0x146 info] }) fun w =>
    let s := enqueue s w { num := 0, team := 0, kind := .mcbl, x1 := some (recOf w.t (x1Of o)),
                           params := paramRun w.t (kpOf o) } fun _ b => b
    .next (complete s s.cur w.t 8)

/-- MHND.get (R233, R235). -/
def execMhndGet (o : E64) (s : State) : Out :=
  withView s [] [] [] (kd := [(kpOf o, 1)]) fun w =>
    if handlePending w.t o.h.toNat then block s .handle
    else if w.t.badA.contains o.h.toNat then .next (raise s 0x2C6 o.h.toNat)
    else finish s (kset w.t (kpOf o) (BitVec.ofNat 32 (handleOf w.t o.h.toNat))) 8

/-- MHND.set (R234, R235). -/
def execMhndSet (o : E64) (s : State) : Out :=
  withView s [] [] [(kpOf o, 1)] fun w =>
    let v := (kget w.t (kpOf o)).toNat % 256
    if v ≠ 255 ∧ (islotOf w.b v).isNone then .next (raise s 0x148 (matInfo o))
    else finish s { w.t with a := tput w.t.a o.h.toNat v, ia := tdel w.t.ia o.h.toNat, badA := w.t.badA.filter (· ≠ o.h.toNat) } 8

/-! ### Execution -/

/-- The bytes of one row of a scratchpad operand, with fill outside its valid area; none where one holds an error. -/
def opRow (s : State) (block : Nat) (x : TileRec) (row n : Nat) : Option (List Byte) :=
  (List.range n).foldr (fun o acc => match acc with
    | none => none
    | some bs =>
      let key := spadKey block (sub (rowPtr x row o) 0 57)
      if byteNeeded x row o then
        if (lineErr s key).isSome then none else some (sourceByte x row o (readByte s.mem key) :: bs)
      else some (sourceByte x row o 0 :: bs)) (some [])

/-- R52: bytes of a row of k elements. -/
def rowLen (f k : Nat) : Nat := if isBlocked f then (k + 31) / 32 * blockBytes f else (k * elemBits f + 7) / 8

/-- Rows lo to hi - 1 of an operand. -/
def opRows (s : State) (block : Nat) (x : TileRec) (lo hi k : Nat) : Option (List (List Byte)) :=
  (List.range (hi - lo)).mapM fun r => opRow s block x (lo + r) (rowLen x.format k)

/-- R51: the entries of a codebook register of the context. -/
def bookEntries (c : Ctx) (reg : Nat) : List Half := (List.range 256).map fun i => tgetD c.books (reg * 256 + i) 0

/-- The values of k elements of a row. -/
def rowVals (f : Nat) (book : List Half) (k : Nat) (row : List Byte) : List FVal :=
  (List.range k).map fun c => elemVal f (fun i => book.getD i 0) row c

/-- Free bytes: what the manual promises nothing about (log 3). -/
def freeBytes (stamp n : Nat) : List Byte := (List.range n).map fun i => Config.freeByte stamp i
def freeElems (stamp n : Nat) : List (BitVec 40) := (List.range n).map fun i => (Config.freeDbl (stamp + i)).setWidth 40

/-- R235 MLDS: the plane a record gives, and whether it was read without an error. -/
def loadPlane (s : State) (c : Ctx) (block : Nat) (x : TileRec) (f n k book : Nat) : Plane × Bool :=
  let entries := if isC f then bookEntries c book else []
  match opRows s block x 0 n k with
  | some rows => ({ src := x, n := n, k := k, fmt := f, book := book, data := rows.flatten, entries := entries }, true)
  | none => ({ src := x, n := n, k := k, fmt := f, book := book, data := freeBytes s.stamp (n * rowLen f k),
               entries := entries }, false)

/-- The rows of B a plane holds, as values. -/
def planeVals (p : Plane) : List (List FVal) :=
  let len := rowLen p.fmt p.k
  (List.range p.n).map fun j => rowVals p.fmt p.entries p.k ((p.data.drop (j * len)).take len)

/-- What an operation leaves: the state of its block's slots, planes and memory, whether it saturated (AS, QS) and its
failure. -/
structure MatEnd where
  s : State
  as_ : Bool := false
  qs : Bool := false
  failed : Option Nat := none

/-- Sets a slot of a context. -/
def putSlot (s : State) (ctx id : Nat) (x : AccSlot) : State := modCtx s ctx fun c => { c with slots := tput c.slots id x }

def zeros (n : Nat) : List (BitVec 40) := List.replicate n 0

/-- The destination slot of an operation. -/
def slotId : HandleView → Nat
  | .slot id => id
  | _ => 255

/-- R280: what a slot's elements are when a failed operation leaves them. -/
def failSlot (s : State) (ctx block : Nat) (op : MatOp) (kind : AccKind) (cause : Nat) : MatEnd :=
  { s := { putSlot s ctx (slotId op.dst) ⟨block, kind, op.m, op.n, freeElems s.stamp (op.m * op.n), false⟩ with
           stamp := s.stamp + op.m * op.n }
    failed := some cause }

/-- R249: the rows of all steps of an operation that may stop between two of them, and the parts of its steps from where it stands
up to a row: (step, first row, row after the last). -/
def matSteps (op : MatOp) : Nat := if op.kind = .mloop then loopSteps op.params else 1
def matRows (op : MatOp) : Nat :=
  if op.kind = .mma ∨ op.kind = .mloop ∨ op.kind = .mrd ∨ op.kind = .mqnt ∨ op.kind = .mscac then matSteps op * op.m else 0
def matParts (op : MatOp) (upto : Nat) : List (Nat × Nat × Nat) :=
  (List.range (matSteps op)).filterMap fun i =>
    let lo := max op.row (i * op.m) - i * op.m
    let hi := min upto ((i + 1) * op.m) - i * op.m
    if lo < hi then some (i, lo, hi) else none

/-- R235 MMA, R58: rows lo to hi - 1 of one product into the slot; `old` what the slot held. -/
def runProduct (s : State) (c : Ctx) (block : Nat) (op : MatOp) (x : TileRec) (p : Plane) (old : List (BitVec 40))
    (lo hi : Nat) : Option (List (BitVec 40) × Bool) :=
  (opRows s block x lo hi op.k).map fun rows =>
    let book := if isC op.fa then bookEntries c (bookA op.params) else []
    let r := product (productKind op.fa op.fb) op.n (rows.map (rowVals op.fa book op.k)) (planeVals p)
      ((old.drop (lo * op.n)).take ((hi - lo) * op.n)) (if op.tri then some op.params else none) lo
    (old.take (lo * op.n) ++ r.1 ++ old.drop (hi * op.n), r.2)

/-- What the destination slot holds before an operation goes on: zeros at the start under OVW; none where it holds an error. -/
def slotBefore (c : Ctx) (op : MatOp) : Option (List (BitVec 40)) :=
  if op.ovw && decide (op.row = 0) then some (zeros (op.m * op.n))
  else match tget c.slots (slotId op.dst) with
    | some x => if x.bad then none else some x.data
    | none => none

/-- R235, R236: the plane of a step: the active one for MMA; for MLOOP the shadow under PRE, else what the step's record gives. -/
def stepPlane (s : State) (c : Ctx) (block : Nat) (b : Block) (op : MatOp) (y : TileRec) (i : Nat) : Option Plane :=
  if op.kind = .mma then b.active
  else if i = 0 ∧ op.pre then b.shadow
  else match loadPlane s c block (stepRec y i (loopDB op.params)) op.fb op.n op.k (bookB op.params) with
    | (p, true) => some p
    | (_, false) => none

/-- MMA, MLOOP up to a row: the elements, whether one saturated and the last plane used; none where a read fails. -/
def runSteps (s : State) (c : Ctx) (block : Nat) (b : Block) (op : MatOp) (x y : TileRec) (old : List (BitVec 40)) (upto : Nat) :
    Option (List (BitVec 40) × Bool × Option Plane) :=
  (matParts op upto).foldl (fun acc i => match acc with
    | none => none
    | some (d, sat, _) => match stepPlane s c block b op y i.1 with
      | none => none
      | some p => (runProduct s c block op (stepRec x i.1 (if op.kind = .mma then 0 else loopDA op.params)) p d i.2.1 i.2.2).map
          fun r => (r.1, sat || r.2, some p)) (some (old, false, none))

/-- R236: the planes after an MLOOP. -/
def loopPlanes (s : State) (block : Nat) (op : MatOp) (p : Plane) : State :=
  if op.kind = .mloop then modBlock s block fun b => { b with active := some p, shadow := none } else s

/-- MMA and MLOOP, up to a row. -/
def runMma (s : State) (ctx : Nat) (c : Ctx) (block : Nat) (b : Block) (op : MatOp) (x y : TileRec) (upto : Nat) : MatEnd :=
  let kind := productKind op.fa op.fb
  let last := stepRec y (loopSteps op.params - 1) (loopDB op.params)
  match slotBefore c op with
  | none => failSlot s ctx block op kind 0x2C7
  | some old => match runSteps s c block b op x y old upto with
    | some (d, sat, p) =>
      let s := putSlot s ctx (slotId op.dst) ⟨block, kind, op.m, op.n, d, false⟩
      { s := if upto < matRows op then s else match p with
          | some p => loopPlanes s block op p
          | none => s
        as_ := sat }
    | none =>
      failSlot (loopPlanes s block op { src := last, n := op.n, k := op.k, fmt := op.fb, book := bookB op.params,
                                        data := freeBytes s.stamp (op.n * rowLen op.fb op.k) }) ctx block op kind 0x2C5

/-- R235: bytes written to a scratchpad destination: the bits of a byte that the operation writes. -/
def drainRow (s : State) (block : Nat) (x : TileRec) (n row : Nat) (bs : List Byte) : State × Nat :=
  bs.zipIdx.foldl (fun (acc : State × Nat) p =>
    let mask := byteMask x n row p.2
    if mask = 0 then acc
    else
      let key := spadKey block (sub (rowPtr x row p.2) 0 57)
      let old := readByte acc.1.mem key
      (clearErr { acc.1 with mem := writeByte acc.1.mem key ((old &&& ~~~mask) ||| (p.1 &&& mask)) } key 1, acc.2 + 1)) (s, 0)

/-- R235 MRD: one row of codes, and QS. -/
def readRow (f : Nat) (vs : List FVal) : List Byte × Bool :=
  let cs := vs.map (readCode f)
  (packRow (rowLen f vs.length) (cs.zipIdx.map fun (c : (Nat × Bool) × Nat) => (elemBit f c.2, c.1.1)), cs.any (·.2))

/-- R235 MRD, MQNT: the rows of the slot in order, the predictions going on from row to row; rows lo to hi - 1 are written. -/
def drainRows (s : State) (block : Nat) (op : MatOp) (x : TileRec) (q : AccSlot) (lo hi : Nat) : State × Bool × Nat :=
  let p := (op.params.getD 0 0).toNat
  let seed := p % 256
  let gap := p / 256 % 16
  let r := (List.range hi).foldl (fun (acc : State × Bool × Nat × List Nat) row =>
    let (s, qs, n, preds) := acc
    let vs := ((q.data.drop (row * op.n)).take op.n).map (accVal q.kind)
    let (bs, sat, preds) : List Byte × Bool × List Nat := if op.kind = .mrd then
        let (bs, sat) := readRow op.fa vs
        (bs, sat, preds)
      else quantRow op.fa gap preds vs
    if row < lo then (s, qs, n, preds)
    else
      let (s, k) := drainRow s block x op.n row bs
      (s, qs || sat, n + k, preds)) (s, false, 0, List.replicate (op.n / 32) seed)
  (r.1, r.2.1, r.2.2.1)

/-- R225: destination bytes of an MRD or MQNT from a row on. -/
def drainTotal (op : MatOp) (x : TileRec) : Nat :=
  let per := ((List.range (rowBytes x)).filter fun o => byteMask x op.n 0 o ≠ 0).length
  per * (min op.m x.vrows - op.row)

/-- MRD and MQNT, up to a row. -/
def runDrain (s : State) (c : Ctx) (block : Nat) (op : MatOp) (x : TileRec) (upto : Nat) : MatEnd :=
  match (tget c.slots (slotId op.src)).filter fun q => !q.bad with
  | some q =>
    let (s, qs, n) := drainRows s block op x q op.row upto
    { s := creditBytes s block op.credit n, qs := qs }
  | none => { s := creditBytes s block op.credit (drainTotal op x), failed := some 0x2C7 }

/-- R235 MSCAC: one element and whether a finite result overflowed. -/
def scaleElem (k : AccKind) (s : BitVec 40) (r c : FVal) (d : Option (BitVec 40)) : BitVec 40 × Bool :=
  let p := (fmul (fmul (accVal k s) r).1 c).1
  toA40 (fadd .rn p (match d with
    | some d => accVal .a40 d
    | none => .num false 0 0)).1

/-- MSCAC, up to a row. A slot scaled in place takes its new kind with its last row (R249). -/
def runMscac (s : State) (ctx : Nat) (c : Ctx) (block : Nat) (op : MatOp) (x y : TileRec) (upto : Nat) : MatEnd :=
  match tget c.slots (slotId op.src), opRow s block x 0 (4 * op.m), opRow s block y 0 (4 * op.n) with
  | some q, some xs, some ys =>
    let old := if op.ovw && decide (op.row = 0 ∧ op.dst ≠ op.src) then some (zeros (op.m * op.n)) else (tget c.slots (slotId op.dst)).bind fun d => if d.bad then none else some d.data
    match (if q.bad then none else old) with
    | none => failSlot s ctx block op .a40 0x2C7
    | some old =>
      let rs := rowVals 0 [] op.m xs
      let cs := rowVals 0 [] op.n ys
      let lo := op.row * op.n
      let hi := upto * op.n
      let es := (((List.range (op.m * op.n)).zip q.data).take hi).drop lo |>.map fun e =>
        scaleElem q.kind e.2 (rs.getD (e.1 / op.n) (.num false 0 0)) (cs.getD (e.1 % op.n) (.num false 0 0))
          (if op.ovw then none else old[e.1]?)
      let kind := if upto < op.m ∧ op.dst = op.src then q.kind else .a40
      { s := putSlot s ctx (slotId op.dst) ⟨block, kind, op.m, op.n, old.take lo ++ es.map (·.1) ++ old.drop hi, false⟩
        as_ := es.any (·.2) }
  | none, _, _ => failSlot s ctx block op .a40 0x2C7
  | _, _, _ => failSlot s ctx block op .a40 0x2C5

/-- MCBL's accesses (R224, R235): the 512 bytes of row 0, or why it stalls or fails. -/
inductive BookRes where
  | fail (cause : Nat)
  | stall (reg va : Nat) (host : Option Nat)
  | queued
  | ok (s : State) (bs : List Byte)

/-- The 512 bytes in chunks of 16. -/
def bookRead (s : State) (w : View) (id : Nat) (x : TileRec) : BookRes :=
  (List.range 32).foldl (fun acc j => match acc with
    | .ok s bs =>
      let p := rowPtr x 0 (16 * j)
      let os := (List.range 16).filter fun i => byteNeeded x 0 (16 * j + i)
      match chunkSpan p os with
      | none => .ok s (bs ++ (List.range 16).map fun i => sourceByte x 0 (16 * j + i) 0)
      | some (lo, hi) => match direct s w id (advance p (lo : Int)) (hi - lo + 1) false with
        | .fail c => .fail c
        | .stall reg va host => .stall reg va host
        | .queued => .queued
        | .runs rs used remote _ => match engineRead s (ctxSite w.c) remote rs with
          | .error e => .fail e
          | .ok ms => .ok (cacheAll s w.b.ctx (region p) used)
              (bs ++ (List.range 16).map fun i => sourceByte x 0 (16 * j + i) (ms.getD (i - lo) 0))
    | e => e) (.ok (routed s w.c x.base) [])

/-- R60: the bits that an operation sets in `%qsat`. -/
def setQsat (e : MatEnd) (b : Block) : Block :=
  { b with qsat := b.qsat ||| (if e.as_ then 2#32 else 0) ||| (if e.qs then 1#32 else 0) }

/-- The operation leaves the queue: its bits in `%qsat`, its tag, its number (R60, R160, R161, R224). -/
def matDone (e : MatEnd) (block : Nat) (op : MatOp) : State :=
  modBlock e.s block fun b =>
    let b := match e.failed with
      | some c => logError b 2 c
      | none => b
    let b := setQsat e (tagDone b op.tag e.failed.isSome)
    { b with
      matQ := b.matQ.filter fun x => decide (x.num ≠ op.num)
      mat := tlDone b.mat op.num e.failed.isSome }

def setOp (s : State) (block : Nat) (op : MatOp) : State :=
  modBlock s block fun b => { b with matQ := b.matQ.map fun q => if q.num = op.num then op else q }

/-- R249: an operation has gone on up to a row: it is done, or its position is kept. -/
def matPart (e : MatEnd) (block : Nat) (op : MatOp) (upto : Nat) : State :=
  if e.failed.isSome || decide (matRows op ≤ upto) then matDone e block op
  else modBlock (setOp e.s block { op with row := upto }) block (setQsat e)

/-- R230: of the queue heads of a context's blocks, the operation issued earliest. -/
def matHead (s : State) (c : Ctx) : Option (Nat × Block × MatOp) :=
  (c.blocks.filterMap fun i => (tget s.blocks i).bind fun b => b.matQ.head?.map fun op => (i, b, op)).foldl
    (fun (best : Option (Nat × Block × MatOp)) x => match best with
      | some y => if x.2.2.order < y.2.2.order then some x else best
      | none => some x) none

/-- R235, R236: one operation executes, up to a row where it can stop between rows. -/
def runMat (s : State) (ctx : Nat) (c : Ctx) (i : Nat) (b : Block) (op : MatOp) (upto : Nat) : Out :=
  let x := op.x1.getD ⟨0, 0, 0, 0, 0, 0, 0, 0, 0, 0⟩
  let y := op.x2.getD ⟨0, 0, 0, 0, 0, 0, 0, 0, 0, 0⟩
  match op.kind with
  | .mlds => .next (setOp s i { op with loading := true })
  | .mswp => .next (matDone { s := modBlock s i fun b => { b with active := b.shadow, shadow := b.active } } i op)
  | .mma => .next (matPart (runMma s ctx c i b op x y upto) i op upto)
  | .mloop => .next (matPart (runMma s ctx c i b op x y upto) i op upto)
  | .mzero =>
    let q : AccSlot := ⟨i, if op.tri then .int40 else .a40, op.m, op.n, zeros (op.m * op.n), false⟩
    .next (matDone { s := putSlot s ctx (slotId op.dst) q } i op)
  | .mrel => match op.src with
    | .slot id => .next (matDone { s := modCtx s ctx fun c => { c with slots := tdel c.slots id } } i op)
    | _ => .next (matDone { s := s } i op)
  | .mrd => .next (matPart (runDrain s c i op x upto) i op upto)
  | .mqnt => .next (matPart (runDrain s c i op x upto) i op upto)
  | .mscac => .next (matPart (runMscac s ctx c i op x y upto) i op upto)
  | .mcbl => match viewOf s op.team with
    | none => .next s
    | some w => match bookRead s w op.team x with
      | .fail e => .next (matDone { s := s, failed := some e } i op)
      | .stall reg va host => .next (postOnce s w ctx reg va false host)
      | .queued => .next s
      | .ok s bs =>
        let reg := (op.params.getD 0 0).toNat % 16
        let put (t : Tbl Half) := (List.range 256).foldl (fun t e =>
          tset 0 t (reg * 256 + e) (BitVec.ofNat 16 (bytesNat ((bs.drop (2 * e)).take 2)))) t
        .next (matDone { s := modCtx s ctx fun c => { c with books := put c.books, badBooks := c.badBooks.filter (· ≠ reg) } } i op)

/-- R231, R284: a plane that was not saved with its context is loaded again from its record before an operation goes on. What it
gives is what the plane held (R249). -/
def reloadPlanes (b : Block) : Block :=
  let load (p : Option Plane) := p.map fun p => { p with loaded := true }
  { b with active := load b.active, shadow := load b.shadow }

def unloadPlanes (b : Block) : Block :=
  let drop (p : Option Plane) := p.map fun p => { p with loaded := false }
  { b with active := drop b.active, shadow := drop b.shadow }

/-- R230: the head of the sequencer of a running context executes, up to `rows` more rows or to its end; it waits for its slot and
for its plane. -/
def matStep (s : State) (ctx : Nat) (rows : Option Nat) : Out :=
  match tget s.ctxs ctx with
  | none => .next s
  | some c =>
    if c.state ≠ .running then .next s
    else match matHead s c with
      | none => .next s
      | some (i, b, op) =>
        let waits := op.loading || match op.dst with
          | .alloc _ => true
          | _ => false
        if waits then .next s
        else if reloadPlanes b ≠ b then .next (modBlock s i reloadPlanes)
        else match rows with
          | none => runMat s ctx c i b op (matRows op)
          | some n => if op.row + n < matRows op then runMat s ctx c i b op (op.row + n) else .next s

/-- MATRIX_EXECUTE (R230, R235): the operation issued earliest among the queue heads of the running context executes. -/
def execMatrixExecute (ctx : Nat) (s : State) : Out := matStep s ctx none

/-- R249, R281: the sequencer computes some rows of its operation and stops at the row boundary. -/
def execMatrixRows (ctx rows : Nat) (s : State) : Out := matStep s ctx (some rows)

/-- R233: the slot ids of a context that are free. -/
def freeSlots (c : Ctx) : List Nat :=
  ((List.range (if c.slot = .wide then 16 else 8)).map (· + c.slotBase)).filter fun i => (tget c.slots i).isNone

/-- SLOT_ALLOCATE (R233): the operation at the queue head takes a slot; which free id is the implementation's choice. -/
def execSlotAllocate (block : Nat) (s : State) : Out :=
  match tget s.blocks block with
  | none => .next s
  | some b => match b.matQ, tget s.ctxs b.ctx with
    | op :: _, some c => match op.dst with
      | .alloc num =>
        let free := freeSlots c
        if free.isEmpty || decide (c.state ≠ .running) then .next s
        else
          let id := free.getD ((Config.freeDbl s.stamp).toNat % free.length) 0
          let s := putSlot { s with stamp := s.stamp + 1 } b.ctx id { block := block }
          let s := modBlock s block fun b => { b with
            islots := b.islots.map fun x => if x.view = .alloc num then { x with view := .slot id } else x
            matQ := b.matQ.map fun q => if q.dst = .alloc num then { q with dst := .slot id } else q }
          .next (modTeam s op.team fun t =>
            if tget t.ia op.handle = some (.alloc num) then
            { t with a := tput t.a op.handle id, ia := tdel t.ia op.handle, badA := t.badA.filter (· ≠ op.handle) } else t)
      | _ => .next s
    | _, _ => .next s

/-- PLANE_LOAD_DONE (R235, R238, R281): the MLDS at the queue head has loaded the shadow plane. -/
def execPlaneLoadDone (block : Nat) (s : State) : Out :=
  match tget s.blocks block with
  | none => .next s
  | some b => match b.matQ, tget s.ctxs b.ctx with
    | op :: _, some c =>
      if op.loading && decide (c.state = .running) then
        let (p, ok) := loadPlane s c block (op.x2.getD ⟨0, 0, 0, 0, 0, 0, 0, 0, 0, 0⟩) op.fb op.n op.k (bookB op.params)
        let s := if ok then s else { s with stamp := s.stamp + 1 }
        .next (matDone { s := modBlock s block fun b => { b with shadow := some p }
                         failed := if ok then none else some 0x2C5 } block op)
      else .next s
    | _, _ => .next s

end Sys2Proof.Machine
end

