-- ==== Sys2Proof/Machine/Coll.lean ====
section
/-! DEFINITION. Collectives: COLL (R239-R242, R254, R306-R308) and GRPQ (R243). -/
namespace Sys2Proof.Machine

/-! ### Failure and completion -/

/-- The destination record of a contribution (R240). -/
def collDst (c : Contribution) : TileRec := if c.op = 0 ∨ c.op = 4 then c.src else c.dst

/-- R241: a member's operation completes on the context's coll timeline, or is held while the context is out (R249). -/
def collApply (s : State) (ctx block num : Nat) (tag : Option Nat) (failed : Bool) : State :=
  modBlock (modCtx s ctx fun c => { c with coll := tlDone c.coll num failed }) block fun b => tagDone b tag failed

def collDone (s : State) (c : Contribution) (cause : Option Nat) : State :=
  let s := match cause with
    | some e => modBlock s c.block fun b => logError b 3 e
    | none => s
  let s := creditBytes s c.block c.credit (footprint (collDst c))
  match tget s.ctxs c.ctx with
  | none => s
  | some x =>
    if holdsEvents x then putCtx s c.ctx { x with heldEvents := x.heldEvents ++ [.coll c.block c.num c.tag cause.isSome] }
    else collApply s c.ctx c.block c.num c.tag cause.isSome

/-- The contributions at a sequence number of a gid. -/
def collAt (s : State) (gid seq : Nat) : List (Nat × Contribution) :=
  s.colls.filter fun x => decide (x.2.gid = gid ∧ x.2.seq = seq)

/-- R241, R242: every operation issued at a sequence number fails. -/
def failColls (s : State) (gid seq cause : Nat) : State :=
  (collAt s gid seq).foldl (fun s x => { collDone s x.2 (some cause) with colls := tdel s.colls x.1 }) s

/-- R254, R308: a sequence number is consumed at every member of the entry; one that had not issued at it learns of the failure
when it issues next (log 17). -/
def consumeSeq (s : State) (gid seq : Nat) : State :=
  { s with ctxs := s.ctxs.map fun x => (x.1, { x.2 with
      groups := x.2.groups.map fun g =>
        if g.2.gid = gid ∧ g.2.seq ≤ seq then (g.1, { g.2 with seq := seq + 1, late := true }) else g }) }

/-- R242, R308: the collective fails at every member with 0x242. -/
def abortColl (s : State) (gid seq : Nat) : State := consumeSeq (failColls s gid seq 0x242) gid seq

/-- R308: the collectives that some contribution meeting a condition takes part in fail. -/
def abortColls (s : State) (p : Contribution → Bool) : State :=
  (s.colls.filter fun x => p x.2).foldl (fun s x => abortColl s x.2.gid x.2.seq) s

/-- R308: contexts leave the collectives of their groups, whether they had issued their parts or not. -/
def abortMembers (s : State) (mine : Nat → Bool) : State :=
  let gids := (s.ctxs.filter fun x => mine x.1).flatMap fun x => (x.2.groups.filter fun g => g.2.valid).map fun g => g.2.gid
  abortColls s fun c => mine c.ctx || gids.contains c.gid

/-! ### Issue (R239) -/

/-- R239: the reduction of a COLL. -/
def collRed (o : E64) : Nat := sub o.m 4 2

/-- R239: the operation reads x2. -/
def usesX2 (op : Nat) : Bool := decide (1 ≤ op ∧ op ≤ 3)

/-- R239 step 3. -/
def windowed (g : Group) (f : Nat) (r : TileRec) : Bool :=
  decide (r.format = f ∧ r.vrows = r.rows ∧ r.vcols = r.cols ∧ r.pitch = rowBytes r ∧ r.swizzle = 0 ∧
    g.base.toNat ≤ r.base.toNat ∧ r.base.toNat + footprint r ≤ g.base.toNat + g.bytes.toNat)

/-- R239 step 4. -/
def collFits (g : Group) (op root : Nat) (x y : TileRec) : Bool :=
  let a := x.rows * x.cols
  let b := y.rows * y.cols
  match op with
  | 1 => decide (a % g.size = 0 ∧ b = a / g.size)
  | 2 => decide (b = g.size * a)
  | 3 => decide (a = b ∧ a % g.size = 0)
  | 4 => decide (root < 1024) && g.members.getLsbD root
  | _ => true

/-- R239: the formats of a reduction. -/
def reducible (f : Nat) : Bool := decide (f = 0 ∨ f = 2 ∨ f = 3 ∨ f = 4 ∨ f = 8 ∨ f = 9)

/-- R239: COLL with the op of its instruction. `word` is the first 32 bits of it, which 0x002 reports (R84). A record of another format
raises 0x243 as step 3 gives, not the 0x144 that the chapter's table of causes also lists for COLL (log 17). -/
def collIssue (op : Nat) (o : E64) (word : Nat) (s : State) : Out :=
  withView s [] [] ([(kpOf o, 1), (kqOf o, 1)] ++ if op = 4 then [(kpOf o + 1, 1)] else []) fun w =>
    let e := (kget w.t (kpOf o)).toNat % 256
    let root := (kget w.t (kpOf o + 1)).toNat
    let x := recOf w.t (x1Of o)
    let y := recOf w.t (x2Of o)
    let g := (tget w.c.groups e).getD { valid := false, gid := 0, members := 0, rank := 0, size := 1, base := 0, bytes := 0 }
    let own := firstBad [chk (!g.valid) 0x240 e,
      chk (decide (op ≤ 1) && !reducible o.fa.toNat) 2 word,
      chk (!windowed g o.fa.toNat x || (usesX2 op && !windowed g o.fa.toNat y)) 0x243 e,
      chk (!collFits g op root x y) 0x243 e]
    engIssue s w { reads := [x1Of o] ++ (if usesX2 op then [x2Of o] else []), own := own,
                   feet := [(x1Of o, x)] ++ (if usesX2 op then [(x2Of o, y)] else []), tag := tagArg o,
                   bar := barArg w.t o, hold := true } fun _ =>
      let c : Contribution := { gid := g.gid, seq := g.seq, member := g.rank, ctx := w.b.ctx, block := w.t.block,
                                team := s.cur, entry := e, num := w.c.coll.issued + 1, op := op, red := collRed o,
                                fmt := o.fa.toNat, root := if op = 4 then root else 0, src := x, dst := if usesX2 op then y else x,
                                tag := tagArg o,
                                credit := capture s w (barArg w.t o) }
      let s := modCtx s w.b.ctx fun x => { x with
        coll := tlIssue x.coll
        groups := tput x.groups e { g with seq := g.seq + 1, late := false } }
      let s := modBlock s w.t.block fun b => takeTag (if g.late then logError b 3 0x242 else b) (tagArg o)
      let s := if (devOf s w.c.dev).collCores = 0 then abortColl (collDone s c (some 0x244)) c.gid c.seq
        else { s with colls := tput s.colls s.fresh c, fresh := s.fresh + 1 }
      .next (complete s s.cur w.t 8)

/-- COLL.all_reduce. -/
def execCollAllReduce (o : E64) (s : State) : Out := collIssue 0 o ((encode (.collAllReduce o)).getD 0 % 2 ^ 32) s
/-- COLL.reduce_scatter. -/
def execCollReduceScatter (o : E64) (s : State) : Out := collIssue 1 o ((encode (.collReduceScatter o)).getD 0 % 2 ^ 32) s
/-- COLL.all_gather. -/
def execCollAllGather (o : E64) (s : State) : Out := collIssue 2 o ((encode (.collAllGather o)).getD 0 % 2 ^ 32) s
/-- COLL.all_to_all. -/
def execCollAllToAll (o : E64) (s : State) : Out := collIssue 3 o ((encode (.collAllToAll o)).getD 0 % 2 ^ 32) s
/-- COLL.broadcast. -/
def execCollBroadcast (o : E64) (s : State) : Out := collIssue 4 o ((encode (.collBroadcast o)).getD 0 % 2 ^ 32) s

/-- R243: word w of a set of ranks. -/
def rankWord (m : LaneSet) (w : Nat) : Dbl := m.extractLsb' (64 * w) 64

/-- GRPQ (R243). -/
def execGrpq (o : E64) (s : State) : Out :=
  withView s [] [] [(kqOf o, 1)] (kd := [(kpOf o, 2)]) fun w =>
    let k := (kget w.t (kqOf o)).toNat
    let e := k % 256
    let i := k / 256 % 16
    let sel := sub o.m 1 3
    match (tget w.c.groups e).bind fun g => if g.valid then some g else none with
    | none => if sel = 0 then finish s (ksetD w.t (kpOf o) 0) 8 else .next (raise s 0x240 e)
    | some g =>
      let x : Dbl := match sel with
        | 0 => BitVec.ofNat 64 (2 ^ 31 + g.rank * 2 ^ 16 + g.size)
        | 1 => BitVec.ofNat 64 g.seq
        | 2 => rankWord g.members i
        | 3 => rankWord g.failure i
        | 4 => rankWord g.failure i
        | 5 => g.base
        | _ => g.bytes
      let clear : LaneSet := ~~~(((2 ^ 64 - 1 : Nat) : LaneSet) <<< (64 * i))
      let s := if sel = 4 then modCtx s w.b.ctx fun c => { c with groups := tput c.groups e { g with failure := g.failure &&& clear } }
        else s
      finish s (ksetD w.t (kpOf o) x) 8

/-! ### The service kernels (R240-R242, R307) -/

/-- The view an access of a contribution is made in: its issuing team's. -/
def collView (s : State) (c : Contribution) : Option View :=
  match viewOf s c.team with
  | some w => some w
  | none => c.kept.map fun x => ⟨x.1, x.2.1, x.2.2.1, x.2.2.2⟩

/-- The site of a contribution's member. -/
def collSite (s : State) (c : Contribution) : Nat :=
  match collView s c with
  | some w => ctxSite w.c
  | none => 0

/-- R178: the ways to the buffers of a contribution. -/
def collRouted (s : State) (c : Contribution) : State :=
  match collView s c with
  | some w => routed (routed s w.c c.src.base) w.c (collDst c).base
  | none => s

/-- What the accesses to a member's buffer meet. -/
inductive CollBuf where
  | stall (s : State)
  | ok (bytes : List (Option Byte))

/-- The memory runs of 16 bytes of a buffer. -/
def collPiece (s : State) (c : Contribution) (r : TileRec) (j : Nat) (write : Bool) : Direct :=
  match collView s c with
  | none => .fail 0x242
  | some w => direct s w c.team (advance r.base ((16 * j : Nat) : Int)) 16 write

/-- The bytes of a buffer, none where an access fails (R308). -/
def collRead (s : State) (c : Contribution) : CollBuf :=
  (List.range (footprint c.src / 16)).foldl (fun acc j => match acc with
    | .ok bs => match collPiece s c c.src j false with
      | .runs rs _ remote _ => match engineRead s (collSite s c) remote rs with
        | .ok xs => .ok (bs ++ xs.map some)
        | .error _ => .ok (bs ++ List.replicate 16 none)
      | .stall reg va host => match collView s c with
        | some w => .stall (postOnce s w c.ctx reg va false host)
        | none => .stall s
      | .queued => .stall s
      | .fail _ => .ok (bs ++ List.replicate 16 none)
    | e => e) (.ok [])

/-- R240: one step of a reduction on codes of a format. -/
def collStep (red f a b : Nat) : Nat :=
  match fmtOf f with
  | some t => match red with
    | 0 => (fround t .rn (fadd .rn (fdecode t a) (fdecode t b)).1).1
    | 1 => (fminmax t false a b).1
    | _ => (fminmax t true a b).1
  | none =>
    let n := elemBits f
    let signed := decide (f ≠ 9)
    match red with
    | 0 => iAdd n signed true a b 0
    | 1 => iMin n signed false a b 0
    | _ => iMax n signed false a b 0

/-- The elements of a buffer as codes, none where a byte is missing. -/
def collElems (n : Nat) : Nat → List (Option Byte) → List (Option Nat)
  | 0, _ => []
  | k + 1, bs =>
    let e := bs.take n
    (if e.any (·.isNone) then none else some (bytesNat (e.map (·.getD 0)))) :: collElems n k (bs.drop n)

/-- R240: the reduction of all members' buffers, in member order. -/
def collReduce (red f : Nat) (bufs : List (List (Option Byte))) : List (Option Byte) :=
  let n := elemBits f / 8
  let es := bufs.map fun b => collElems n (b.length / n) b
  let sum := match es with
    | [] => []
    | e :: rest => rest.foldl (fun acc x => (acc.zip x).map fun p => match p with
        | (some a, some b) => some (collStep red f a b)
        | _ => none) e
  sum.flatMap fun e => match e with
    | some x => (natBytes n x).map some
    | none => List.replicate n none

/-- Slice j of n equal parts. -/
def slice {α : Type} (n j : Nat) (bs : List α) : List α := (bs.drop (j * (bs.length / n))).take (bs.length / n)

/-- The bits of bytes, and the bytes of bits, low bits first. -/
def bitsOf (bs : List (Option Byte)) : List (Option Bool) :=
  bs.flatMap fun b => (List.range 8).map fun i => b.map fun x => x.getLsbD i

def ofBits : Nat → List (Option Bool) → List (Option Byte)
  | 0, _ => []
  | n + 1, xs =>
    let e := xs.take 8
    (if e.any (·.isNone) then none
      else some (BitVec.ofNat 8 ((e.zipIdx.map fun x => if x.1 = some true then 2 ^ x.2 else 0).sum))) :: ofBits n (xs.drop 8)

/-- R240: slice j of every member's buffer, one after the other; elements of less than a byte may make a slice that is no whole
number of bytes. -/
def gatherSlices (bufs : List (List (Option Byte))) (j : Nat) : List (Option Byte) :=
  let n := bufs.length
  if bufs.all fun b => decide (b.length % n = 0) then bufs.flatMap (slice n j)
  else
    let xs := bufs.flatMap fun b => slice n j (bitsOf b)
    ofBits (xs.length / 8) xs

/-- R240: the result at member j. -/
def collResult (op red f root : Nat) (bufs : List (List (Option Byte))) (j : Nat) : List (Option Byte) :=
  match op with
  | 0 => collReduce red f bufs
  | 1 => slice bufs.length j (collReduce red f bufs)
  | 2 => bufs.flatten
  | 3 => gatherSlices bufs j
  | _ => bufs.getD root []

/-- What the writes of results come to: an access waits for a page or a move, some chunk failed, or all were written. -/
inductive CollPut where
  | stall (posted : State → State)
  | ok (s : State) (all : Bool)

/-- R242: one 256-byte chunk is written whole, where every access of it goes through; a page that is not there and a frame in
transfer make it wait (R224). -/
def collChunk (s : State) (c : Contribution) (j : Nat) (bs : List (Option Byte)) : CollPut :=
  let r := collDst c
  (List.range ((bs.length + 15) / 16)).foldl (fun acc i => match acc with
    | .ok s true =>
      let piece := (bs.drop (16 * i)).take 16
      if piece.any (·.isNone) then .ok s false
      else match collPiece s c r (16 * j + i) true with
        | .runs rs _ _ _ =>
          .ok ((runKeys rs).zip piece |>.foldl (fun s p => storeRun s c.ctx (collSite s c) p.1 [p.2.getD 0]) s) true
        | .stall reg va host => .stall fun s => match collView s c with
          | some w => postOnce s w c.ctx reg va true host
          | none => s
        | .queued => .stall id
        | .fail _ => .ok s false
    | e => e) (.ok s true)

/-- The chunks of a result are written; under an abort only those that were already written (R242, log 17). -/
def collWrite (s : State) (c : Contribution) (bs : List (Option Byte)) (abort : Bool) : CollPut :=
  (List.range ((bs.length + 255) / 256)).foldl (fun acc j => match acc with
    | .stall f => .stall f
    | .ok s all =>
      if abort && !Config.chunkWritten s.stamp (c.member * 2 ^ 32 + j) then acc
      else match collChunk s c j ((bs.drop (256 * j)).take 256) with
        | .ok t true => .ok t all
        | .ok _ false => .ok s false
        | .stall f => if abort then acc else .stall f) (.ok s true)

/-- R241: whether two members' operations agree. -/
def collAgree (a b : Contribution) : Bool :=
  decide (a.op = b.op ∧ a.red = b.red ∧ a.fmt = b.fmt ∧ a.root = b.root ∧ a.src.rows * a.src.cols = b.src.rows * b.src.cols ∧
    a.dst.rows * a.dst.cols = b.dst.rows * b.dst.cols)

/-- The members of the group of a contribution that have not issued (R241). -/
def collMissing (s : State) (c : Contribution) (cs : List Contribution) : Bool :=
  match (collView s c).bind fun w => tget w.c.groups c.entry with
  | some g => (List.range 1024).any fun r => g.members.getLsbD r && !(cs.any fun x => decide (x.member = r))
  | none => true

/-- Contributions in increasing rank. -/
def insertMember (c : Contribution) : List Contribution → List Contribution
  | [] => [c]
  | d :: ds => if c.member < d.member then c :: d :: ds else d :: insertMember c ds

/-- R240: the number of the root among the members. -/
def rootIndex (cs : List Contribution) (root : Nat) : Nat := (cs.filter fun c => decide (c.member < root)).length

/-- R242: whether a result is written at a member: a broadcast's root keeps its buffer. -/
def collWrites (c : Contribution) : Bool := decide (c.op ≠ 4 ∨ c.member ≠ c.root)

/-- COLL_SEQUENCE_START: once every member has issued, the operations are compared and carried out, or abort (R308). -/
def execCollSequenceStart (gid seq : Nat) (abort : Bool) (s : State) : Out :=
  let cs := (collAt s gid seq).foldl (fun acc x => insertMember x.2 acc) []
  match cs with
  | [] => .next s
  | c :: rest =>
    if collMissing s c cs then .next (if abort then abortColl s gid seq else s)
    else if rest.any fun d => !collAgree c d then .next (failColls s gid seq 0x241)
    else
      let s := cs.foldl collRouted s
      let bufs := cs.foldl (fun (acc : Except State (List (List (Option Byte)))) d => match acc with
        | .ok bs => match collRead s d with
          | .ok b => .ok (bs ++ [b])
          | .stall s => .error s
        | e => e) (.ok [])
      match bufs with
      | .error s => .next s
      | .ok bufs =>
        let root := rootIndex cs c.root
        let results := cs.zipIdx.map fun d => (d.1, collResult d.1.op d.1.red d.1.fmt root bufs d.2)
        let bad := results.any fun r => r.2.any (·.isNone)
        let st := s.stamp
        let put := results.foldl (fun (acc : CollPut) r => match acc with
          | .stall f => .stall f
          | .ok s all => if !collWrites r.1 then acc
            else match collWrite { s with stamp := st } r.1 r.2 (abort || bad) with
              | .ok s ok => .ok s (all && ok)
              | .stall f => .stall f) (.ok s true)
        match put with
        | .stall f => .next (f s)
        | .ok t all =>
          let t := { t with stamp := st + 1 }
          if abort || bad || !all then .next (abortColl t gid seq)
          else .next ((collAt t gid seq).foldl (fun s x => { collDone s x.2 none with colls := tdel s.colls x.1 }) t)

end Sys2Proof.Machine
end

