-- ==== Sys2Proof/Machine/Units.lean ====
section
/-! DEFINITION. Unit identifiers and counters (R255, R17, R264), node states and edges (R258), completion records and
notifications (R265, R322), and the end of a node. -/
namespace Sys2Proof.Machine

/-! ### Host memory and the firmware's presence -/

def readHost (s : State) (a n : Nat) : Nat := readNat s.mem (hostKey a) n
def writeHost (s : State) (a n x : Nat) : State := { s with mem := writeNat s.mem (hostKey a) n x }

/-- R329, R332: a device whose VF firmware runs. -/
def fwUp (s : State) (dev : Nat) : Bool :=
  let d := devOf s dev
  d.powered && !d.recovery && decide (6 ≤ d.bringup)

/-- R332: the dispatcher accepts nodes. -/
def dispUp (s : State) (dev : Nat) : Bool := fwUp s dev && decide ((devOf s dev).bringup = 8)

/-- R116, R265: microseconds in ac of the 700 MHz clock. -/
def usAc (us : Nat) : Nat := 700 * us

/-! ### Units (R255) -/

def identOf (level owner serial : Nat) : Nat := level * 2 ^ 62 + owner * 2 ^ 57 + serial % 2 ^ 57
def identLevel (i : Nat) : Nat := i / 2 ^ 62 % 4
def identOwner (i : Nat) : Nat := i / 2 ^ 57 % 32

def unitOf (s : State) (dev i : Nat) : Option WorkUnit := tget (devOf s dev).units i
def putUnit (s : State) (dev i : Nat) (u : WorkUnit) : State := modDev s dev fun d => { d with units := tput d.units i u }

/-- R264: a unit has one more child that has not ended. Where all its earlier children had ended, it is open again, and so its
own parent has one more such child. -/
def addChild : Nat → State → Nat → Nat → State
  | 0, s, _, _ => s
  | k + 1, s, dev, i => match unitOf s dev i with
    | none => s
    | some u =>
      let s := putUnit s dev i { u with open_ := u.open_ + 1, final := false }
      if u.final then addChild k s dev u.parent else s

/-- R255: a new unit under a parent (0: none). -/
def newUnit (s : State) (dev level owner parent : Nat) : State × Nat :=
  let d := devOf s dev
  let i := identOf level owner d.serial
  let s := putDev s dev { d with serial := d.serial + 1, units := tput d.units i { parent := parent, vf := owner } }
  (addChild 3 s dev parent, i)

/-- R17, R264: a unit counts one of its children; when all of them have reached their final states it has completed itself
and its parent counts it. -/
def childDone : Nat → State → Nat → Nat → Bool → State
  | 0, s, _, _, _ => s
  | k + 1, s, dev, i, failed => match unitOf s dev i with
    | none => s
    | some u =>
      let u := { u with counter := u.counter + 1, open_ := u.open_ - 1, failed := u.failed || failed }
      if u.open_ = 0 && !u.final then
        childDone k (putUnit s dev i { u with final := true }) dev u.parent u.failed
      else putUnit s dev i u

/-- R264: a launch has reached its final state. -/
def launchDone (s : State) (dev i : Nat) (failed cancelled : Bool) : State :=
  match unitOf s dev i with
  | none => s
  | some u =>
    let u := { u with counter := u.counter + 1, final := true, failed := u.failed || failed || cancelled,
                      cancelled := u.cancelled || cancelled }
    childDone 3 (putUnit s dev i u) dev u.parent u.failed

/-- Whether unit i lies under unit top, or is it. -/
def unitUnder : Nat → State → Nat → Nat → Nat → Bool
  | 0, _, _, i, top => decide (i = top)
  | k + 1, s, dev, i, top => decide (i = top) || match unitOf s dev i with
    | some u => decide (u.parent ≠ 0) && unitUnder k s dev u.parent top
    | none => false

/-! ### Completion records and notifications (R265, R322) -/

/-- R322: a message falls due: the CAS on ARM, then the MSI-X message when it succeeded. -/
def messageDue (s : State) (dev vf desc : Nat) : State :=
  let arm := readHost s (desc + 8) 8
  if arm % 4 = 1 then
    let entry := readHost s (desc + 16) 2 % 64
    modDev (writeHost s (desc + 8) 8 (arm - 1)) dev fun d => { d with msix := d.msix ++ [(vf, entry)] }
  else s

/-- R322, R265: a record is posted to a descriptor; then a message falls due, or a window starts or runs. -/
def postRecord (s : State) (dev vf desc vector window : Nat) : State :=
  let posted := readHost s desc 8
  let s := writeHost s (desc + 32 + posted % 32) 1 vector
  let s := writeHost s desc 8 ((posted + 1) % 2 ^ 64)
  if window = 0 then messageDue s dev vf desc
  else
    let d := devOf s dev
    if d.timers.any fun t => decide (t.2.desc = desc ∧ t.2.vf = vf) then s
    else putDev s dev { d with timers := tput d.timers (tfresh d.timers) ⟨desc, vf, clock s dev + usAc window⟩ }

/-- NOTIFY_WINDOW_EXPIRY (R265): once the window has run its length its one message falls due. -/
def execNotifyWindowExpiry (dev timer : Nat) (s : State) : Out :=
  match tget (devOf s dev).timers timer with
  | none => .next s
  | some t =>
    if t.due ≤ clock s dev then .next (messageDue (modDev s dev fun d => { d with timers := tdel d.timers timer }) dev t.vf t.desc)
    else .next s

/-- R269: blocks a shape needs. -/
def blocksFor (d : NodeDesc) (shape : Nat) : Nat := (shape + d.divisor - 1) / d.divisor

/-- R265: the completion record of a node. -/
def recordBytes (s : State) (n : Node) (status : Nat) : List Byte :=
  let (cause, ordinal, pc) := if status = 2 then n.cause.getD (0, 0, 0) else (0, 0, 0)
  let shape := match n.t.orElse fun _ => n.seen with
    | some t => t.toNat
    | none => if n.desc.shape then 2 ^ 64 - 1 else n.desc.grid
  natBytes 8 n.ident ++ natBytes 1 status ++
    natBytes 1 ((if n.mcfail then 1 else 0) + (if n.byEdge then 2 else 0)) ++ natBytes 2 cause ++ natBytes 4 ordinal ++
    natBytes 8 pc ++ natBytes 8 shape ++ natBytes 8 n.started ++ natBytes 8 (clock s n.dev % 2 ^ 64) ++ natBytes 16 0

/-- R242, R307: the collectives of a node that failed or was cancelled fail; those of one that completed run on, with what their
accesses need. -/
def releaseColls (s : State) (key : Nat) (ended : Bool) : State :=
  let ctxs := (s.ctxs.filter fun x => decide (x.2.node = key)).map (·.1)
  if ended then abortMembers s fun c => ctxs.contains c
  else { s with colls := s.colls.map fun x => if ctxs.contains x.2.ctx then
      (x.1, { x.2 with kept := (viewOf s x.2.team).map fun w => (w.t, w.b, w.c, w.n) }) else x }

/-- The records of a node that has ended leave the machine. -/
def dropNode (s : State) (key : Nat) (ended : Bool) : State :=
  let s := releaseColls s key ended
  let blocks := (blocksOf s key).map (·.1)
  { s with
    nodes := tdel s.nodes key
    ctxs := s.ctxs.filter fun x => decide (x.2.node ≠ key)
    blocks := s.blocks.filter fun x => decide (x.2.node ≠ key)
    teams := s.teams.filter fun x => !blocks.contains x.2.block }

/-- R264, R265: a node takes its final state (1 complete, 2 failed, 3 cancelled): its record is written, its entry is freed,
the counters of its launch and ancestors increment. -/
def finalNode (s : State) (key status : Nat) : State :=
  match tget s.nodes key with
  | none => s
  | some n =>
    let d := n.desc
    let s := if d.notify && fwUp s n.dev then
        postRecord { s with mem := writeBytes s.mem (hostKey d.record) (recordBytes s n status) } n.dev n.vf d.notifyAt
          d.vector d.window
      else s
    launchDone (dropNode s key (decide (status ≠ 1))) n.dev n.ident (decide (status = 2)) (decide (status = 3))

/-! ### Edges (R258, R264) -/

/-- R333: a cluster takes no new work: it is gated, or being emptied for that. -/
def shut (s : State) (dev c : Nat) : Bool := (devOf s dev).gated.contains c || (devOf s dev).gating.contains c

/-- R263: whether a cluster of a die belongs to a VF's partition, and is not gated (R333). -/
def inPartition (s : State) (dev vf die cluster : Nat) : Bool :=
  let d := devOf s dev
  let c := die * 16 + cluster
  !shut s dev c && (match tget d.partitions vf with
    | some cs => cs.contains c
    | none => true)

/-- R268: the clusters of the collective partition: the highest of each die. -/
def inColl (s : State) (dev cluster : Nat) : Bool := decide (16 - (devOf s dev).collCores / 8 ≤ cluster)

/-- R268: a collective service kernel: a node of system software at level 47 whose kernel the vendor has signed (log 48). -/
def isService (n : Node) : Bool := decide (n.vf = 16 ∧ n.desc.priority = 47) && Config.vendorSigned n.dev n.desc.kernel

/-- R263, R268: whether a node may run on a cluster of a die. -/
def mayRun (s : State) (n : Node) (die cluster : Nat) : Bool :=
  if isService n then inColl s n.dev cluster && !shut s n.dev (die * 16 + cluster)
  else if n.desc.gang then
    if n.desc.part = 16 then inColl s n.dev cluster && !shut s n.dev (die * 16 + cluster)
    else inPartition s n.dev n.desc.part die cluster && !inColl s n.dev cluster
  else inPartition s n.dev n.vf die cluster && !inColl s n.dev cluster

/-- The contexts that occupy a slot of a core (R29). -/
def slotsOf (s : State) (dev die core : Nat) : List (Nat × Ctx) :=
  s.ctxs.filter fun x => decide (x.2.dev = dev ∧ x.2.die = die ∧ x.2.core = core ∧ x.2.state ≠ .saved ∧ x.2.state ≠ .left)

/-- Whether a slot of a core is empty. -/
def slotEmpty (s : State) (dev die core : Nat) (slot : SlotSel) : Bool :=
  (slotsOf s dev die core).all fun x => decide (x.2.slot ≠ slot ∧ x.2.slot ≠ .wide ∧ slot ≠ .wide)

/-- R258: the number under which a node is kept. -/
def nodeKey (n : Node) : Nat := n.dev * 65536 + n.entry

/-- R267: a slot is reserved for the blocks of a gang part other than a node. -/
def reservedFrom (s : State) (dev key die core : Nat) (slot : SlotSel) : Bool :=
  s.nodes.any fun x => decide (x.2.dev = dev ∧ x.1 ≠ key ∧ x.2.next < x.2.blocks) && x.2.resv.any fun r =>
    decide (r.1 = die ∧ r.2.1 = core) && (decide (r.2.2 = slot) || decide (r.2.2 = .wide) || decide (slot = .wide))

/-- A slot that may take a context of a node. -/
def slotOpen (s : State) (dev key die core : Nat) (slot : SlotSel) : Bool :=
  slotEmpty s dev die core slot && !reservedFrom s dev key die core slot

/-- R263: free context slots of a die in the partition of a node. -/
def freeSlotCount (s : State) (n : Node) (die : Nat) : Nat :=
  ((List.range 128).map fun core => if mayRun s n die (core / 8) then
    ([SlotSel.a, .b].filter (slotEmpty s n.dev die core)).length else 0).sum

/-- R263: the preferred die of a node: the larger sum of operand bytes homed there, then the more free slots, then H0. -/
def preferredDie (s : State) (n : Node) : Nat :=
  let bytes (die : Nat) := (n.desc.operands.map fun o =>
    match regEntry s (ptrGoid o.1) with
    | some e =>
      let twin := match objAt s e.site (ptrGoid o.1) with
        | some x => x.twin
        | none => false
      if e.site = 2 * n.dev + die ∨ (twin ∧ e.site / 2 = n.dev) then o.2 else 0
    | none => 0).sum
  if bytes 0 < bytes 1 then 1
  else if bytes 1 < bytes 0 then 0
  else if freeSlotCount s n 0 < freeSlotCount s n 1 then 1 else 0

/-- R263, R175: the migration requests the dispatcher sends when a node becomes ready. -/
def askMoves (s : State) (n : Node) (die : Nat) : State :=
  n.desc.operands.foldl (fun s o =>
    let g := ptrGoid o.1
    match regEntry s g, homeOf s g with
    | some e, some (_, x) => if e.site / 2 = n.dev || isMoving s g then s
        else moveRequest s g (2 * n.dev + die) x.tier2 [] (some (2 * n.dev + die)) false
    | _, _ => s) s

/-- R258, R260: a node becomes ready. -/
def makeReady (s : State) (key : Nat) (n : Node) : State :=
  let die := preferredDie s n
  let now := clock s n.dev
  askMoves (putNode s key { n with state := .ready, readyAt := now, waitedAt := now, die := die }) n die

/-- R258: an edge holds. -/
def edgeHolds (s : State) (dev : Nat) (e : Nat × Nat) : Bool :=
  match unitOf s dev e.1 with
  | some u => decide (e.2 ≤ u.counter)
  | none => false

/-- R264: an edge that holds and whose target has its failure flag set. -/
def edgeFailed (s : State) (dev : Nat) (e : Nat × Nat) : Bool :=
  edgeHolds s dev e && match unitOf s dev e.1 with
    | some u => u.failed
    | none => false

/-- R258, R264: the waiting nodes of a device are tested again, in order of admission, until none changes. -/
def retestEdges : Nat → State → Nat → State
  | 0, s, _ => s
  | k + 1, s, dev =>
    let ws := s.nodes.filter fun x => decide (x.2.dev = dev ∧ x.2.state = .waiting)
    match ws.find? fun x => x.2.desc.edges.any (edgeFailed s dev) with
    | some x => retestEdges k (finalNode (putNode s x.1 { x.2 with byEdge := true }) x.1 3) dev
    | none => match ws.find? fun x => x.2.desc.edges.all (edgeHolds s dev) with
      | some x => retestEdges k (makeReady s x.1 x.2) dev
      | none => s

def retest (s : State) (dev : Nat) : State := retestEdges (s.nodes.length + 1) s dev

/-! ### The end of a node (R258, R264, R29) -/

/-- R283, R264: every live and parked set of the node's contexts has drained, and none of its requests is on its way. -/
def nodeDrained (s : State) (key : Nat) : Bool :=
  let cs := s.ctxs.filter fun x => decide (x.2.node = key)
  cs.all (fun x => drained x.2) && !(s.reqs.any fun r => cs.any fun c => decide (c.1 = r.2.ctx))

/-- R258: a node whose blocks have all left takes its final state once its counters have drained. -/
def nodeTick (s : State) (key : Nat) : State :=
  match tget s.nodes key with
  | none => s
  | some n =>
    let ended := n.failing || n.cancel.isSome
    let placed := decide (n.blocks ≤ n.next)
    let active := decide (n.state = .running ∨ n.state = .provisional ∨ n.state = .dispatching ∨ n.state = .draining)
    if active && (ended || placed) && (ended || !n.speculating) && (blocksOf s key).all (fun b => b.2.exited || b.2.squashed) then
      let s := putNode s key { n with state := .draining }
      if decide (n.left = n.next) && nodeDrained s key then
        retest (finalNode s key (if n.cancel.isSome then 3 else if n.failing then 2 else 1)) n.dev
      else s
    else s

end Sys2Proof.Machine
end

