-- ==== Sys2Proof/Machine/Contexts.lean ====
section
/-! DEFINITION. Contexts and the slots they hold (R29, R262), blocks that leave (R253, R283), squashes (R272) and cancels
(R247, R266). -/
namespace Sys2Proof.Machine

/-! ### Cores and slots (R29, R262) -/

/-- R12, R13: a core of the pod by one number. -/
def coreKey (dev die core : Nat) : Nat := (2 * dev + die) * 128 + core
def ctxCore (c : Ctx) : Nat := coreKey c.dev c.die c.core
def coreOf (s : State) (k : Nat) : Core := tgetD s.cores k {}

/-- R283: parking places of a core that are taken. -/
def parkedAt (s : State) (core : Nat) : Nat :=
  (s.ctxs.map fun x => (x.2.parked.filter fun p => decide (p.core = core ∧ p.count ≠ 0)).length).sum

/-- R249, R283: what the live counter set of a context counts when it parks: its requests, and its engine operations with bytes on
the way to a global destination. -/
def liveCount (s : State) (c : Ctx) : Nat := c.out + enginesOut s c

/-- R283, R292, R293: the live counter set of a context takes a parking place, and a new one is live. -/
def parkSet (c : Ctx) (count : Nat) : Ctx :=
  if count = 0 then c else { c with parked := c.parked ++ [⟨ctxCore c, c.set, count⟩], out := 0, set := c.set + 1 }

/-- R249: the engine operations that a parked set counts. -/
def markOps (s : State) (c : Ctx) : State :=
  let mark (q : List EngOp) := q.map fun x => if globalOut x && x.set.isNone then { x with set := some c.set } else x
  c.blocks.foldl (fun s i => modBlock s i fun b => { b with copyQ := mark b.copyQ, gathQ := mark b.gathQ }) s

/-- R283: whether the live set of a context is zero or finds a place. -/
def canPark (s : State) (c : Ctx) : Bool := decide (liveCount s c = 0) || decide (parkedAt s (ctxCore c) < 4)

/-- R260: the priority at which a context's blocks issue. -/
def ctxPriority (s : State) (c : Ctx) : Nat := match tget s.nodes c.node with
  | some n => n.priority
  | none => 0

/-! ### The VF that holds a core (R261, R262) -/

/-- R261: the quantum of a VF in ms; 101 to 127 act as 100. -/
def quantumOf (s : State) (dev vf : Nat) : Nat := min 100 (sub (tgetD (devOf s dev).vfsch vf 0x0A000A00#32) 24 7)

/-- R262: whether a VF has work for a core: a context in a slot of it, a saved one that may come to it, or blocks to place there. -/
def hasWork (s : State) (dev die core vf : Nat) : Bool :=
  s.ctxs.any (fun x => decide (x.2.dev = dev ∧ x.2.vf = vf) &&
    ((decide (x.2.die = die ∧ x.2.core = core) && decide (x.2.state = .running ∨ x.2.state = .ready ∨ x.2.state = .streamingIn)) ||
      (decide (x.2.state = .saved) && (tget s.nodes x.2.node).any fun n => mayRun s n die (core / 8)))) ||
  s.nodes.any fun x => decide (x.2.dev = dev ∧ x.2.vf = vf) && mayRun s x.2 die (core / 8) &&
    decide (x.2.state = .ready ∨ (x.2.state = .dispatching ∨ x.2.state = .provisional ∨ x.2.state = .running) ∧ x.2.next < x.2.blocks)

/-- R262: a core lies in the partition of one VF only. -/
def soleVf (s : State) (dev die core vf : Nat) : Bool :=
  decide ((List.range 16).filter (fun v => inPartition s dev v die (core / 8)) = [vf])

/-- R262: a VF takes turns on a core: it has work for it, and on a shared core a quantum. -/
def mayHold (s : State) (dev die core vf : Nat) : Bool :=
  hasWork s dev die core vf && (decide (quantumOf s dev vf ≠ 0) || soleVf s dev die core vf)

/-- The VFs (16: system software) in the order of the round robin, from one on. -/
def fromVf (v : Nat) : List Nat := (List.range 17).map fun i => (v + i) % 17

/-- The number that stands for no VF. -/
def noVf : Nat := 17

/-- R262: the VF that holds a core: the one whose turn it is, or the next that may; none while none may. -/
def holderOf (s : State) (dev die core : Nat) : Nat :=
  ((fromVf (coreOf s (coreKey dev die core)).turn).find? (mayHold s dev die core)).getD noVf

/-- R262, R267: a context that runs whichever VF holds its core: of a node of level 41 to 47, or of a gang that has committed. -/
def urgent (s : State) (c : Ctx) : Bool :=
  decide (41 ≤ ctxPriority s c) || (tget s.nodes c.node).any fun n => n.desc.gang && n.reserved

/-- The VF of a context holds its core. -/
def holdsCore (s : State) (c : Ctx) : Bool := decide (holderOf s c.dev c.die c.core = c.vf) || urgent s c

/-- R333: a context's cluster is being gated. -/
def onGated (s : State) (c : Ctx) : Bool := shut s c.dev (c.die * 16 + c.core / 8)

/-- R333: the clusters whose contexts have all been streamed out, or have left, are gated. -/
def closeGates (s : State) (dev : Nat) : State :=
  let d := devOf s dev
  let empty (c : Nat) : Bool := s.ctxs.all fun x => decide (x.2.dev ≠ dev ∨ x.2.die * 16 + x.2.core / 8 ≠ c ∨
    x.2.state = .saved ∨ x.2.state = .left)
  if d.gating.isEmpty then s
  else putDev s dev { d with gated := d.gating.filter empty ++ d.gated, gating := d.gating.filter fun c => !empty c }

/-! ### Starting and stopping (R29, R33, R281) -/

def isCoop (s : State) (c : Ctx) : Bool := (tget s.nodes c.node).any fun n => n.desc.coop

/-- The contexts of a node that have not left. -/
def matesOf (s : State) (node : Nat) : List (Nat × Ctx) :=
  s.ctxs.filter fun x => decide (x.2.node = node ∧ x.2.state ≠ .left)

/-- The running context of a core. -/
def runningOn (s : State) (k : Nat) : Option (Nat × Ctx) :=
  s.ctxs.find? fun x => decide (ctxCore x.2 = k ∧ x.2.state = .running)

/-- R262, R267: a context gives its core to a cooperative launch: its own VF does not hold the core, or the launch is of level 41 to
47, or of a gang that has committed, and comes before it. -/
def yields (s : State) (y c : Ctx) : Bool :=
  !holdsCore s y || (urgent s c && !urgent s y) || decide (41 ≤ ctxPriority s c ∧ ctxPriority s y < ctxPriority s c)

/-- R33: a cooperative launch runs as a whole: every block is placed, every context is in its slot, its VF holds each of their
cores, and nothing that keeps its core (R262) runs on one of them. -/
def coopCan (s : State) (c : Ctx) : Bool :=
  !isCoop s c || ((tget s.nodes c.node).any (fun n => decide (n.blocks ≤ n.next)) &&
    (matesOf s c.node).all fun x => decide (x.2.state = .running ∨ x.2.state = .ready) && !onGated s x.2 && holdsCore s x.2 &&
      (runningOn s (ctxCore x.2)).all fun y => decide (y.2.node = c.node) || yields s y.2 c)

/-- R29, R262: the ready contexts of a core that may run. -/
def readyOn (s : State) (dev die core : Nat) : List (Nat × Ctx) :=
  (slotsOf s dev die core).filter fun x => decide (x.2.state = .ready) && !onGated s x.2 && holdsCore s x.2 && coopCan s x.2

/-- R29: the higher priority runs first; on a tie, the slot that became ready first. -/
def bestReady (s : State) (rs : List (Nat × Ctx)) : Option (Nat × Ctx) :=
  rs.foldl (fun (best : Option (Nat × Ctx)) x => match best with
    | none => some x
    | some y =>
      let p := ctxPriority s x.2
      let q := ctxPriority s y.2
      if q < p ∨ p = q ∧ x.2.since < y.2.since then some x else best) none

/-- R262: the turn of a core passes to a VF. -/
def giveTurn (s : State) (dev k vf : Nat) : State :=
  if (coreOf s k).turn = vf then s else { s with cores := tput s.cores k ⟨vf, clock s dev⟩ }

/-- A context runs; where its VF holds the core, the turn is its own. -/
def startCtx (s : State) (id : Nat) : State :=
  match tget s.ctxs id with
  | none => s
  | some c =>
    let s := if holderOf s c.dev c.die c.core = c.vf then giveTurn s c.dev (ctxCore c) c.vf else s
    putCtx s id { c with state := .running }

/-- R281, R150: a running context stops in its slot; the waits on an address of its teams end as spurious wakeups (log 2). -/
def stopCtx (s : State) (id : Nat) : State :=
  match tget s.ctxs id with
  | none => s
  | some c =>
    if c.state ≠ .running then s
    else (ctxTeams s c).foldl (fun s x => modTeam s x.1 wake) (putCtx s id { c with state := .ready, since := s.now })

/-- R33: a context switches out, and with it every running context of its cooperative launch. -/
def switchOut (s : State) (id : Nat) (c : Ctx) : State :=
  if isCoop s c then (matesOf s c.node).foldl (fun s x => stopCtx s x.1) s else stopCtx s id

/-- R33: a context switches in, and with it one context of its cooperative launch on each other core of the launch; what runs
there switches out. -/
def switchIn (s : State) (id : Nat) (c : Ctx) : State :=
  if isCoop s c then
    let mates := matesOf s c.node
    let s := mates.foldl (fun s x => match runningOn s (ctxCore x.2) with
      | some y => if y.2.node = c.node then s else switchOut s y.1 y.2
      | none => s) s
    mates.foldl (fun s x => if (runningOn s (ctxCore x.2)).isSome then s else startCtx s x.1)
      (if (runningOn s (ctxCore c)).isSome then s else startCtx s id)
  else startCtx s id

/-- R29: on a core with no running slot a ready slot becomes running at once. -/
def settleCore (s : State) (dev die core : Nat) : State :=
  if (runningOn s (coreKey dev die core)).isSome then s
  else match bestReady s (readyOn s dev die core) with
    | some x => switchIn s x.1 x.2
    | none => s

/-- The cores of some contexts settle. -/
def settleAll (s : State) (xs : List (Nat × Ctx)) : State :=
  xs.foldl (fun s x => settleCore s x.2.dev x.2.die x.2.core) s

/-! ### Leaving (R253, R29, R283) -/

/-- R29: a context whose blocks have all left gives its slot free, its counter set parked; it stays while no place is
free. -/
def tryLeave (s : State) (ctx : Nat) : State :=
  match tget s.ctxs ctx with
  | none => s
  | some c =>
    let gone := c.blocks.all fun i => match tget s.blocks i with
      | some b => b.left
      | none => true
    if gone && decide (c.state ≠ .left) && canPark s c then
      let c' := parkSet c (liveCount s c)
      settleCore (closeGates (putCtx s ctx { c' with state := .left, l1 := [], records := [] }) c.dev) c.dev c.die c.core
    else s

/-- R253: the slots a block still holds return, and it leaves the context. -/
def leaveBlock (s : State) (id : Nat) : State :=
  match tget s.blocks id with
  | none => s
  | some b =>
    if b.left then s
    else
      let s := putBlock s id { b with left := true, islots := [], matQ := [], copyQ := [], gathQ := [] }
      let s := modCtx s b.ctx fun c => { c with slots := c.slots.filter fun x => decide (x.2.block ≠ id) }
      let s := modNode s b.node fun n => { n with left := n.left + 1 }
      nodeTick (tryLeave s b.ctx) b.node

/-- BLOCK_LEAVE (R253): an exited block whose engine queues have drained leaves its context. -/
def execBlockLeave (block : Nat) (s : State) : Out :=
  match tget s.blocks block with
  | none => .next s
  | some b =>
    if b.exited && !b.left && b.copyQ.isEmpty && b.gathQ.isEmpty && b.matQ.isEmpty then .next (leaveBlock s block)
    else .next s

/-! ### Squash and cancel (R266, R272) -/

/-- R272: the teams of a provisional block end, its held stores, causes and engine work are discarded, its scratchpad and
slots are freed. It counts as no started block. -/
def squashBlock (s : State) (id : Nat) : State :=
  match tget s.blocks id with
  | none => s
  | some b =>
    if b.squashed then s
    else if b.left then
      modNode (putBlock s id { b with squashed := true, reported := true }) b.node fun n => { n with started := n.started - 1 }
    else
      let s := putBlock s id { b with squashed := true, reported := true, matQ := [], copyQ := [], gathQ := [] }
      let s := b.teams.foldl endTeam s
      let s := modNode s b.node fun n => { n with started := if b.filled then n.started - 1 else n.started }
      leaveBlock (retestBars s id) id

/-- R266: a team ends with `%trapcause` set and no handler run. -/
def killTeam (s : State) (cause id : Nat) : State :=
  match tget s.teams id with
  | some t => if t.ended then s else endTeam (putTeam s id { t with trapcause := BitVec.ofNat 32 cause }) id
  | none => s

/-- R266, R284: a saved image of a context is discarded without stream-in. -/
def dropImages (s : State) (key : Nat) : State :=
  (s.ctxs.filter fun x => decide (x.2.node = key ∧
      (x.2.state = .saved ∨ x.2.state = .assigned ∨ x.2.state = .streamingIn))).foldl (fun s x =>
    x.2.blocks.foldl leaveBlock s) s

/-- R266: a cancel reaches one node. -/
def cancelNode (s : State) (key cause : Nat) : State :=
  match tget s.nodes key with
  | none => s
  | some n =>
    if n.state = .waiting ∨ n.state = .ready then retest (finalNode s key 3) n.dev
    else
      let s := if n.failing then s else putNode s key { n with cancel := some cause }
      let mine := blocksOf s key
      let s := (mine.filter fun b => b.2.provisional && !b.2.left).foldl (fun s b =>
        squashBlock ((b.2.teams).foldl (fun s t => modTeam s t fun t => { t with trapcause := BitVec.ofNat 32 cause }) s) b.1) s
      let s := (mine.flatMap fun b => b.2.teams).foldl (fun s t => killTeam s cause t) s
      let ctxs := (s.ctxs.filter fun x => decide (x.2.node = key)).map (·.1)
      nodeTick (dropImages (abortMembers s fun c => ctxs.contains c) key) key

/-- R247, R266: a cancel of a unit, at its level. -/
def cancelUnit (s : State) (dev ident : Nat) : State :=
  match unitOf s dev ident with
  | none => s
  | some u =>
    if u.final then s
    else
      let under (i : Nat) := unitUnder 4 s dev i ident
      let nodes := s.nodes.filter fun x => decide (x.2.dev = dev) && under x.2.ident
      let idle := nodes.filter fun x => decide (x.2.state = .waiting ∨ x.2.state = .ready)
      let units := (devOf s dev).units.filter fun x => under x.1 && !x.2.final
      let s := units.foldl (fun s x => modDev s dev fun d => { d with
        units := tmod d.units x.1 fun u =>
          { u with cancelled := true, failed := true, cause := some (0x380 + identLevel ident) } }) s
      -- those that wait or are ready pass straight to cancelled, before any edge is tested again
      let s := idle.foldl (fun s x => finalNode s x.1 3) s
      let s := nodes.foldl (fun s x => cancelNode s x.1 (0x380 + identLevel ident)) s
      let s := units.foldl (fun s x => match unitOf s dev x.1 with
        | some u => if decide (identLevel x.1 ≠ 0) && decide (u.open_ = 0) && !u.final then
            childDone 3 (putUnit s dev x.1 { u with final := true }) dev u.parent true
          else s
        | none => s) s
      retest s dev

end Sys2Proof.Machine
end

