-- ==== Sys2Proof/Machine/Launch.lean ====
section
/-! DEFINITION. Node descriptors and their creation (R256, R257, R261), LAUNCH, CANCEL and CTR.rd (R244, R246, R247), and the
shape instructions (R245). -/
namespace Sys2Proof.Machine

/-! ### The node descriptor (R256) -/

/-- A field of a descriptor: `n` bytes from `lo`. -/
def fieldOf (bs : List Byte) (lo n : Nat) : Nat := bytesNat ((bs.drop lo).take n)

def teamDesc (bs : List Byte) (i : Nat) : TeamDesc :=
  let lo := 0x80 + 8 * i
  ⟨fieldOf bs lo 4, fieldOf bs (lo + 4) 2, fieldOf bs (lo + 6) 1, fieldOf bs (lo + 7) 1⟩

/-- `n` entries of 16 bytes: a pointer or identifier, then a number. -/
def pairsOf (bs : List Byte) (lo n : Nat) : List (Nat × Nat) :=
  (List.range n).map fun i => (fieldOf bs (lo + 16 * i) 8, fieldOf bs (lo + 16 * i + 8) 8)

/-- R256: the fields of a descriptor; those that its flags do not enable are ignored. -/
def parseDesc (bs : List Byte) : NodeDesc :=
  let f := fieldOf bs
  let flags := f 0x1D 1
  let shape := flags.testBit 3
  let handler := f 0x48 4
  let n := min (f 0x50 1) 8
  { kernel := BitVec.ofNat 64 (f 0 8)
    grid := f 8 8
    x := f 0x10 4
    y := f 0x14 4
    z := f 0x18 4
    cluster := f 0x1C 1
    coop := flags.testBit 0
    wide := flags.testBit 1
    notify := flags.testBit 2
    shape := shape
    gang := flags.testBit 4
    priority := f 0x1E 1
    parent := f 0x20 8
    seed := BitVec.ofNat 64 (f 0x28 8)
    record := f 0x30 8
    notifyAt := f 0x38 8
    window := f 0x40 2
    vector := f 0x42 1
    part := f 0x43 1
    gangId := f 0x44 4
    handler := if handler = 0xFFFFFFFF then none else some handler
    spad := f 0x4C 4
    acc := f 0x51 1
    barMask := (List.range 16).filterMap fun j => if (f 0x52 2).testBit j then some (j, f (0x54 + j) 1) else none
    private_ := f 0x64 4
    teams := (List.range n).map (teamDesc bs)
    edges := pairsOf bs 0xC0 (min (f 0x1F 1 % 16) 8)
    operands := (pairsOf bs 0x140 (min (f 0x1F 1 / 16) 8)).map fun x => (BitVec.ofNat 64 x.1, x.2)
    cell := BitVec.ofNat 64 (if shape then f 0x1C0 8 else 0)
    floor := if shape then f 0x1C8 8 else 0
    cap := if shape then f 0x1D0 8 else 0
    divisor := if shape then f 0x1D8 4 else 1
    mode := if shape then f 0x1DC 1 else 0
    margin := if shape then f 0x1DD 1 else 0
    retract := if shape then (pairsOf bs 0x1E0 (min (f 0x1DE 1) 4)).map fun x => (BitVec.ofNat 64 x.1, x.2) else []
    kargs := (List.range 64).filterMap fun i =>
      let x := f (0x240 + 4 * i) 4
      if x = 0 then none else some (i, BitVec.ofNat 32 x) }

/-- Threads of a block. -/
def descThreads (d : NodeDesc) : Nat := (d.teams.map (·.size)).sum

/-- R257: reserved fields zero and fields inside their ranges; `bs` the descriptor's bytes. -/
def descInRange (bs : List Byte) (d : NodeDesc) : Bool :=
  let f := fieldOf bs
  let n := f 0x50 1
  decide (d.kernel.toNat % 2 = 0 ∧ 1 ≤ d.grid ∧ d.grid ≤ 2 ^ 32) &&
  decide ((d.x = 0 ∧ d.y = 0 ∧ d.z = 0) ∨ d.x * d.y * d.z = d.grid) &&
  decide (d.cluster ≤ 8 ∧ f 0x1D 1 < 32 ∧ d.priority < 48 ∧ f 0x1F 1 % 16 ≤ 8 ∧ f 0x1F 1 / 16 ≤ 8) &&
  (!d.notify || decide (d.record % 64 = 0 ∧ d.notifyAt % 64 = 0 ∧ d.window < 1024)) &&
  (!d.gang || decide (d.part ≤ 16)) &&
  (match d.handler with
    | some h => decide (h % 2 = 0)
    | none => true) &&
  decide (d.spad % 1024 = 0 ∧ 1 ≤ n ∧ n ≤ 8 ∧ d.acc ≤ 16 ∧ d.private_ % 4 = 0 ∧ d.private_ ≤ 1048576) &&
  decide (f 0x68 16 = 0 ∧ f 0x220 32 = 0 ∧ f 0x240 4 = 0) &&
  (List.range 8).all (fun i =>
    let t := teamDesc bs i
    if i < n then decide (t.entry % 2 = 0 ∧ 32 ≤ t.size ∧ t.size ≤ 1024 ∧ t.size % 32 = 0 ∧ t.role ≤ 3 ∧ t.budget ≤ 2)
    else decide (fieldOf bs (0x80 + 8 * i) 8 = 0)) &&
  d.edges.all (fun e => decide (1 ≤ e.2)) && d.operands.all (fun o => isObject o.1) && d.retract.all (fun r => isObject r.1) &&
  d.barMask.all (fun b => decide (b.2 ≠ 0 ∧ b.2 < 2 ^ n)) &&
  (!d.shape || decide (d.divisor ≠ 0 ∧ d.mode ≤ 3 ∧ f 0x1DE 1 ≤ 4 ∧ f 0x1DF 1 = 0))

/-- R92, R257: the block totals, and what needs a wide context. -/
def descTotals (d : NodeDesc) : Bool :=
  decide (descThreads d ≤ 4096 ∧ d.spad ≤ 655360) &&
  (d.wide || decide (d.spad ≤ 327680 ∧ d.acc ≤ 8 ∧ descThreads d ≤ 2048))

/-! ### Capacity (R26, R27, R33) -/

/-- R25: limits of a context: teams, threads, pool, scratchpad, slots, barriers. -/
def ctxLimits (wide : Bool) : Nat × Nat × Nat × Nat × Nat × Nat :=
  if wide then (16, 4096, 1572864, 655360, 16, 32) else (16, 2048, 786432, 327680, 8, 16)

/-- R26: two blocks of a launch fit one context together. -/
def twoFit (d : NodeDesc) : Bool :=
  let (teams, threads, pool, spad, slots, bars) := ctxLimits d.wide
  decide (2 * d.teams.length ≤ teams ∧ 2 * descThreads d ≤ threads ∧ 2 * descThreads d * 256 ≤ pool ∧ 2 * d.spad ≤ spad ∧
    2 * d.acc ≤ slots ∧ 2 * d.barMask.length ≤ bars)

/-- R26: blocks a context of a launch is laid out for, and its partition. -/
def perContext (d : NodeDesc) (toPlace : Nat) : Nat := if 2 ≤ toPlace ∧ twoFit d then 2 else 1
def partitionFor (wide : Bool) (bytes : Nat) : Nat :=
  ((if wide then [0, 131072, 262144, 393216, 524288, 655360] else [0, 65536, 131072, 196608, 262144, 327680]).find?
    fun p => decide (bytes ≤ p)).getD (if wide then 655360 else 327680)

/-- R25: the slots of a core for contexts of a launch. -/
def letters (d : NodeDesc) : List SlotSel := if d.wide then [.wide] else [.a, .b]

/-- R28, R33: the blocks of a launch that a hardware cluster holds; `free` says which slots of its cores may take a context. A cluster
of blocks lies in slots of one letter (log 45). -/
def clusterHolds (d : NodeDesc) (free : Nat → SlotSel → Bool) : Nat :=
  let n := if twoFit d then 2 else 1
  if d.cluster = 0 then ((List.range 8).map fun i => ((letters d).filter (free i)).length * n).sum
  else ((letters d).filter fun l => (List.range d.cluster).all fun i => free i l).length * n * d.cluster

/-- R33: the capacity of the partition a node would run on; `free` says which slots of a core may take a context. -/
def capacity (s : State) (n : Node) (gatedToo : Bool) (free : Nat → Nat → SlotSel → Bool) : Nat :=
  ((List.range 2).flatMap fun die => (List.range 16).map fun cl =>
    let s' := if gatedToo then modDev s n.dev fun d => { d with gated := [], gating := [] } else s
    if mayRun s' n die cl then clusterHolds n.desc fun i l => free die (cl * 8 + i) l else 0).sum

/-- R33: the capacity of the empty partition. -/
def emptyCapacity (s : State) (n : Node) : Nat := capacity s n true fun _ _ _ => true

/-- R33: the capacity free at this moment. -/
def freeCapacity (s : State) (n : Node) : Nat := capacity s n false (slotOpen s n.dev (nodeKey n))

/-! ### Creation (R257, R258) -/

/-- R184: the root tables firmware gives a launch's contexts (log 24). -/
def rootsFor (dev vf ident : Nat) : Tbl Nat :=
  [(0, Config.rootTable dev vf ident 0 % 2 ^ 40 * 4096), (3, Config.rootTable dev vf ident 3 % 2 ^ 40 * 4096)]

/-- R189: an object belongs to a VF: the one that created it. -/
def ownedBy (x : ObjEntry) (vf : Nat) : Bool := decide (x.owner = vf)

/-- R257: whether an address is mapped as code in the owner's memory (log 10). -/
def codeMapped (s : State) (dev vf ident : Nat) (p : Dbl) : Bool :=
  if isObject p then match regEntry s (ptrGoid p), homeOf s (ptrGoid p) with
    | some e, some (_, x) => decide ((e.state = .live ∨ e.state = .moving) ∧ ptrOff p + 2 ≤ x.size) && ownedBy x vf
    | _, _ => false
  else decide (region p = 0 ∧ sub p 0 60 < 2 ^ 48) && match tget (rootsFor dev vf ident) 0 with
    | some root => match walkLevel s.mem dev 0 (sub p 0 60) 3 root with
      | .page _ => true
      | _ => false
    | none => false

/-- R257: a SHAPE descriptor. -/
def shapeOk (s : State) (d : NodeDesc) : Bool :=
  !d.shape || (decide (d.floor ≤ d.cap ∧ d.grid = blocksFor d d.cap ∧ d.x = 0 ∧ d.cluster = 0) &&
    d.retract.all fun r => match homeOf s (ptrGoid r.1) with
      | some (_, x) => x.retract && decide (d.cap * r.2 ≤ x.cap)
      | none => false)

/-- R257: every condition under which a descriptor is refused, `n` being the node it would make. DEDUCED (log 34): a parent that is no
known graph of the owner is refused as an edge to such a unit is; the rule's list does not name the parent. -/
def descAccepted (s : State) (bs : List Byte) (n : Node) : Bool :=
  let d := n.desc
  descInRange bs d && descTotals d && codeMapped s n.dev n.vf n.ident d.kernel &&
  (match d.handler with
    | some h => codeMapped s n.dev n.vf n.ident (d.kernel + BitVec.ofNat 64 h)
    | none => true) &&
  (decide (d.cluster = 0) || decide (d.grid % d.cluster = 0)) &&
  (decide (n.vf = 16) || decide (d.priority ≤ sub (tgetD (devOf s n.dev).vfsch n.vf 0x0A000A00#32) 6 6 ∧ d.priority ≤ 40)) &&
  (decide (d.parent = 0) || (decide (identLevel d.parent = 1 ∧ identOwner d.parent = n.vf) && (unitOf s n.dev d.parent).isSome)) &&
  d.edges.all (fun e => decide (identOwner e.1 = n.vf) && (unitOf s n.dev e.1).isSome) &&
  (!d.coop || decide (d.grid ≤ emptyCapacity s n)) && shapeOk s d

/-- R258: nodes of a device in the ready pool, and those of a VF. -/
def poolUse (s : State) (dev : Nat) : Nat := (s.nodes.filter fun x => decide (x.2.dev = dev)).length
def vfPoolUse (s : State) (dev vf : Nat) : Nat := (s.nodes.filter fun x => decide (x.2.dev = dev ∧ x.2.vf = vf)).length

/-- R261: the pool entries a VF may hold; none while it may not create nodes. System software (16) has no share of its own. -/
def vfShare (s : State) (dev vf : Nat) : Nat :=
  if vf = 16 then Config.readyPool else
  let w : Word := tgetD (devOf s dev).vfsch vf 0x0A000A00#32
  if w.getLsbD 31 then 16 * sub w 12 12 else 0

/-- A free entry of the ready pool; which one is the implementation's choice (log 12). -/
def freeEntry (s : State) (dev : Nat) : Nat :=
  let e := (Config.freeDbl s.stamp).toNat % Config.readyPool
  let cand := (List.range (s.nodes.length + 1)).map fun i => (e + i) % Config.readyPool
  (cand.find? fun i => (tget s.nodes (dev * 65536 + i)).isNone).getD 0

/-- What firmware answers to a descriptor (R246, R257). -/
inductive Created where
  | refused
  | full
  | made (s : State) (entry ident : Nat)

/-- R267: a node carries a gang's id. -/
def inGang (gang : Nat) (n : Node) : Bool := n.desc.gang && decide (n.desc.gangId = gang)

/-- R257, R258: firmware checks a descriptor and creates its node. -/
def createNode (s : State) (dev vf : Nat) (bs : List Byte) : Created :=
  let d := parseDesc bs
  let e := freeEntry s dev
  let ident := identOf 0 vf (devOf s dev).serial
  let n : Node := { dev := dev, vf := vf, entry := e, ident := ident, desc := d, state := .waiting, priority := d.priority,
                    blocks := d.grid, p := BitVec.ofNat 64 d.grid }
  if !descAccepted s bs n then .refused
  else if Config.readyPool ≤ poolUse s dev ∨ vfShare s dev vf ≤ vfPoolUse s dev vf then .full
  else
    let s := { s with stamp := s.stamp + 1 }
    let n := { n with order := (devOf s dev).admitted }
    let s := (newUnit s dev 0 vf d.parent).1
    let s := putNode (modDev s dev fun x => { x with admitted := x.admitted + 1 }) (dev * 65536 + e) n
    let part (k : Nat) : Bool := decide (k ≠ dev * 65536 + e) && (tget s.nodes k).any (inGang d.gangId)
    let s := if d.gang then
        { s with gangs := tmod s.gangs d.gangId fun g => { g with nodes := g.nodes.filter part ++ [dev * 65536 + e] } }
      else s
    .made (retest s dev) e ident

/-! ### LAUNCH (R246) -/

/-- What reading an argument block of a team meets. -/
inductive Block64 where
  | fail (cause : Nat)
  | stall (s : State)
  | queued
  | ok (s : State) (bytes : List Byte) (keys : List Nat)

/-- Reads `n` pieces of 64 bytes at a 64-byte aligned pointer, under the checks of KLD, on the way of R178. -/
def readBlock (s : State) (w : View) (id : Nat) (p : Dbl) (n : Nat) : Block64 :=
  match placeOf s w p 64 with
  | .fault c => .fail c
  | _ => (List.range n).foldl (fun acc i => match acc with
      | .ok s bs ks =>
        let q := advance p ((64 * i : Nat) : Int)
        match direct s w id q 64 false with
        | .fail c => .fail c
        | .stall reg va host => .stall (postPage s w w.b.ctx reg va false host)
        | .queued => .queued
        | .runs rs used remote _ => match engineRead s (ctxSite w.c) remote rs with
          | .error e => .fail e
          | .ok bytes => .ok (cacheAll s w.b.ctx (region q) used) (bs ++ bytes) (ks ++ runKeys rs)
      | e => e) (.ok (routed s w.c p) [] [])

/-- R246: LAUNCH: release(device) and the post of the descriptor; the team blocks, and then takes firmware's answer. -/
def execLaunch (o : I64) (s : State) : Out :=
  let kd := kdOf o
  let ka := kaOf o
  withView s [] [] [(ka, 2)] (kd := [(kd, 1)]) fun w =>
    let posted := decide (w.t.wait = .launch)
    if !posted && heldBack w then block s .hold
    else if !posted && !releaseOk w.c 3 then block s .release
    else match readBlock s w s.cur (kgetD w.t ka) 13 with
      | .fail c => .next (raise s c 0)
      | .stall s => block s .page
      | .queued => block s .move
      | .ok s bytes keys =>
        if !posted || !fwUp s w.c.dev then block s .launch
        else match createNode s w.c.dev w.c.vf bytes with
          | .refused => .next (raise s 0x388 0)
          | .full => finish s (kset w.t kd 0xFFFFFFFF) 8
          | .made s e ident =>
            let s := (((keys.drop 0x78).take 8).zip (natBytes 8 ident)).foldl (fun s x =>
              storeRun s w.b.ctx (ctxSite w.c) x.1 [x.2]) s
            finish s (kset w.t kd (BitVec.ofNat 32 e)) 8

/-! ### CANCEL and CTR.rd (R247) -/

/-- R247: the team's own unit at a level, or 0. -/
def ownUnit (s : State) (w : View) (level : Nat) : Nat :=
  let up (i : Nat) : Nat := match unitOf s w.n.dev i with
    | some u => u.parent
    | none => 0
  match level with
  | 0 => w.n.ident
  | 1 => up w.n.ident
  | 2 => up (up w.n.ident)
  | _ => up (up (up w.n.ident))

/-- R247, R255: the unit an instruction names; none gives 0x389. -/
def namedUnit (s : State) (w : View) (level : Nat) (i : Nat) : Option Nat :=
  let i := if i = 0 then ownUnit s w level else i
  if identLevel i = level ∧ identOwner i = w.n.vf ∧ (unitOf s w.n.dev i).isSome then some i else none

/-- R244: the level of CANCEL and CTR.rd, minor bits [12:11]. -/
def levelOf (o : I64) : Nat := sub o.m 3 2

/-- R247: CANCEL. -/
def execCancel (o : I64) (s : State) : Out :=
  let ka := kaOf o
  withView s [] [] [(ka, 2)] fun w =>
    if heldBack w then block s .hold
    else match namedUnit s w (levelOf o) (kgetD w.t ka).toNat with
      | none => .next (raise s 0x389 0)
      | some i => .next (cancelUnit (complete s s.cur w.t 8) w.n.dev i)

/-- R247: CTR.rd acquires at system scope. -/
def execCtrRd (o : I64) (s : State) : Out :=
  let kd := kdOf o
  let ka := kaOf o
  withView s [] [] [(ka, 2)] (kd := [(kd, 2)]) fun w =>
    match namedUnit s w (levelOf o) (kgetD w.t ka).toNat with
    | none => .next (raise s 0x389 0)
    | some i =>
      let c := match unitOf s w.n.dev i with
        | some u => u.counter
        | none => 0
      finish (acquire s w.b.ctx 5) (ksetD w.t kd (BitVec.ofNat 64 c)) 8

/-! ### Shape instructions (R245) -/

/-- SHP.rd. -/
def execShpRd (o : I64) (s : State) : Out :=
  withView s [] [] [] (kd := [(kdOf o, 2)]) fun w => finish s (ksetD w.t (kdOf o) w.n.p) 8

/-- SHP.wait. -/
def execShpWait (o : I64) (s : State) : Out :=
  withView s [] [] [] (kd := [(kdOf o, 2)]) fun w => match w.n.t with
    | some t => finish (acquire s w.b.ctx 3) (ksetD w.t (kdOf o) t) 8
    | none => if w.n.desc.shape then block s .shape else finish (acquire s w.b.ctx 3) (ksetD w.t (kdOf o) w.n.p) 8

/-- SHP.pub: the address as KST's, then the value; release(device), then the store. -/
def execShpPub (o : I64) (s : State) : Out :=
  let kd := kdOf o
  let ka := kaOf o
  let hint := o.imm.getLsbD 0
  withView s [] [] [(kd, 2), (ka, 2)] fun w =>
    let p := advance (kgetD w.t ka) (if hint then 8 else 0)
    let x := kgetD w.t kd
    let bad := !hint && decide (x = 0xFFFFFFFFFFFFFFFF) && match placeOf s w p 8 with
      | .fault _ => false
      | _ => true
    if heldBack w then block s .hold
    else if bad then .next (raise s 0x203 0)
    else runMem s w 8 (some 3) none ⟨.store, 8, 0, [{ lane := none, ptr := p, data := x.toNat }], false, false⟩

end Sys2Proof.Machine
end

