-- ==== Sys2Proof/Machine/Shape.lean ====
section
/-! DEFINITION. Launches on predicted shapes (R269-R274). -/
namespace Sys2Proof.Machine

/-- R269: an unpublished shape. -/
def unpublished : Nat := 2 ^ 64 - 1

/-- R269: where a word of the shape cell is kept: at its object, or through the launch's tables. -/
def cellKey (s : State) (n : Node) (off : Nat) : Option Nat :=
  let p := advance n.desc.cell (off : Int)
  if isObject p then match homeOf s (ptrGoid p) with
    | some (_, x) => if ptrOff p + 8 ≤ x.size then some p.toNat else none
    | none => none
  else match (tget (rootsFor n.dev n.vf n.ident) (region p)).map fun root =>
      walkLevel s.mem n.dev (region p) (sub p 0 48) 3 root with
    | some (.page x) => some (physKey s n.dev x.key (x.pa + sub p 0 12))
    | _ => none

/-- The value of a word of the cell; a cell that is not there reads unpublished. -/
def cellWord (s : State) (n : Node) (off : Nat) : Nat :=
  match cellKey s n off with
  | some k => readNat s.mem k 8
  | none => unpublished

/-! ### The predictor (R269) -/

def predictorOf (s : State) (n : Node) : Tbl Predict := tgetD (devOf s n.dev).predictor n.vf []
def putPredictor (s : State) (n : Node) (t : Tbl Predict) : State :=
  modDev s n.dev fun d => { d with predictor := tput d.predictor n.vf t }

/-- R269: with the table full, the entry used longest ago goes. -/
def evictOld (t : Tbl Predict) : Tbl Predict :=
  if t.length ≤ Config.predictorEntries then t
  else match t.foldl (fun (o : Option (Nat × Predict)) x => match o with
      | none => some x
      | some y => if x.2.used < y.2.used then some x else o) none with
    | some x => tdel t x.1
    | none => t

/-- R269, R272: a true shape enters the predictor entry of the cell. -/
def learnShape (s : State) (n : Node) (shape : Nat) : State :=
  let t := predictorOf s n
  let old := match tget t n.desc.cell.toNat with
    | some x => x.shapes
    | none => []
  putPredictor s n (evictOld (tput t n.desc.cell.toNat ⟨(BitVec.ofNat 64 shape :: old).take 4, s.now⟩))

/-- R269: the prediction of a node, within its floor and cap. -/
def predict (s : State) (n : Node) : Nat :=
  let d := n.desc
  let hist : List Nat := match tget (predictorOf s n) d.cell.toNat with
    | some x => x.shapes.map fun (y : Dbl) => y.toNat
    | none => []
  let last := hist.headD d.cap
  let hint := cellWord s n 8
  let guess := match d.mode with
    | 0 => last
    | 1 => if hist.isEmpty then d.cap else hist.foldl max 0
    | 2 => if hist.isEmpty then d.cap else last + (last * d.margin + 7) / 8
    | _ => if hint = unpublished then last else hint
  if d.coop then d.cap else max d.floor (min guess d.cap)

/-- The use of a predictor entry, for its replacement. -/
def touchPredict (s : State) (n : Node) : State :=
  let t := predictorOf s n
  match tget t n.desc.cell.toNat with
  | some x => putPredictor s n (tput t n.desc.cell.toNat { x with used := s.now })
  | none => s

/-! ### Extents (R270, R272) -/

/-- R270: every retractable object grows to the extent of a shape; none when one cannot. -/
def extendAll (s : State) (d : NodeDesc) (shape : Nat) : Option State :=
  d.retract.foldl (fun acc r => acc.bind fun s => match homeOf s (ptrGoid r.1) with
    | some (site, x) => if x.cap < shape * r.2 then none else extend s site (ptrGoid r.1) x (shape * r.2) false
    | none => none) (some s)

/-- R272: every retractable object is trimmed to the extent of a shape. -/
def trimAll (s : State) (d : NodeDesc) (shape : Nat) : State :=
  d.retract.foldl (fun s r => match homeOf s (ptrGoid r.1) with
    | some (site, x) => trim s site (ptrGoid r.1) x (shape * r.2)
    | none => s) s

/-- A retractable object on the move keeps the dispatcher waiting, as it does OEXT and OTRIM. -/
def retractMoving (s : State) (d : NodeDesc) : Bool := d.retract.any fun r => isMoving s (ptrGoid r.1)

/-- R259, R265: a node fails with a cause that came from no block. -/
def failShape (s : State) (key cause : Nat) : State :=
  nodeTick (failNode s key cause (2 ^ 32 - 1) (2 ^ 64 - 1)) key

/-- R269, R270: what a SHAPE node does at its dispatch. -/
def shapeDispatch (s : State) (key : Nat) : State :=
  match tget s.nodes key with
  | none => s
  | some n =>
    let d := n.desc
    let T := cellWord s n 0
    let s := touchPredict s n
    let run (s : State) (P : Nat) (t : Option Dbl) : State :=
      nodeTick (putNode s key { n with p := BitVec.ofNat 64 P, t := t, speculating := t.isNone, blocks := blocksFor d P }) key
    if T = unpublished then
      let P := predict s n
      match extendAll s d P with
      | some s => run s P none
      | none => match extendAll s d d.floor with
        | some s => run s d.floor none
        | none => failShape s key 0x201
    else
      let t := some (BitVec.ofNat 64 T)
      if T < d.floor then failShape (putNode (learnShape s n T) key { n with t := t }) key 0x200
      else if d.cap < T then failShape (putNode (learnShape s n T) key { n with t := t }) key 0x204
      else match extendAll s d T with
        | some s => run (learnShape s n T) T t
        | none => match extendAll s d d.floor with
          | some s => nodeTick (putNode s key { n with
              p := BitVec.ofNat 64 d.floor, t := none, seen := t, speculating := true, blocks := blocksFor d d.floor }) key
          | none => failShape (putNode s key { n with t := t }) key 0x201

/-! ### Resolution (R271, R272, R274) -/

/-- R271: a held cause is delivered. -/
def deliverHeld (s : State) (id : Nat) : State :=
  match tget s.teams id with
  | some t => match t.held with
    | some h => deliver (putTeam s id { t with held := none, wait := .none }) id h.cause h.info h.pc
    | none => s
  | none => s

/-- R272: a provisional block is confirmed: held work proceeds and the lane-fault report that was held is posted. -/
def confirmBlock (s : State) (id : Nat) : State :=
  match tget s.blocks id with
  | none => s
  | some b =>
    if !b.provisional then s
    else
      let b := { b with provisional := false }
      let s := putBlock s id b
      let s := if b.exited && !b.reported then postLaneFaults s id b else s
      b.teams.foldl deliverHeld s

/-- R272: blocks from an ordinal on are dropped or squashed; the others are confirmed. -/
def settleBlocks (s : State) (key limit : Nat) : State :=
  let mine := (blocksOf s key).filter fun b => !b.2.left || b.2.provisional
  let s := (mine.filter fun b => decide (limit ≤ b.2.ordinal)).foldl (fun s b => squashBlock s b.1) s
  (mine.filter fun b => decide (b.2.ordinal < limit)).foldl (fun s b => confirmBlock (retestBars s b.1) b.1) s

/-- SHAPE_RESOLVE (R272): the dispatcher has read a published true shape. -/
def execShapeResolve (node : Nat) (s : State) : Out :=
  match tget s.nodes node with
  | none => .next s
  | some n =>
    let d := n.desc
    let T := cellWord s n 0
    if !n.speculating || n.failing || n.cancel.isSome || decide (T = unpublished) || retractMoving s d then .next s
    else
      let s := learnShape s n T
      let n := { n with t := some (BitVec.ofNat 64 T), speculating := false,
                        state := if n.state = .provisional then .running else n.state }
      if T < d.floor then .next (failShape (putNode s node n) node 0x200)
      else if d.cap < T then .next (failShape (putNode s node n) node 0x204)
      else if T ≤ n.p.toNat then
        let s := trimAll (putNode s node { n with blocks := blocksFor d T }) d T
        .next (nodeTick (settleBlocks s node (blocksFor d T)) node)
      else match extendAll s d T with
        | some s => .next (nodeTick (settleBlocks (putNode s node { n with blocks := blocksFor d T }) node (blocksFor d T)) node)
        | none => .next (failShape (putNode s node n) node 0x202)

end Sys2Proof.Machine
end

