-- ==== Sys2Proof/Machine/Sched.lean ====
section
/-! DEFINITION. The dispatcher (R260-R263, R267, R333), the formation of contexts (R25-R29, R184, R185), switches and
streams (R281-R284), and SLEEP (R248). -/
namespace Sys2Proof.Machine

/-! ### Dispatch (R260, R263, R267) -/

/-- R260: a comes before b in the dispatch order. -/
def before (a b : Node) : Bool :=
  decide (b.priority < a.priority) || decide (a.priority = b.priority ∧ a.readyAt < b.readyAt) ||
    decide (a.priority = b.priority ∧ a.readyAt = b.readyAt ∧ a.order < b.order)

/-! ### Placement (R25-R29, R263) -/

/-- R253: what the blocks of a context count for: (blocks, scratchpad, barriers), then what those that have not exited
count for: (teams, threads, quota). -/
structure Use where
  blocks : Nat := 0
  spad : Nat := 0
  bars : Nat := 0
  teams : Nat := 0
  threads : Nat := 0
  quota : Nat := 0

def ctxUse (s : State) (c : Ctx) : Use :=
  c.blocks.foldl (fun (u : Use) i => match tget s.blocks i with
    | some b =>
      if b.left then u
      else
        let u := { u with blocks := u.blocks + 1, spad := u.spad + b.spad, bars := u.bars + b.barMask.length }
        if b.exited then u
        else
          let threads := (b.teams.map fun t => match tget s.teams t with
            | some t => t.size
            | none => 0).sum
          { u with teams := u.teams + b.teams.length, threads := u.threads + threads, quota := u.quota + b.quota }
    | none => u) {}

/-- R26, R27: whether one more block of its launch fits a context. -/
def joinFits (s : State) (d : NodeDesc) (c : Ctx) : Bool :=
  let u := ctxUse s c
  let (teams, threads, pool, _, slots, bars) := ctxLimits d.wide
  decide (u.blocks < 2 ∧ u.spad + d.spad ≤ c.partition ∧ u.bars + d.barMask.length ≤ bars ∧ u.teams + d.teams.length ≤ teams ∧
    u.threads + descThreads d ≤ threads ∧ (u.threads + descThreads d) * 256 ≤ pool ∧ u.quota + d.acc ≤ slots)

/-- R263: a place of a slot for a block of a node: the rank of R263, and the context it joins. A gang part goes into the slots
reserved for it (R267). -/
def placeRank (s : State) (key : Nat) (n : Node) (die core : Nat) (slot : SlotSel) : Option (Nat × Option Nat) :=
  if !mayRun s n die (core / 8) || (n.desc.wide != decide (slot = .wide)) ||
      (n.desc.gang && !n.resv.contains (die, core, slot)) then none
  else
    let here := slotsOf s n.dev die core
    if slotOpen s n.dev key die core slot then
      some (if here.any (fun x => decide (x.2.state = .running ∨ x.2.state = .ready)) then 1 else 0, none)
    else match here.find? fun x => decide (x.2.slot = slot ∧ x.2.node = key ∧ (x.2.state = .running ∨ x.2.state = .ready)) with
      | some x => if joinFits s n.desc x.2 && (decide (n.desc.cluster = 0) ||
            x.2.blocks.all fun i => match tget s.blocks i with
              | some b => decide (clusterOf n b ≠ n.next / n.desc.cluster)
              | none => true) then some (2, some x.1) else none
      | none => none

/-- R28: the places of the blocks that go together: a cluster on cores 0 to c − 1 of one hardware cluster, in the slot of the same
letter on each (log 45). -/
def placeSet (s : State) (key : Nat) (n : Node) (die core : Nat) (slot : SlotSel) : Option (Nat × List (Nat × Option Nat)) :=
  let cores := if n.desc.cluster = 0 then [core] else (List.range n.desc.cluster).map (core / 8 * 8 + ·)
  cores.foldr (fun k acc => match acc, placeRank s key n die k slot with
    | some (r, ks), some (q, j) => some (max r q, (k, j) :: ks)
    | _, _ => none) (some (0, []))

/-- R263: the best rank on a die, over its cores and slots. -/
def bestRank (s : State) (key : Nat) (n : Node) (die : Nat) : Option Nat :=
  ((List.range 128).flatMap fun core => (letters n.desc).filterMap fun sl => (placeSet s key n die core sl).map (·.1)).foldl
    (fun (b : Option Nat) r => match b with
      | some x => some (min x r)
      | none => some r) none

/-- R263: some place has room for the next block, or cluster, of a node. -/
def hasRoom (s : State) (x : Nat × Node) : Bool := [0, 1].any fun die => (bestRank s x.1 x.2 die).isSome

/-! ### Dispatch (R260, R263, R267) -/

/-- R33, R267: a ready node that the dispatcher can admit now. -/
def admissible (s : State) (x : Nat × Node) : Bool :=
  decide (x.2.state = .ready) && (!x.2.desc.gang || x.2.reserved) &&
    (!x.2.desc.coop || decide (x.2.desc.grid ≤ freeCapacity s x.2)) && !(x.2.desc.shape && retractMoving s x.2.desc) && hasRoom s x

/-- R260: the node the dispatcher takes next on a device. -/
def nextNode (s : State) (dev : Nat) : Option (Nat × Node) :=
  (s.nodes.filter fun x => decide (x.2.dev = dev) && admissible s x).foldl
    (fun (best : Option (Nat × Node)) x => match best with
      | none => some x
      | some y => if before x.2 y.2 then some x else best) none

/-- R209: the size of a launch's code object. -/
def codeObjectSize (s : State) (p : Dbl) : Nat :=
  if isObject p then match homeOf s (ptrGoid p) with
    | some (_, x) => x.size
    | none => 0
  else 0

/-- DISPATCH (R258, R260, R269): the dispatcher takes the best ready node that has room and begins placing it. -/
def execDispatch (dev : Nat) (s : State) : Out :=
  if !dispUp s dev then .next s
  else match nextNode s dev with
    | none => .next s
    | some (key, n) =>
      let s := putNode s key { n with state := .dispatching, code := s.mem, codeSize := codeObjectSize s n.desc.kernel }
      .next (if n.desc.shape then shapeDispatch s key else s)

/-- NODE_AGING (R260, R261): a ready node rises one level when it has stayed ready longer than the limit of its priority. -/
def execNodeAging (node : Nat) (s : State) : Out :=
  match tget s.nodes node with
  | none => .next s
  | some n =>
    let age := tgetD (devOf s n.dev).age n.priority 1000
    if n.state = .ready ∧ n.priority < 40 ∧ age ≠ 0 ∧ usAc age < clock s n.dev - n.waitedAt then
      .next (putNode s node { n with priority := n.priority + 1, waitedAt := clock s n.dev })
    else .next s

/-! ### The forming of a context (R26, R184, R185) -/

/-- A block's team as a launch starts it (R233, R256). -/
def newTeam (d : NodeDesc) (block num : Nat) (t : TeamDesc) : Team :=
  { block := block, num := num, size := t.size, role := t.role, budget := t.budget,
    pc := d.kernel + BitVec.ofNat 64 t.entry, mask := BitVec.ofNat 1024 (2 ^ t.size - 1),
    k := d.kargs.filter fun x => decide (x.1 ≠ 0) }

/-- Whole pages of device memory, written by firmware under slot 0, hold zeros. -/
def clearPages (m : Memory) (dev page count : Nat) : Memory :=
  let lo := page * 4096
  let hi := lo + count * 4096
  let m := zeroRange m (slotKey dev 0 lo) (slotKey dev 0 hi)
  { m with slots := m.slots.filter fun x => !decide (devKey dev lo / 64 ≤ x.1 ∧ x.1 < devKey dev hi / 64) }

/-- R184: the entries of some consecutive tables: entry i leads to page `child + i`, with what else the entry holds. -/
def writeEntries (m : Memory) (dev table child count bits : Nat) : Memory :=
  (List.range count).foldl (fun m i => writeNat m (slotKey dev 0 (table * 4096 + 8 * i)) 8 ((child + i) % 2 ^ 40 * 4096 + bits)) m

/-- R185: region 1 of a context is mapped from address 0 up: `pages` present and writable pages of the owner's memory from page
`store` on, through tables from page `root` on (log 24). -/
def mapPrivate (m : Memory) (dev key root store pages : Nat) : Memory :=
  let n0 := (pages + 511) / 512
  let n1 := (n0 + 511) / 512
  let n2 := (n1 + 511) / 512
  let t2 := root + 1
  let t1 := t2 + n2
  let t0 := t1 + n1
  let m := clearPages m dev root (1 + n2 + n1 + n0)
  let m := writeEntries m dev root t2 n2 13
  let m := writeEntries m dev t2 t1 n1 13
  let m := writeEntries m dev t1 t0 n0 13
  writeEntries m dev t0 store pages (key * 2 ^ 56 + 13)

/-- R26, R185: the private bytes of a context formed for a node's next block. -/
def privateBytes (n : Node) : Nat := n.desc.private_ * descThreads n.desc * perContext n.desc (n.blocks - n.next)

/-- R26, R184, R185, R51: a context is formed for a block of a node. Its private storage holds no promised value. -/
def formCtx (s : State) (key : Nat) (n : Node) (die core : Nat) (slot : SlotSel) : State × Nat :=
  let d := n.desc
  let id := s.fresh
  let k := vfKey n.dev n.vf
  let pages := (privateBytes n + 4095) / 4096
  let root := (Config.tablePage s.stamp).toNat
  let store := (Config.privatePage s.stamp).toNat
  let roots := rootsFor n.dev n.vf n.ident
  let c : Ctx := { dev := n.dev, die := die, core := core, slot := slot, vf := n.vf, key := k, node := key, since := s.now,
                   partition := partitionFor d.wide (perContext d (n.blocks - n.next) * d.spad),
                   roots := if pages = 0 then roots else tput roots 1 (root * 4096), slotBase := if slot = .b then 8 else 0 }
  let mem := if pages = 0 then s.mem
    else freshRange (mapPrivate s.mem n.dev k root store pages) (slotKey n.dev k (store * 4096))
      (slotKey n.dev k ((store + pages) * 4096)) s.stamp
  (acquire (putCtx { s with fresh := id + 1, stamp := s.stamp + 1, mem := mem } id c) id 5, id)

/-- R263: one block of a node is placed in a context. Its teams start when its scratchpad is filled (R26). -/
def placeBlock (s : State) (key : Nat) (die : Nat) (slot : SlotSel) (at_ : Nat × Option Nat) : State :=
  match tget s.nodes key with
  | none => s
  | some n =>
    let d := n.desc
    let (s, ctx) := match at_.2 with
      | some c => (s, c)
      | none => formCtx s key n die at_.1 slot
    let id := s.fresh
    let teams := (List.range d.teams.length).map (id + 1 + ·)
    let b : Block := { ctx := ctx, node := key, ordinal := n.next, rank := if d.cluster = 0 then 0 else n.next % d.cluster,
                       teams := teams, spad := d.spad, barMask := d.barMask, quota := d.acc,
                       provisional := n.speculating && decide (blocksFor d d.floor ≤ n.next) }
    let s := { s with fresh := id + 1 + d.teams.length }
    let s := putNode (putBlock s id b) key { n with next := n.next + 1 }
    let s := (teams.zip (d.teams.zipIdx)).foldl (fun s x => putTeam s x.1 (newTeam d id x.2.2 x.2.1)) s
    let old := match tget s.ctxs ctx with
      | some c => c.blocks.find? fun i => match tget s.blocks i with
        | some b => b.left
        | none => true
      | none => none
    modCtx s ctx fun c => { c with blocks := match old with
      | some o => c.blocks.map fun i => if i = o then id else i
      | none => c.blocks ++ [id] }

/-- R260: another node of the device comes first: its blocks are being placed, and one has room (log 34). -/
def placedFirst (s : State) (key : Nat) (n : Node) : Bool :=
  s.nodes.any fun x => decide (x.2.dev = n.dev ∧ x.1 ≠ key ∧ x.2.next < x.2.blocks) &&
    decide (x.2.state = .dispatching ∨ x.2.state = .provisional ∨ x.2.state = .running) && !x.2.failing && x.2.cancel.isNone &&
    before x.2 n && hasRoom s x

/-- BLOCK_PLACE (R263): the next block, or cluster, of a node goes where R263 ranks best; among places of equal rank the
event says which. While region 1 of a new context cannot be mapped the blocks wait (R185). -/
def execBlockPlace (node die core : Nat) (slot : SlotSel) (s : State) : Out :=
  match tget s.nodes node with
  | none => .next s
  | some n =>
    let active := decide (n.state = .dispatching ∨ n.state = .provisional ∨ n.state = .running)
    if !active || n.failing || n.cancel.isSome || decide (n.blocks ≤ n.next ∨ 2 ≤ die ∨ 128 ≤ core) || placedFirst s node n then .next s
    else match placeSet s node n die core slot, bestRank s node n die with
      | some (r, places), some best =>
        if best < r || (decide (die ≠ n.die) && (bestRank s node n n.die).isSome) then .next s
        else if decide (0 < privateBytes n) && places.any (fun p => p.2.isNone) && !Config.privateRoom s.stamp then
          .next { s with stamp := s.stamp + 1 }
        else
          let s := places.foldl (fun s p => placeBlock s node die slot p) s
          .next (places.foldl (fun s p => settleCore s n.dev die p.1) s)
      | _, _ => .next s

/-- SCRATCHPAD_FILL_DONE (R26, R258): the block's teams begin. -/
def execScratchpadFillDone (block : Nat) (s : State) : Out :=
  match tget s.blocks block with
  | none => .next s
  | some b =>
    if b.filled || b.left || b.exited then .next s
    else
      let s := putBlock s block { b with filled := true }
      .next (modNode s b.node fun n => { n with
        started := n.started + 1
        state := if n.state = .dispatching ∧ b.ordinal = 0 then (if n.speculating then .provisional else .running) else n.state })

/-! ### Turns, switches and streams (R262, R281-R284) -/

/-- R262: the quantum of the VF that holds a core has run out. -/
def quantumOver (s : State) (k : Nat) : Bool :=
  let dev := k / 256
  decide ((coreOf s k).since + usAc (1000 * quantumOf s dev (holderOf s dev (k / 128 % 2) (k % 128))) ≤ clock s dev)

/-- R33: the cores of a cooperative launch pass to its VF together (log 44). -/
def turnTogether (s : State) (c : Ctx) : State :=
  if isCoop s c then (matesOf s c.node).foldl (fun s x => giveTurn s x.2.dev (ctxCore x.2) c.vf) s else s

/-- R33: where two contexts of a cooperative launch share a core, the other one runs next (log 44). -/
def alternate (s : State) (c : Ctx) : State :=
  let old := (matesOf s c.node).filter fun x => decide (x.2.state = .running)
  old.foldl (fun s x => match (slotsOf s x.2.dev x.2.die x.2.core).find? fun y =>
      decide (y.2.node = c.node ∧ y.2.state = .ready) with
    | some y => startCtx (stopCtx s x.1) y.1
    | none => s) s

/-- QUANTUM_END (R262): the next VF with work and a quantum holds the core; the holder goes on where there is no other. -/
def execQuantumEnd (core : Nat) (s : State) : Out :=
  let dev := core / 256
  let die := core / 128 % 2
  let k := core % 128
  let turn := holderOf s dev die k
  if !quantumOver s core then .next s
  else match (fromVf (turn + 1)).find? (mayHold s dev die k) with
    | none => .next s
    | some v =>
      let s := { s with cores := tput s.cores core ⟨v, clock s dev⟩ }
      if v = turn then .next (match runningOn s core with
        | some x => if isCoop s x.2 then alternate s x.2 else s
        | none => s)
      else
        let mine := (slotsOf s dev die k).filter fun x => decide (x.2.state = .ready ∧ x.2.vf = v)
        let s := match bestReady s mine with
          | some x => turnTogether s x.2
          | none => s
        .next (settleCore s dev die k)

/-- R267: every part of a gang is ready. -/
def gangReady (s : State) (gang : Nat) (g : Gang) : Bool :=
  decide (g.nodes.length = g.parts.length) && g.nodes.all fun k => match tget s.nodes k with
    | some n => decide (n.state = .ready) && inGang gang n && g.parts.contains (n.dev, n.desc.part)
    | none => false

/-- R262: a node with blocks to place. -/
def toPlace (n : Node) : Bool :=
  decide (n.state = .ready ∨ n.state = .dispatching ∨ n.state = .provisional ∨ n.state = .running) && decide (n.next < n.blocks) &&
    !n.failing && n.cancel.isNone

/-- R26, R28, R267: the slots of a core, or of the cores of a cluster, that the blocks of a node need. -/
def slotsNeeded (n : Node) : Nat :=
  let per := if twoFit n.desc then 2 else 1
  if n.desc.cluster = 0 then (n.blocks + per - 1) / per
  else (n.blocks / n.desc.cluster + per - 1) / per * n.desc.cluster

/-- R267: a gang that is being reserved lacks slots for a part. -/
def lacksSlots (s : State) (key : Nat) (n : Node) : Bool :=
  n.desc.gang && !n.reserved && decide (n.resv.length < slotsNeeded n) &&
    s.gangs.any fun g => g.2.nodes.contains key && g.2.until_.isSome && gangReady s g.1 g.2

/-- R262, R267: a node of level 41 to 47 above the context's, or a gang about to commit, waits for the context's core: with
blocks to place, or with a context that is saved or ready there. -/
def outranked (s : State) (c : Ctx) : Bool :=
  s.nodes.any fun x => decide (x.2.dev = c.dev ∧ x.1 ≠ c.node) && mayRun s x.2 c.die (c.core / 8) &&
    ((decide (41 ≤ x.2.priority ∧ ctxPriority s c < x.2.priority) && (toPlace x.2 || s.ctxs.any fun y =>
        decide (y.2.node = x.1 ∧ (y.2.state = .saved ∨ y.2.state = .ready ∧ y.2.die = c.die ∧ y.2.core = c.core)))) ||
      (lacksSlots s x.1 x.2 && !((tget s.nodes c.node).any fun n => n.desc.gang)))

/-- R262, R267: whether the dispatcher pre-empts a context: another VF holds its core, or for a node of level 41 to 47, or for a
gang. -/
def preempted (s : State) (c : Ctx) : Bool := !holdsCore s c || outranked s c

/-- SLOT_SWITCH (R29, R262, R281): a core switches from its running slot to a ready slot that is not pre-empted itself; a
cooperative launch switches in and out as a whole (R33). -/
def execSlotSwitch (core : Nat) (s : State) : Out :=
  let dev := core / 256
  let die := core / 128 % 2
  let k := core % 128
  match runningOn s core with
  | none => .next (settleCore s dev die k)
  | some x =>
    if !preempted s x.2 then .next s
    else match bestReady s ((readyOn s dev die k).filter fun y => !outranked s y.2) with
      | none => .next s
      | some y => .next (settleAll (switchIn (switchOut s x.1 x.2) y.1 y.2) (s.ctxs.filter fun z => decide (z.2.state = .running)))

/-- R29: a core streams one context at a time. -/
def streaming (s : State) (dev die core : Nat) : Bool :=
  (slotsOf s dev die core).any fun x => decide (x.2.state = .streamingOut ∨ x.2.state = .streamingIn)

/-- R262: no slot of the core holds the work that a context is pre-empted for. -/
def noneReady (s : State) (c : Ctx) : Bool :=
  (slotsOf s c.dev c.die c.core).all fun y => preempted s y.2

/-- R33: a cooperative launch is being streamed out, so that every context of it goes. -/
def leaving (s : State) (c : Ctx) : Bool :=
  isCoop s c && (matesOf s c.node).any fun x => decide (x.2.state = .streamingOut ∨ x.2.state = .saved)

/-- STREAM_OUT (R262, R282, R30, R33, R333): a context that is pre-empted when neither slot holds the work to run, or whose
cluster is gated, stops and starts to stream out, with as many contexts of its cooperative launch as cores are free to stream
(R29). -/
def execStreamOut (ctx : Nat) (s : State) : Out :=
  match tget s.ctxs ctx with
  | none => .next s
  | some c =>
    if decide (c.state ≠ .running ∧ c.state ≠ .ready) || !(preempted s c && noneReady s c || onGated s c || leaving s c) ||
        streaming s c.dev c.die c.core then .next s
    else
      let all := if isCoop s c then (ctx, c) :: matesOf s c.node else [(ctx, c)]
      let s := all.foldl (fun s x => match tget s.ctxs x.1 with
        | some y => if decide (y.state = .ready) && !streaming s y.dev y.die y.core then
            putCtx s x.1 { y with state := .streamingOut } else s
        | none => s) (switchOut s ctx c)
      .next (settleAll s all)

/-- R168, R282 step 2: the loads and atomics of a context have landed, its queued accesses have been served, and the copies to its
scratchpad have landed. What else it has sent is left to its counter set. -/
def quiet (s : State) (id : Nat) (c : Ctx) : Bool :=
  !(s.reqs.any fun r => decide (r.2.ctx = id) && (!acked r.2.kind || decide (r.2.phase = .queued ∨ r.2.phase = .held))) &&
  c.blocks.all fun i => match tget s.blocks i with
    | some b => (b.copyQ ++ b.gathQ).all fun x => !x.started || globalOut x
    | none => true

/-- R282: firmware's writes of an image into the owner's memory, encrypted: its bytes hold no promised value under any key slot (log
38). -/
def writeImage (m : Memory) (dev area bytes stamp : Nat) : Memory :=
  (List.range 64).foldl (fun m slot => freshRange m (slotKey dev slot area) (slotKey dev slot (area + bytes)) stamp) m

/-- STREAM_OUT_COMPLETE (R282, R283, R231): the counters park; the image is written into the owner's memory, encrypted under the key slot
of the context; the planes are not in it; the slot is empty. -/
def execStreamOutComplete (ctx : Nat) (s : State) : Out :=
  match tget s.ctxs ctx with
  | none => .next s
  | some c =>
    if decide (c.state ≠ .streamingOut) || !quiet s ctx c || !canPark s c then .next s
    else
      let image : Image := ⟨(Config.imageArea s.stamp).toNat, c.key, Config.imageDigest s.stamp, c.die⟩
      let n := liveCount s c
      let s := markOps s c
      let mem := writeImage s.mem c.dev image.area (Config.imageBytes s.stamp) s.stamp
      let s := c.blocks.foldl (fun s i => modBlock s i unloadPlanes) { s with stamp := s.stamp + 1, mem := mem }
      let s := putCtx s ctx { parkSet c n with state := .saved, since := s.now, l1 := [], records := [], tlb := [], image := some image }
      .next (settleCore (closeGates s c.dev) c.dev c.die c.core)

/-- R16, R28: the clusters of a node that a context holds blocks of. -/
def ctxClusters (s : State) (n : Node) (c : Ctx) : List Nat :=
  c.blocks.filterMap fun i => match tget s.blocks i with
    | some b => if b.left then none else some (clusterOf n b)
    | none => none

/-- R28, R284: the contexts of one cluster share a hardware cluster, each on the core of its cluster rank. -/
def withMates (s : State) (n : Node) (c : Ctx) (die core : Nat) : Bool :=
  decide (n.desc.cluster = 0) || (decide (core % 8 = c.core % 8) && s.ctxs.all fun y =>
    decide (y.2.node ≠ c.node ∨ y.2.state = .saved ∨ y.2.state = .left) ||
    !((ctxClusters s n y.2).any fun k => (ctxClusters s n c).contains k) ||
    decide (y.2.die = die ∧ y.2.core / 8 = core / 8))

/-- R28, R284: an open slot on the cores of one hardware cluster for each saved context that shares a cluster with one. -/
def matesFit (s : State) (n : Node) (c : Ctx) (die core : Nat) (slot : SlotSel) : Bool :=
  decide (n.desc.cluster = 0) || (matesOf s c.node).all fun y =>
    decide (y.2.state ≠ .saved ∨ y.2.core % 8 = c.core % 8) ||
    !((ctxClusters s n y.2).any fun k => (ctxClusters s n c).contains k) ||
    (if slot = .wide then [SlotSel.wide] else [.a, .b]).any fun sl => slotOpen s c.dev c.node die (core / 8 * 8 + y.2.core % 8) sl

/-- R29, R262, R284: a saved context has room at a place. -/
def fitsAt (s : State) (c : Ctx) (die core : Nat) (slot : SlotSel) : Bool :=
  match tget s.nodes c.node with
  | none => false
  | some n => decide (c.state = .saved ∧ die < 2 ∧ core < 128) && (decide (c.slot = .wide) == decide (slot = .wide)) &&
      slotOpen s c.dev c.node die core slot && mayRun s n die (core / 8) && withMates s n c die core &&
      (!n.desc.coop || matesFit s n c die core slot)

/-- R284: the first place with room for a saved context. -/
def firstFit (s : State) (c : Ctx) : Option (Nat × Nat × SlotSel) :=
  [c.die, 1 - c.die].findSome? fun die => (List.range 128).findSome? fun core =>
    (if c.slot = .wide then [SlotSel.wide] else [.a, .b]).findSome? fun sl =>
      if fitsAt s c die core sl then some (die, core, sl) else none

/-- A saved context has its slot. DEDUCED (log 22): its accumulator slots keep the ids they were given when it was formed, whatever the
letter of the slot it streams into. -/
def assign (s : State) (id : Nat) (c : Ctx) (at_ : Nat × Nat × SlotSel) : State :=
  putCtx s id { c with state := .assigned, die := at_.1, core := at_.2.1, slot := at_.2.2 }

/-- R33, R284: a context takes a place, and every other context of its cooperative launch a place of its own; none unless the launch
fits whole. -/
def assignAll (s : State) (id : Nat) (c : Ctx) (at_ : Nat × Nat × SlotSel) : Option State :=
  if !isCoop s c then some (assign s id c at_)
  else
    let mates := (matesOf s c.node).filter fun x => decide (x.1 ≠ id)
    if mates.any fun x => decide (x.2.state ≠ .saved) then none
    else mates.foldl (fun acc x => acc.bind fun s => (firstFit s x.2).map (assign s x.1 x.2)) (some (assign s id c at_))

/-- R29, R262, R284: a saved context can stream in to a place. -/
def canStreamIn (s : State) (id : Nat) (c : Ctx) (die core : Nat) (slot : SlotSel) : Bool :=
  fitsAt s c die core slot && !streaming s c.dev die core && (assignAll s id c (die, core, slot)).isSome

/-- R284: an image that waits for the same place and comes before one in the order of stream-in. -/
def laterImage (s : State) (c : Ctx) (die core : Nat) (slot : SlotSel) : Bool :=
  s.ctxs.any fun x => decide (x.2.dev = c.dev) && canStreamIn s x.1 x.2 die core slot &&
    (decide (ctxPriority s c < ctxPriority s x.2) || decide (ctxPriority s c = ctxPriority s x.2 ∧ x.2.since < c.since))

/-- R284: a discarded image: its teams receive the cause as a kill, and the node fails. -/
def discardImage (s : State) (id : Nat) (c : Ctx) (cause : Nat) : State :=
  let teams := (ctxTeams s c).filter fun x => !x.2.ended
  let (ordinal, pc) := match teams with
    | x :: _ => (match tget s.blocks x.2.block with
        | some b => b.ordinal
        | none => 0, x.2.pc.toNat)
    | [] => (0, 0)
  let s := failNode (teams.foldl (fun s x => killTeam s cause x.1) s) c.node cause ordinal pc
  let s := match tget s.ctxs id with
    | some c => c.blocks.foldl leaveBlock s
    | none => s
  nodeTick (dropImages s c.node) c.node

/-- STREAM_IN (R284, R266, R29): firmware checks the image; it streams into a free slot, or is discarded. The contexts of a
cooperative launch all take their slots when the first of them comes, and stream in as their cores allow. -/
def execStreamIn (ctx die core : Nat) (slot : SlotSel) (digestOk : Bool) (s : State) : Out :=
  match tget s.ctxs ctx with
  | none => .next s
  | some c =>
    if c.state ≠ .saved ∧ c.state ≠ .assigned then .next s
    else if (tget s.nodes c.node).any fun n => n.failing || n.cancel.isSome then .next (nodeTick (dropImages s c.node) c.node)
    else if (devOf s c.dev).revoked.contains c.key then .next (discardImage s ctx c 0x3C1)
    else if !digestOk then .next (discardImage s ctx c 0x3C2)
    else if c.state = .assigned then
      if streaming s c.dev c.die c.core then .next s else .next (putCtx s ctx { c with state := .streamingIn })
    else if !canStreamIn s ctx c die core slot || laterImage s c die core slot then .next s
    else match assignAll s ctx c (die, core, slot) with
      | some s => .next (modCtx s ctx fun c => { c with state := .streamingIn })
      | none => .next s

/-- R249: a held credit or completion is applied. -/
def applyHeld (ctx : Nat) (s : State) (e : HeldEvent) : State :=
  match e with
  | .credit block bar parity bytes => creditNow s block bar parity bytes
  | .done block gather num tag failed => blockDone s block gather num tag failed
  | .coll block num tag failed => collApply s ctx block num tag failed

/-- STREAM_IN_COMPLETE (R284, R168, R249): held credits and advances, watches that end, stalls issued again, the slot
ready. A die that the context comes to anew keeps no copy of a remote line, which its teams may have written since (R196). -/
def execStreamInComplete (ctx : Nat) (s : State) : Out :=
  match tget s.ctxs ctx with
  | none => .next s
  | some c =>
    if c.state ≠ .streamingIn then .next s
    else
      let s := if c.image.any fun i => decide (i.die ≠ c.die) then modSite s (ctxSite c) fun x => { x with l2 := [] } else s
      let s := putCtx s ctx { c with state := .ready, since := s.now, heldEvents := [], image := none }
      let s := c.heldEvents.foldl (applyHeld ctx) s
      let s := (ctxTeams s c).foldl (fun s x => modTeam s x.1 fun t =>
        let t := wake t
        if t.wait = .page then { t with wait := .queued } else t) s
      .next (settleCore s c.dev c.die c.core)

/-! ### Gangs (R267) -/

/-- GANG_REGISTRATION (R267): firmware records a gang's parts, as (device, part). -/
def execGangRegistration (gang : Nat) (parts : List (Nat × Nat)) (s : State) : Out :=
  .next (if (tget s.gangs gang).isSome then s else { s with gangs := tput s.gangs gang { parts := parts } })

/-- R267: one more slot, or the slots of one cluster, for a part, where some are open. -/
def reserveOne (s : State) (key : Nat) (n : Node) : Option (List (Nat × Nat × SlotSel)) :=
  let width := max 1 n.desc.cluster
  [n.die, 1 - n.die].findSome? fun die => (List.range 128).findSome? fun core =>
    (letters n.desc).findSome? fun sl =>
      let cores := if n.desc.cluster = 0 then [core] else (List.range width).map (core / 8 * 8 + ·)
      if cores.all fun k => mayRun s n die (k / 8) && slotOpen s n.dev key die k sl && !n.resv.contains (die, k, sl) then
        some (cores.map fun k => (die, k, sl))
      else none

/-- R267: a part reserves the open slots it needs, as far as there are any. -/
def reservePart : Nat → State → Nat → State
  | 0, s, _ => s
  | f + 1, s, key => match tget s.nodes key with
    | none => s
    | some n =>
      if slotsNeeded n ≤ n.resv.length then s
      else match reserveOne s key n with
        | some xs => reservePart f (putNode s key { n with resv := n.resv ++ xs }) key
        | none => s

/-- R267: the reservations of a gang, with whether it has committed. -/
def markGang (s : State) (gang : Nat) (g : Gang) (keep : Bool) : State :=
  let s := { s with gangs := tput s.gangs gang g }
  g.nodes.foldl (fun s k => modNode s k fun n => { n with reserved := keep, resv := if keep then n.resv else [] }) s

/-- GANG_RESERVE (R267): once every part is ready, the slots of its blocks are reserved, running work making way (R262); when every
part has all of its own, the gang commits. A reservation that was given up is not tried again before its time. -/
def execGangReserve (gang : Nat) (s : State) : Out :=
  match tget s.gangs gang with
  | none => .next s
  | some g => match g.nodes with
    | [] => .next s
    | first :: _ =>
      let dev := first / 65536
      if g.reserved || !gangReady s gang g || decide (clock s dev < g.retry) || g.until_.any (· ≤ clock s dev) then .next s
      else
        let limit := g.until_.getD (clock s dev + usAc (devOf s dev).reservation)
        let s := g.nodes.foldl (fun s k => reservePart 512 s k) { s with gangs := tput s.gangs gang { g with until_ := some limit } }
        let full := g.nodes.all fun k => (tget s.nodes k).any fun n => decide (slotsNeeded n ≤ n.resv.length)
        .next (if full then markGang s gang { g with reserved := true, until_ := none } true else s)

/-- GANG_RESERVE_TIMEOUT (R267): a reservation that has not committed within the root core's limit is released, and is tried again
after the quantum of its VF; the parts stay ready. -/
def execGangReserveTimeout (gang : Nat) (s : State) : Out :=
  match tget s.gangs gang with
  | none => .next s
  | some g => match g.nodes with
    | [] => .next s
    | first :: _ =>
      let dev := first / 65536
      let q := (tget s.nodes first).elim 0 fun n => quantumOf s dev n.vf
      match g.until_ with
      | some limit => if g.reserved || decide (clock s dev < limit) then .next s
        else .next (markGang s gang { g with until_ := none, retry := clock s dev + usAc (1000 * q) } false)
      | none => .next s

/-! ### SLEEP (R248) -/

/-- SLEEP: until the clock has moved on by (k[ka] + imm32) mod 2^32. -/
def execSleep (o : I64) (s : State) : Out :=
  let ka := kaOf o
  withView s [] [] [(ka, 1)] fun w => match w.t.wait with
    | .sleep until_ => if until_ ≤ clock s w.c.dev then finish s w.t 8 else .next s
    | _ => block s (.sleep (clock s w.c.dev + ((kget w.t ka).toNat + o.imm.toNat) % 2 ^ 32))

/-- SLEEP_WAKE (R248): the team's time has come. -/
def execSleepWake (team : Nat) (s : State) : Out :=
  match viewOf s team with
  | none => .next s
  | some w => match w.t.wait with
    | .sleep until_ =>
      if until_ ≤ clock s w.c.dev && w.t.halt.isNone && decide (w.c.state = .running ∨ w.c.state = .ready) then
        .next (complete s team (stepEnd w.t) 8)
      else .next s
    | _ => .next s

end Sys2Proof.Machine
end

