-- ==== Sys2Proof/Machine/Fabric.lean ====
section
/-! DEFINITION. The fabric: acknowledgements (R292), pages and flips (R186-R188), planes and their recovery (R294, R302,
R303), combining (R297-R301, R311, R312) and multicast (R304, R153). -/
namespace Sys2Proof.Machine

/-! ### Acknowledgements (R292, R283, R29) -/

/-- What waits for a count: the leave of the contexts of a core (R29), since a parking place may be free again, and the final state of
the context's node (R264). -/
def ackCtx (s : State) (ctx set : Nat) : State :=
  match tget s.ctxs ctx with
  | none => s
  | some c =>
    let cores := ctxCore c :: c.parked.map (·.core)
    let s := putCtx s ctx (ackSet c set)
    nodeTick ((s.ctxs.filter fun x => cores.contains (ctxCore x.2)).foldl (fun s x => tryLeave s x.1) s) c.node

/-- R292: the requests, multicast stores and engine operations under way that a counter set of a context counts. -/
def travelling (s : State) (ctx : Nat) (c : Ctx) (set : Nat) : Nat :=
  (s.reqs.filter fun x => decide (x.2.ctx = ctx ∧ x.2.set = some set)).length +
  (s.fabric.msgs.filter fun x => match x.2 with
    | .mcast _ m _ _ _ n _ _ _ _ => decide (m = ctx ∧ n = set)
    | _ => false).length +
  (c.blocks.map fun i => match tget s.blocks i with
    | some b => ((b.copyQ ++ b.gathQ).filter fun x => decide (x.set = some set)).length
    | none => 0).sum

/-- R292: the count of a set of a context. -/
def setCount (c : Ctx) (set : Nat) : Nat :=
  if set = c.set then c.out else ((c.parked.filter fun p => decide (p.set = set)).map (·.count)).sum

/-- STORE_ACK_RECEIVE (R292): a store that its home has made is acknowledged in the set that counts it. -/
def execStoreAckReceive (ctx set : Nat) (s : State) : Out :=
  match tget s.ctxs ctx with
  | some c => .next (if travelling s ctx c set < setCount c set then ackCtx s ctx set else s)
  | none => .next s

/-- R178 step 5, R190, R292: REPLY_RECEIVE: the locator learns from a reply of a home, the lanes take their answers, a request that a
counter set counts is acknowledged, and the request is done. A die that the context has come to since keeps no older copy of what was
written (R196). -/
def execReplyReceive (req : Nat) (s : State) : Out :=
  match tget s.reqs req with
  | none => .next s
  | some q =>
    if decide (q.phase ≠ .replied) || behindFlit s req q then .next s
    else
      let s := { s with reqs := tdel s.reqs req }
      let s := if q.fromHome then learn s q.from_ (reqGoid q) q.home q.moves else s
      let s := match tget s.teams q.team with
        | none => s
        | some t =>
          if t.ended then s
          else
            let t := q.answers.foldl (fun t a =>
              { deliverAns t q.kind q.size q.dest a with
                watch := if a.fault = 0 then t.watch else t.watch.filter fun h => decide (h.2 ≠ a.lane.getD 0) }) t
            match q.answers.find? fun a => a.lane.isNone && decide (a.fault ≠ 0) with
            | some a => raiseAt (putTeam s q.team { t with served := 0, watch := [] }) q.team a.fault 0 t.pc
            | none => putTeam s q.team t
      match q.set, tget s.ctxs q.ctx with
      | some set, some c =>
        let s := if ctxSite c = q.from_ then s
          else q.items.foldl (fun s i => dropLine s q.ctx (ctxSite c) (lineOf i.ptr.toNat)) s
        .next (ackCtx s q.ctx set)
      | _, _ => .next s

/-! ### Pages and flips (R186-R188) -/

/-- R184: bits of a table entry. -/
def pteRead (s : State) (dev entry : Nat) : Nat := tableEntry s.mem dev entry
def pteSet (s : State) (dev entry bit : Nat) (on : Bool) : State :=
  let e := pteRead s dev entry
  let e := if e.testBit bit then (if on then e else e - 2 ^ bit) else if on then e + 2 ^ bit else e
  { s with mem := writeNat s.mem (slotKey dev (slotOf s.mem dev entry) entry) 8 e }
def pteAddr (e : Nat) : Nat := e / 4096 % 2 ^ 40 * 4096
/-- R184, R189: where the bytes of the page of an entry are kept. -/
def pteKey (s : State) (dev e : Nat) : Nat := physKey s dev (e / 2 ^ 56 % 64) (pteAddr e)

/-- R186: the stalled accesses of a device's teams and engine operations are issued again. -/
def reissuePages (s : State) (dev : Nat) : State :=
  let mine (ctx : Nat) : Bool := match tget s.ctxs ctx with
    | some c => decide (c.dev = dev)
    | none => false
  let retry (t : Team) : Team := if t.wait = .page then { t with wait := .queued } else t
  let blocks := (s.blocks.filter fun b => mine b.2.ctx).map (·.1)
  let s := { s with
    teams := s.teams.map fun x => if blocks.contains x.2.block then (x.1, retry x.2) else x
    blocks := s.blocks.map fun x => if blocks.contains x.1 then
      (x.1, { x.2 with copyQ := x.2.copyQ.map fun o => { o with stalled := false },
                       gathQ := x.2.gathQ.map fun o => { o with stalled := false } }) else x }
  let stays (p : PagePost) : Bool := match tget s.ctxs p.ctx with
    | some c => match xlate s c p.region p.addr with
      | .absent _ => true
      | .page x => x.host
      | .none => false
    | none => false
  -- R328: a queue pair that a fault on its source stalled goes on
  modDev s dev fun d => { d with
    vfcores := d.vfcores.map fun v => (v.1, { v.2 with posts := v.2.posts.filter stays })
    runnel := { d.runnel with qps := d.runnel.qps.map fun q => (q.1, { q.2 with stalled := false }) } }

/-- PAGE_FAULT_RESOLVED (R186): the driver makes a valid entry that is not present either present or invalid, or has
written it itself; the stalled accesses are issued again. -/
def execPageFaultResolved (dev entry : Nat) (present : Bool) (s : State) : Out :=
  let e := pteRead s dev entry
  if e.testBit 0 && !e.testBit 2 then
    .next (reissuePages (if present then pteSet s dev entry 2 true else pteSet s dev entry 0 false) dev)
  else .next (reissuePages s dev)

/-- The cached translations of a device that lead to a page. -/
def dropXlat (s : State) (dev pa : Nat) : State :=
  { s with ctxs := s.ctxs.map fun x => if x.2.dev = dev then
      (x.1, { x.2 with tlb := x.2.tlb.filter fun y => decide (y.2.pa ≠ pa) }) else x }

/-- FLIP_DEVICE_TO_HOST (R188): the device's outstanding accesses to the page complete, its lines leave every L1 and L2, B becomes 1,
and the driver is told; watches on it end (R150). -/
def execFlipDeviceToHost (dev entry : Nat) (s : State) : Out :=
  let e := pteRead s dev entry
  if e.testBit 0 && e.testBit 2 && !e.testBit 5 then
    let pa := pteAddr e
    let lo := pteKey s dev e
    let s := wakeRange (flushRange (dropXlat (landOn s lo (lo + 4096)) dev pa) lo (lo + 4096)) lo (lo + 4096)
    .next (modDev (pteSet s dev entry 5 true) dev fun d => { d with
      flipPosts := d.flipPosts.filter (· ≠ pa / 4096)
      flipTold := pa / 4096 :: d.flipTold.filter (· ≠ pa / 4096) })
  else .next s

/-- FLIP_HOST_TO_DEVICE (R188): B becomes 0 and the stalled accesses are issued again. -/
def execFlipHostToDevice (dev entry : Nat) (s : State) : Out :=
  let e := pteRead s dev entry
  if e.testBit 0 && e.testBit 2 && e.testBit 5 then
    let pa := pteAddr e
    let lo := pteKey s dev e
    let s := wakeRange (pteSet (dropXlat s dev pa) dev entry 5 false) lo (lo + 4096)
    .next (modDev (reissuePages s dev) dev fun d => { d with
      flipPosts := d.flipPosts.filter (· ≠ pa / 4096), flipTold := d.flipTold.filter (· ≠ pa / 4096) })
  else .next s

/-! ### Requests that combine (R298-R301) -/

def setFabric (s : State) (f : Fabric → Fabric) : State := { s with fabric := f s.fabric }
def putMsg (s : State) (msg : Nat) (m : Msg) : State := setFabric s fun f => { f with msgs := tput f.msgs msg m }
def dropMsg (s : State) (msg : Nat) : State := setFabric s fun f => { f with msgs := tdel f.msgs msg }

/-- R297: the SLCTL of an egress port. -/
def slctlOf (s : State) (plane port : Nat) : Word := tgetD s.fabric.slctl (plane * 512 + port) 0x00010000
/-- The key of a record of a port. -/
def recordKey (plane port n : Nat) : Nat := (plane * 512 + port) * 4096 + n

/-- R296, R298: the operand a request carries, signed; the operands of lanes that go as one request are summed. -/
def operandOf (q : Req) : Int := sextN (q.sum % 2 ^ (8 * q.size)).toNat (8 * q.size)

/-- R296, R299: the constituents of a request: one, or one for each lane of an operation that sends one request per lane; as (tag,
operand). -/
def partsOf (q : Req) : List (Nat × Int) :=
  if q.single then q.items.zipIdx.map fun x => ((q.tag + x.2) % 65536, signedOf q.size x.1.data) else [(q.tag, operandOf q)]
def weightOf (s : State) (list : List Nat) : Nat :=
  (list.map fun id => (tget s.reqs id).elim 0 fun q => (partsOf q).length).sum

def isRed (q : Req) : Bool := match q.kind with
  | .red _ => true
  | _ => false

/-- R298: the request may combine at its egress port. -/
def eligible (s : State) (q : Req) : Bool :=
  !q.resent && (slctlOf s q.plane (q.site / 2)).getLsbD 16 &&
    (partsOf q).all fun x => decide (q.size = 4) || decide (-(2 ^ 31) ≤ x.2 ∧ x.2 < 2 ^ 31)

/-- R298: the entry has the key of the request. -/
def sameKey (e : CombEntry) (q : Req) : Bool :=
  decide (e.plane = q.plane ∧ e.port = q.site / 2 ∧ e.site = q.site ∧ e.addr / 8 = reqPtr q / 8 ∧ e.red = isRed q ∧
    e.wide = decide (q.size = 8))

/-- A request goes on uncombined. -/
def goSingle (s : State) (req : Nat) : State :=
  { s with reqs := tmod s.reqs req fun q => if q.phase = .egress ∨ q.phase = .combining then
      { q with phase := .toSite, left := s.now, port := q.from_ / 2 } else q }

/-- R299: the constituents of a list of requests with their prefix offsets modulo 2^n, and the whole sum. -/
def prefixSums (s : State) (n : Nat) (list : List Nat) : List Constituent × Nat :=
  (list.flatMap fun id => match tget s.reqs id with
    | some q => (partsOf q).map fun x => (q.from_, x)
    | none => []).foldl (fun (acc : List Constituent × Nat) x =>
      (acc.1 ++ [⟨x.1, x.2.1, x.2.2, acc.2⟩], (acc.2 + (x.2.2 % 2 ^ n).toNat) % 2 ^ n)) ([], 0)

/-- R296: the 8 bytes of a constituent entry, as a number. -/
def entryWord (c : Constituent) : Nat := c.site % 2 ^ 10 + c.tag % 2 ^ 16 * 2 ^ 10 + (c.operand % 2 ^ 32).toNat * 2 ^ 32

/-- R296: the list flits of a combined message, 4 entries each; the unused entries of the last read zero. -/
def listFlits (list : List Constituent) : List (List Nat) :=
  (List.range ((list.length + 3) / 4)).map fun i => (List.range 4).map fun j => (list[4 * i + j]?).elim 0 entryWord

/-- R296: the flits of a request: a store of more than 16 bytes carries its data in flits of 32. -/
def reqFlits (q : Req) : Nat :=
  let bytes := q.items.length * q.size
  if q.kind = .store ∧ 16 < bytes then 1 + (bytes + 31) / 32 else 1

/-- R296, R304: the flits of a message between Sluices and homes; of a multicast store, its merged acknowledgement. -/
def msgFlits : Msg → Nat
  | .creq _ _ _ _ _ _ list _ _ => 1 + (listFlits list).length
  | .cred _ _ _ _ _ list _ _ => 1 + (listFlits list).length
  | .cack _ list _ _ => 1 + (listFlits list).length
  | .crsp .. => 1
  | .split .. => 1
  | .done .. => 1
  | .lost .. => 1
  | .drsp .. => 1
  | .mcast .. => 5

/-- The lowest record of a port that is free. -/
def freeRecord (s : State) (plane port : Nat) : Option Nat :=
  let used := s.fabric.records.filter fun x => decide (x.2.plane = plane ∧ x.2.port = port)
  if used.length < Config.recordEntries then
    (List.range (used.length + 1)).find? fun n => (tget s.fabric.records (recordKey plane port n)).isNone
  else none

/-- R299 steps 3 to 6: an entry is forwarded. -/
def forwardEntry (s : State) (key : Nat) (e : CombEntry) : State :=
  let s := setFabric s fun f => { f with combs := tdel f.combs key }
  let (list, sum) := prefixSums s (if e.wide then 64 else 32) e.list
  if list.length ≤ 1 then e.list.foldl goSingle s
  else if e.red then addMsg s (.cred e.plane e.port e.site e.addr e.wide list sum 0)
  else match freeRecord s e.plane e.port with
    | none => e.list.foldl goSingle s
    | some r =>
      let s := setFabric s fun f => { f with records := tput f.records (recordKey e.plane e.port r) ⟨e.plane, e.port, list, false⟩ }
      addMsg s (.creq r e.plane e.port e.site e.addr e.wide list sum 0)

/-- R299: a request is at the head of the queue of its egress port: none that came before it waits there. -/
def atHead (s : State) (req : Nat) (q : Req) : Bool :=
  !s.reqs.any fun x => decide (x.2.phase = .egress ∧ x.2.plane = q.plane ∧ x.2.site / 2 = q.site / 2 ∧
    (x.2.left < q.left ∨ x.2.left = q.left ∧ x.1 < req))

/-- R210: an earlier request of the context to the line has not been answered, and is not among some that it joins. -/
def aheadOf (s : State) (req : Nat) (q : Req) (with_ : List Nat) : Bool :=
  s.reqs.any fun x => decide (x.1 < req ∧ x.2.ctx = q.ctx ∧ x.2.phase ≠ .replied ∧ lineOf (reqPtr x.2) = lineOf (reqPtr q)) &&
    !with_.contains x.1

/-- R299: a request opens an entry, or passes where the table is full. -/
def openEntry (s : State) (req : Nat) (q : Req) : State :=
  let port := q.site / 2
  if (s.fabric.combs.filter fun x => decide (x.2.plane = q.plane ∧ x.2.port = port)).length < Config.combineEntries then
    let e : CombEntry := ⟨q.plane, port, q.site, reqPtr q, isRed q, decide (q.size = 8), [req], clock s port, atHead s req q⟩
    { setFabric (putReq s req { q with phase := .combining }) (fun f => { f with combs := tput f.combs s.fresh e }) with
      fresh := s.fresh + 1 }
  else goSingle s req

/-- SLUICE_EGRESS (R299 steps 1 to 3): a request joins an entry of its key, opens one, or passes. It passes where the entry is of the
other word of its 8 bytes, has no room for all the lanes that go together (R146), or would take it past an earlier request of its
context to the line (R210, log 15). -/
def execSluiceEgress (req : Nat) (s : State) : Out :=
  match tget s.reqs req with
  | none => .next s
  | some q =>
    let lanes := (partsOf q).length
    if q.phase ≠ .egress then .next s
    else if !eligible s q || decide (Config.combineMax < lanes) then .next (goSingle s req)
    else match s.fabric.combs.find? fun x => sameKey x.2 q with
      | some (k, e) =>
        let room := Config.combineMax - weightOf s e.list
        if e.addr ≠ reqPtr q ∨ room < lanes ∨ aheadOf s req q e.list = true then .next (goSingle s req)
        else
          let e := { e with list := e.list ++ [req] }
          let s := setFabric (putReq s req { q with phase := .combining }) fun f => { f with combs := tput f.combs k e }
          .next (if lanes = room then forwardEntry s k e else s)
      | none => .next (if aheadOf s req q [] then goSingle s req else openEntry s req q)

/-- R299 step 3: HOLD ns in ac of the 700 MHz clock. -/
def holdAc (s : State) (plane port : Nat) : Nat := ((slctlOf s plane port).toNat % 256 * 7 + 9) / 10

/-- COMBINE_HOLD_EXPIRY (R299 step 3): the entry's first constituent has reached the head of the queue, or HOLD has passed since it
did, on the clock of the port's device (log 15). -/
def execCombineHoldExpiry (entry : Nat) (s : State) : Out :=
  match tget s.fabric.combs entry with
  | some e =>
    let first := e.list.headD 0
    if !e.head then .next (if (tget s.reqs first).all (atHead s first) then
      setFabric s fun f => { f with combs := tput f.combs entry { e with head := true, since := clock s e.port } } else s)
    else .next (if e.since + holdAc s e.plane e.port ≤ clock s e.port then forwardEntry s entry e else s)
  | none => .next s

/-! ### At the home (R300) -/

/-- What a home does with a combined message: applies it at a site, forwards it, lets it queue, resends its constituents,
or answers NOT-HERE or dead. -/
inductive Combined where
  | apply (home : Nat) | forward (dst : Nat) (stub : Bool) | queued | resend | notHere | dead | asked
deriving DecidableEq, Repr

def combinedAt (s : State) (site addr n hops : Nat) : Combined :=
  let p : Dbl := BitVec.ofNat 64 addr
  let g := ptrGoid p
  let checked (home : Nat) : Combined := match sizeEntry s home g with
    | some e => if e.size < ptrOff p + n / 8 ∨ (lineErr s addr).isSome then .resend else .apply home
    | none => .resend
  match answerAt s site g (ptrOff p) false with
  | .served => checked site
  | .queued => .queued
  | .forward dst false => checked dst
  | .forward dst true => if hops < 8 then .forward dst true else .asked
  | .notHere => .notHere
  | .dead => .dead

/-- R311: the request whose plane and tag a constituent carries. -/
def reqOfTag (s : State) (plane site tag : Nat) : Option (Nat × Req) :=
  s.reqs.find? fun x => decide (x.2.from_ = site ∧ x.2.origin = some plane ∧ x.2.tag = tag)

/-- The requests of some constituents. -/
def reqsOf (s : State) (plane : Nat) (list : List Constituent) : List (Nat × Req) :=
  list.filterMap fun c => reqOfTag s plane c.site c.tag

/-- The sum is added at the point of coherence: the old value. Every constituent's access is counted (R175). -/
def applySum (s : State) (plane home addr n sum : Nat) (list : List Constituent) : State × Nat :=
  let g := ptrGoid (BitVec.ofNat 64 addr)
  let old := readNat s.mem addr (n / 8)
  let s := clearErr { s with mem := writeNat s.mem addr (n / 8) ((old + sum) % 2 ^ n) } addr (n / 8)
  let s := list.foldl (fun s c => countAccess s (countSite s home g) g c.site) s
  ((reqsOf s plane list).foldl (fun s x => dropLine s x.2.ctx x.2.from_ (lineOf addr)) s, old)

def movesAt (s : State) (home addr : Nat) : Nat :=
  match sizeEntry s home (ptrGoid (BitVec.ofNat 64 addr)) with
  | some e => e.moves
  | none => 0

/-- R146: the lanes of one constituent rebuild their values from the value it received. -/
def laneAnswers (q : Req) (value : Nat) : List Ans :=
  let n := 8 * q.size
  (q.items.foldl (fun (acc : List Ans × Nat) i => (acc.1 ++ [⟨i.lane, acc.2 % 2 ^ n, 0⟩], acc.2 + i.data)) ([], value)).1

/-- R296, R311: a request whose answer has not come takes one, by its plane and tag; a second answer is discarded. -/
def answerTag (s : State) (plane site tag value home moves : Nat) : State :=
  match reqOfTag s plane site tag with
  | some (id, q) => if q.phase = .combining then
      putReq s id { q with phase := .replied, home := home, moves := moves, fromHome := true, applied := true,
                           answers := laneAnswers q value, left := s.now, port := home / 2 }
    else s
  | none => s

/-- R300: the constituents proceed as R178 gives after NOT-HERE, ASK or dead, singly. -/
def refuseAll (s : State) (plane site : Nat) (list : List Constituent) (phase : ReqPhase) : State :=
  (reqsOf s plane list).foldl (fun s x =>
    if x.2.phase ≠ .combining then s
    else if phase = .replied then deadReply s x.1 { x.2 with site := site }
    else putReq s x.1 { x.2 with phase := phase, resent := true }) s

/-- A constituent is sent again as a request that is not eligible. -/
def resendAll (s : State) (plane : Nat) (list : List Constituent) : State :=
  (reqsOf s plane list).foldl (fun s x => if x.2.phase = .egress ∨ x.2.phase = .combining then
    putReq s x.1 { x.2 with phase := .toSite, resent := true, left := s.now, port := x.2.from_ / 2 } else s) s

def freeRec (s : State) (plane port record : Nat) : State :=
  setFabric s fun f => { f with records := tdel f.records (recordKey plane port record) }

/-- R191: the stub a combined message meets counts it. -/
def stubCount (s : State) (site addr : Nat) : State :=
  let g := ptrGoid (BitVec.ofNat 64 addr)
  match objAt s site g with
  | some e => if e.state = .stub then putObj s site g { e with forwarded := e.forwarded + 1 } else s
  | none => s

/-- R173, R300: a combined message that meets a frame in transfer takes its place in the Flume queue, where there is room (R137). -/
def msgQueued (s : State) (msg site addr : Nat) : State :=
  if Config.flumeQueue ≤ flumeUse s site then s else queueAt s site (ptrGoid (BitVec.ofNat 64 addr)) msg

/-- CREQ (R300): the home adds the sum, keeps a receipt and answers CRSP; a full receipt buffer answers SPLIT. A message to a device
that has left the pod is lost (R301). -/
def execCreq (msg : Nat) (s : State) : Out :=
  match tget s.fabric.msgs msg with
  | some (.creq record plane port site addr wide list sum hops) =>
    let n := if wide then 64 else 32
    let refused (phase : ReqPhase) : Out :=
      .next (freeRec (refuseAll (dropMsg (stubCount s site addr) msg) plane site list phase) plane port record)
    if s.fabric.absent.contains (site / 2) then .next (dropMsg s msg)
    else match combinedAt s site addr n hops with
    | .queued => .next (msgQueued s msg site addr)
    | .forward dst stub => .next (putMsg (stubCount s site addr) msg
        (.creq record plane port dst addr wide list sum (if stub then hops + 1 else hops)))
    | .resend => .next (addMsg (dropMsg s msg) (.split record plane port))
    | .notHere => refused .notHere
    | .asked => refused .asked
    | .dead => refused .replied
    | .apply home =>
      if Config.receiptEntries ≤ (siteOf s home).receipts.length then
        .next (addMsg (dropMsg s msg) (.split record plane port))
      else
        let (s, old) := applySum (dropMsg s msg) plane home addr n sum list
        let moves := movesAt s home addr
        let receipt : Receipt := ⟨record, plane, port, list, old, home, moves, addr, wide⟩
        let s := modSite s home fun x => { x with receipts := x.receipts ++ [receipt] }
        .next (addMsg s (.crsp record plane port home old moves wide))
  | _ => .next s

/-- CRED (R300): the home applies the sum and answers CACK. R302: it keeps that it applied the requests. -/
def execCred (msg : Nat) (s : State) : Out :=
  match tget s.fabric.msgs msg with
  | some (.cred plane port site addr wide list sum hops) =>
    let n := if wide then 64 else 32
    let refused (phase : ReqPhase) : Out := .next (refuseAll (dropMsg (stubCount s site addr) msg) plane site list phase)
    if s.fabric.absent.contains (site / 2) then .next (dropMsg s msg)
    else match combinedAt s site addr n hops with
    | .queued => .next (msgQueued s msg site addr)
    | .forward dst stub => .next (putMsg (stubCount s site addr) msg
        (.cred plane port dst addr wide list sum (if stub then hops + 1 else hops)))
    | .resend => .next (resendAll (dropMsg s msg) plane list)
    | .notHere => refused .notHere
    | .asked => refused .asked
    | .dead => refused .replied
    | .apply home =>
      let (s, _) := applySum (dropMsg s msg) plane home addr n sum list
      let moves := movesAt s home addr
      let s := (reqsOf s plane list).foldl (fun s x => putReq s x.1
        { x.2 with applied := true, home := home, moves := moves, fromHome := true, answers := laneAnswers x.2 0 }) s
      .next (addMsg s (.cack plane list home moves))
  | _ => .next s

/-! ### In the Sluice (R300, R301, R311, R312) -/

/-- CRSP (R300, R312): the record decombines the old value, or LOST goes back when the record is not valid. -/
def execCrsp (msg : Nat) (recordError : Bool) (s : State) : Out :=
  match tget s.fabric.msgs msg with
  | some (.crsp record plane port home old moves wide) =>
    let n := if wide then 64 else 32
    let s := dropMsg s msg
    match tget s.fabric.records (recordKey plane port record) with
    | none => .next (addMsg s (.lost record plane port home))
    | some r =>
      let s := freeRec s plane port record
      if recordError || r.bad then
        let s := setFabric s fun f => { f with counters := tput f.counters plane (tgetD f.counters plane 0 + 1) }
        .next (addMsg s (.lost record plane port home))
      else
        let s := r.list.foldl (fun s c => answerTag s plane c.site c.tag ((old + c.off) % 2 ^ n) home moves) s
        .next (addMsg s (.done record plane port home))
  | _ => .next s

/-- CACK (R300): the Sluice acknowledges each constituent of the list. -/
def execCack (msg : Nat) (s : State) : Out :=
  match tget s.fabric.msgs msg with
  | some (.cack plane list home moves) =>
    .next (list.foldl (fun s c => answerTag s plane c.site c.tag 0 home moves) (dropMsg s msg))
  | _ => .next s

/-- SPLIT (R300): the Sluice frees the record and resends each constituent. -/
def execFabSplit (msg : Nat) (s : State) : Out :=
  match tget s.fabric.msgs msg with
  | some (.split record plane port) =>
    let s := dropMsg s msg
    match tget s.fabric.records (recordKey plane port record) with
    | some r => .next (freeRec (resendAll s plane r.list) plane port record)
    | none => .next s
  | _ => .next s

/-- The receipt of a record at a site. -/
def receiptOf (s : State) (site record plane port : Nat) : Option Receipt :=
  (siteOf s site).receipts.find? fun r => decide (r.record = record ∧ r.plane = plane ∧ r.port = port)

def dropReceipt (s : State) (site record plane port : Nat) : State :=
  modSite s site fun x => { x with receipts := x.receipts.filter fun r => decide (r.record ≠ record ∨ r.plane ≠ plane ∨ r.port ≠ port) }

/-- R312: the plane that an answer from a receipt travels on: the record's while it is live, otherwise that of the counter's line at its
home. -/
def drspPlane (s : State) (plane home addr : Nat) : Nat :=
  if s.fabric.down.contains plane then planeOf s (home / 2) addr else plane

/-- R301: a Tabor sends one DRSP per constituent of a receipt, in list order. -/
def sendDrsps (s : State) (r : Receipt) : State :=
  r.list.foldl (fun s c => addMsg s (.drsp (drspPlane s r.plane r.home r.addr) r.plane c.site c.tag
    ((r.old + c.off) % 2 ^ (if r.wide then 64 else 32)) r.home r.moves)) s

/-- DONE (R300): the Tabor frees the receipt. -/
def execFabDone (msg : Nat) (s : State) : Out :=
  match tget s.fabric.msgs msg with
  | some (.done record plane port site) => .next (dropReceipt (dropMsg s msg) site record plane port)
  | _ => .next s

/-- LOST (R301, R312): the Tabor answers from the receipt, then frees it; without one the LOST is discarded. -/
def execFabLost (msg : Nat) (s : State) : Out :=
  match tget s.fabric.msgs msg with
  | some (.lost record plane port site) =>
    let s := dropMsg s msg
    match receiptOf s site record plane port with
    | some r => .next (dropReceipt (sendDrsps s r) site record plane port)
    | none => .next s
  | _ => .next s

/-- DRSP (R311): the requesting die matches it to its outstanding request by plane and tag. -/
def execDrsp (msg : Nat) (s : State) : Out :=
  match tget s.fabric.msgs msg with
  | some (.drsp _ plane site tag value home moves) => .next (answerTag (dropMsg s msg) plane site tag value home moves)
  | _ => .next s

/-! ### Planes (R294, R302, R303) -/

/-- R302: what becomes of a message when its plane goes down: a message of a combined request is lost, its receipt or its resend
standing for it; an answer from a receipt and a multicast store go on over another plane. -/
def overPlane (s : State) (plane : Nat) (m : Msg) : Option Msg :=
  let keep (p : Nat) : Option Msg := if p = plane then none else some m
  match m with
  | .creq _ p _ _ _ _ _ _ _ => keep p
  | .cred p _ _ _ _ _ _ _ => keep p
  | .crsp _ p _ _ _ _ _ => keep p
  | .cack p _ _ _ => keep p
  | .split _ p _ => keep p
  | .done _ p _ _ => keep p
  | .lost _ p _ _ => keep p
  | .drsp via p site tag value home moves =>
    if via = plane then
      some (.drsp (planeOf s (home / 2) ((reqOfTag s p site tag).elim 0 fun x => reqPtr x.2)) p site tag value home moves)
    else some m
  | .mcast team ctx entry gid p set data pending failed sent =>
    if p = plane then some (.mcast team ctx entry gid (planeOf s gid (data.headD (0, [])).1) set data pending failed sent) else some m

/-- R303: how a request that no device answers ends: loads fault with a cause, atomics with another, and what returns nothing
counts as acknowledged and goes into the fault log. -/
def endRequest (s : State) (id : Nat) (q : Req) (cause atomCause : Nat) : State :=
  let done (as_ : List Ans) := { q with phase := .replied, fromHome := false, applied := true, answers := as_ }
  let acked : State := match tget s.ctxs q.ctx with
    | some c => modVf (putReq s id (done (q.items.map fun i => ⟨i.lane, 0, 0⟩))) c.dev c.vf fun v =>
        { v with log := v.log ++ [⟨0, q.items.length, 0, cause⟩] }
    | none => s
  match q.kind with
  | .load _ _ => putReq s id (done (faultAll q cause))
  | .watch => putReq s id (done (faultAll q cause))
  | .atom _ => putReq s id (done (faultAll q atomCause))
  | .store => acked
  | .red _ => acked

/-- R302 steps 2 to 5: an unanswered request of the plane is held and sent again over the live planes, unless an answer from a receipt
is on its way to it; with no plane up it ends with 0x281 (R303). One whose target has left the pod stays held. -/
def resendHeld (covered : List (Nat × Nat × Nat)) (plane : Nat) (s : State) (x : Nat × Req) : State :=
  let q := x.2
  if decide (q.plane ≠ plane ∨ q.site / 2 = q.from_ / 2) || covered.contains (q.origin.getD 32, q.from_, q.tag) ||
      decide (q.phase = .replied ∨ q.phase = .queued) then s
  else if (livePlanes s).isEmpty then
    endRequest s x.1 q 0x281 0x281
  else
    let phase := if q.phase = .egress ∨ q.phase = .combining then ReqPhase.toSite else q.phase
    let plane := if lostTarget s q then plane else planeOf s (q.site / 2) (reqPtr q)
    putReq s x.1 { q with phase := phase, resent := true, plane := plane, sent := clock s (q.from_ / 2), left := s.now,
                          port := q.from_ / 2 }

/-- The answers from receipts that are on their way, by plane, site and tag. -/
def drspsOut (s : State) : List (Nat × Nat × Nat) :=
  s.fabric.msgs.filterMap fun x => match x.2 with
    | .drsp _ p site tag _ _ _ => some (p, site, tag)
    | _ => none

/-- R302: the devices that cannot acknowledge a recovery yet. -/
def silent (s : State) : List Nat := (s.devs.filter fun d => !d.2.powered && !s.fabric.absent.contains d.1).map (·.1)

/-- R301, R302: a plane goes down: it leaves every live set; receipts answer by DRSP, the rest is sent again. A reset of a plane that
is down already, its recovery ended, is the later recovery at whose end it returns. -/
def takeDown (s : State) (plane : Nat) : State :=
  if 32 ≤ plane ∨ (tget s.fabric.recovering plane).isSome then s
  else if plane ∈ s.fabric.down then
    setFabric s fun f => { f with recovering := tput f.recovering plane (true, silent s) }
  else
    let mine (r : Receipt) : Bool := decide (r.plane = plane)
    let rs := s.sites.flatMap fun x => x.2.receipts.filter mine
    let s := setFabric s fun f => { f with
      down := plane :: f.down
      recovering := tput f.recovering plane (false, silent s)
      combs := f.combs.filter fun e => decide (e.2.plane ≠ plane)
      records := f.records.filter fun r => decide (r.2.plane ≠ plane) }
    let s := setFabric s fun f => { f with msgs := f.msgs.filterMap fun m => (overPlane s plane m.2).map fun y => (m.1, y) }
    let s := { s with sites := s.sites.map fun x => (x.1, { x.2 with receipts := x.2.receipts.filter fun r => !mine r }) }
    let s := rs.foldl sendDrsps s
    s.reqs.foldl (resendHeld (drspsOut s) plane) s

/-- FLIT_RETRY (R294): a flit that fails its CRC is tried again; the 64th failure takes the plane down. -/
def execFlitRetry (dev port : Nat) (crcOk : Bool) (s : State) : Out :=
  let key := dev * 32 + port
  if 32 ≤ port then .next s
  else if crcOk then .next (setFabric s fun f => { f with retries := tdel f.retries key })
  else
    let n := tgetD s.fabric.retries key 0 + 1
    if n < 64 then .next (setFabric s fun f => { f with retries := tput f.retries key n })
    else .next (takeDown (setFabric s fun f => { f with retries := tdel f.retries key }) port)

/-- PLANE_DOWN (R302): a plane goes down. -/
def execPlaneDown (plane : Nat) (s : State) : Out := .next (takeDown s plane)

/-- R303: an object at home on a device that has left the pod, or born there. -/
def awayObject (s : State) (key : Nat) : Bool :=
  let g := ptrGoid (BitVec.ofNat 64 key)
  decide (key < 2 ^ 64) && (s.fabric.absent.contains (goidSite g / 2) || s.fabric.absent.contains (homeSite s g / 2))

/-- R303: the waits on words of such objects end; the WAITA, issued again, meets the cause. -/
def wakeAway (s : State) : State :=
  { s with teams := s.teams.map fun x => match x.2.wait with
      | .waita _ _ watch => if watch.any fun y => awayObject s y.key then (x.1, wake x.2) else x
      | _ => x }

/-- PLANE_RECOVERY_END (R302, R303): once every device has acknowledged, the recovery of a plane ends; a second one returns the plane to
the live set. The requests to devices that have left the pod end, and so do the waits on what they hold. -/
def execPlaneRecoveryEnd (plane : Nat) (s : State) : Out :=
  match tget s.fabric.recovering plane with
  | none => .next s
  | some (returns, waiting) =>
    if waiting.any fun d => (silent s).contains d then .next s
    else
      let s := setFabric s fun f => { f with
        recovering := tdel f.recovering plane
        down := if returns then f.down.filter (· ≠ plane) else f.down }
      .next (wakeAway <| s.reqs.foldl (fun s x =>
        if decide (x.2.plane = plane) && lostTarget s x.2 && decide (x.2.phase ≠ .replied) then endRequest s x.1 x.2 0x280 0x2C3 else s) s)

/-- REQUEST_TIMEOUT (R303): a request unanswered after 2 ms on a live plane raises the plane's recovery. -/
def execRequestTimeout (req : Nat) (s : State) : Out :=
  match tget s.reqs req with
  | none => .next s
  | some q =>
    if decide (q.phase = .replied ∨ q.site / 2 = q.from_ / 2 ∨ q.plane ∈ s.fabric.down ∨
        clock s (q.from_ / 2) < q.sent + usAc 2000) then .next s
    else .next (takeDown s q.plane)

/-! ### Multicast (R304, R153) -/

/-- R305: an earlier multicast store of the same context to the same line of the group's windows. -/
def sameMcast (ctx gid : Nat) (data : List (Nat × List Byte)) : Msg → Bool
  | .mcast _ c _ g _ _ d _ _ _ => decide (c = ctx ∧ g = gid ∧ (d.headD (0, [])).1 / 64 = (data.headD (0, [])).1 / 64)
  | _ => false

/-- MCAST_REPLICATE (R304): the Sluice sends the write to every member, in the order of issue (R305). -/
def execMcastReplicate (msg : Nat) (s : State) : Out :=
  match tget s.fabric.msgs msg with
  | some (.mcast team ctx entry gid plane set data pending failed false) =>
    let first := s.fabric.msgs.any fun x => decide (x.1 < msg) && sameMcast ctx gid data x.2 && match x.2 with
      | .mcast _ _ _ _ _ _ _ _ _ sent => !sent
      | _ => false
    .next (if first then s else putMsg s msg (.mcast team ctx entry gid plane set data pending failed true))
  | _ => .next s

/-- R304: the bytes are written only where all of them can be. -/
def memberWrite (s : State) (ctx gid rank : Nat) (data : List (Nat × List Byte)) : McastRes :=
  match tget s.ctxs ctx, memberOf s gid rank with
  | some c, some (mid, m, g) =>
    if (livePlanes s).isEmpty then .failed (some 0x281)
    else match unreachable s c.dev m.dev with
      | some e => .failed (some e)
      | none =>
        if data.any fun x => decide (g.bytes.toNat < x.1 + x.2.length) then .failed none
        else match data.foldl (fun (acc : Except McastRes State) x => match acc with
            | .error e => .error e
            | .ok t => match windowKey s m g x.1 with
              | .error e => .error e
              | .ok key => .ok (storeRun t mid (ctxSite m) key x.2)) (.ok s) with
          | .error e => e
          | .ok t => .done t
  | _, _ => .failed none

/-- R186: a member's page that is not present is posted to its VF firmware core. -/
def postMember (s : State) (gid rank off : Nat) : State :=
  match memberOf s gid rank with
  | none => s
  | some (mid, m, g) =>
    let post : PagePost := ⟨mid, 0, (advance g.base (off : Int)).toNat % 2 ^ 60, true⟩
    modVf s m.dev m.vf fun v => if v.posts.contains post then v else { v with posts := v.posts ++ [post] }

/-- R303: a member that was not reached is recorded in the fault log of the issuing context's VF. -/
def logMember (s : State) (ctx : Nat) (cause : Option Nat) : State :=
  match cause, tget s.ctxs ctx with
  | some e, some c => modVf s c.dev c.vf fun v => { v with log := v.log ++ [⟨0, 1, 0, e⟩] }
  | _, _ => s

/-- MCAST_MEMBER_ANSWER (R304, R305): a member's home makes the write, after those of earlier multicast stores to the line, and answers
with success or failure. -/
def execMcastMemberAnswer (msg rank : Nat) (s : State) : Out :=
  match tget s.fabric.msgs msg with
  | some (.mcast team ctx entry gid plane set data pending failed true) =>
    let later := s.fabric.msgs.any fun x => decide (x.1 < msg) && sameMcast ctx gid data x.2 && match x.2 with
      | .mcast _ _ _ _ _ _ _ p _ _ => p.contains rank
      | _ => false
    let answer (s : State) (failed : LaneSet) : Out :=
      .next (putMsg s msg (.mcast team ctx entry gid plane set data (pending.filter (· ≠ rank)) failed true))
    if !pending.contains rank || later then .next s
    else match memberWrite s ctx gid rank data with
      | .page off => .next (postMember s gid rank off)
      | .done s => answer s failed
      | .failed cause => answer (logMember s ctx cause) (failed ||| (1#1024 <<< rank))
  | _ => .next s

/-- R153: a nonzero bitmap goes into the entry's failure word, and its cause waits for the team's next release, or for the
completion record when the team has ended. -/
def mcastFailed (s : State) (team ctx entry : Nat) (failed : LaneSet) : State :=
  if failed = 0 then s
  else
    let s := modCtx s ctx fun c => { c with groups := tmod c.groups entry fun g => { g with failure := g.failure ||| failed } }
    match tget s.teams team with
    | some t =>
      if t.ended then match tget s.blocks t.block with
        | some b => modNode s b.node fun n => { n with mcfail := true }
        | none => s
      else putTeam s team { t with mcfail := if t.mcfail.contains entry then t.mcfail else t.mcfail ++ [entry] }
    | none => match tget s.ctxs ctx with
      | some c => modNode s c.node fun n => { n with mcfail := true }
      | none => s

/-- MCAST_ACK_RECEIVE (R153, R304): the merged acknowledgement returns once every member has answered. -/
def execMcastAckReceive (msg : Nat) (s : State) : Out :=
  match tget s.fabric.msgs msg with
  | some (.mcast team ctx entry _ _ set _ [] failed true) =>
    .next (ackCtx (mcastFailed (dropMsg s msg) team ctx entry failed) ctx set)
  | _ => .next s

/-! ### The end of a frame's transfer (R173) -/

def outOf (s : State) : Out → State
  | .next t => t
  | _ => s

/-- R173: what is queued behind a frame is served where the frame has gone: a request, a combined message, or an engine's row. -/
def serveQueued (s : State) (dst id : Nat) : State :=
  match tget s.reqs id with
  | some q => if q.phase = .queued then serveReq s id { q with site := dst, viaMove := true } else s
  | none => match tget s.fabric.msgs id with
    | some (.creq ..) => outOf s (execCreq id s)
    | some (.cred ..) => outOf s (execCred id s)
    | _ =>
      let of (b : Nat) (gather : Bool) (q : List EngOp) : Option EngRef :=
        (q.find? fun x => decide (x.ticket = some id)).map fun x => ⟨b, gather, x.num⟩
      match s.blocks.findSome? fun b => (of b.1 false b.2.copyQ).orElse fun _ => of b.1 true b.2.gathQ with
      | some r => outOf s (execEngineAccess r s)
      | none => s

/-- R173: FRAME_TRANSFER_DONE: what is queued is served at the destination in arrival order, the accesses that the queue had no
room for reach the site again (R137), then the next frame goes into transfer, or the move ends (R174). -/
def execFrameTransferDone (move : Nat) (s : State) : Out :=
  match tget s.moves move with
  | none => .next s
  | some m =>
    if m.frames ≤ m.frame then .next (moveEnd s move m)
    else
      let m' := { m with frame := m.frame + 1, queue := [] }
      let s := m.queue.foldl (fun s id => serveQueued s m.dst id) { s with moves := tput s.moves move m' }
      let s := { s with reqs := s.reqs.map fun x =>
        if x.2.phase = .held ∧ x.2.site = m.src then (x.1, { x.2 with phase := .toSite }) else x }
      if m'.frame = m'.frames then .next (moveEnd s move m')
      else
        let lo := goidPtr m.goid (m'.frame * Config.frameBytes)
        .next (wakeRange s lo (lo + Config.frameBytes))

end Sys2Proof.Machine
end

