-- ==== Sys2Proof/Machine/Issue.lean ====
section
/-! DEFINITION. The issue of an instruction: its fetch (R65, R209), its decode (R83, R84), lane-fault traps (R278),
breakpoints and steps (R287, R290), and the order in which the teams of a context issue (R339, R125). -/
namespace Sys2Proof.Machine

/-! ### Fetch (R64, R65, R209) -/

/-- R65: where the bytes of a parcel are kept; none where the address has no code mapping (log 10). -/
def codeKey (w : View) (p : Dbl) : Option Nat :=
  if isObject p then
    if ptrGoid p = ptrGoid w.n.desc.kernel ∧ ptrOff p + 2 ≤ w.n.codeSize then some p.toNat else none
  else if region p = 0 ∧ sub p 0 60 < 2 ^ 48 then
    match (tget w.c.roots 0).map fun root => walkLevel w.n.code w.c.dev 0 (sub p 0 60) 3 root with
    | some (.page x) => some (slotKey w.c.dev x.key (x.pa + sub p 0 12))
    | _ => none
  else none

/-- One parcel, from memory as it stood at the launch's dispatch (R209). -/
def parcel (w : View) (p : Dbl) : Option Nat := (codeKey w p).map fun k => readNat w.n.code k 2

/-- R84: an instruction word and its bytes, or the detail of 0x004. -/
def fetchWord (w : View) (pc : Dbl) : Except Nat (Nat × Nat) :=
  match parcel w pc with
  | none => .error 0
  | some p0 =>
    let n := lengthOf p0 / 2
    ((List.range (n - 1)).foldl (fun (acc : Except Nat (Nat × Nat)) i => match acc with
      | .error e => .error e
      | .ok (x, k) => match parcel w (pc + BitVec.ofNat 64 (2 * (i + 1))) with
        | some q => .ok (x + q * 2 ^ (16 * (i + 1)), k)
        | none => .error (2 ^ 16 * (i + 1) + p0)) (.ok (p0, 2 * n)))

/-! ### Inside an instruction -/

/-- R31, R281: an instruction of the team has begun and has not ended: it waits, or some of its lanes or mask words are made. -/
def midInstr (t : Team) : Bool := decide (t.wait ≠ .none ∨ t.swept ≠ 0 ∨ t.served ≠ 0)

/-! ### Lane-fault traps (R278) -/

/-- R278: a lane fault traps at this instruction boundary. -/
def laneTrapDue (t : Team) : Bool :=
  decide (t.lfnew ≠ 0) && t.lfmode.getLsbD 0 && !t.handler && !t.ended && t.halt.isNone && !midInstr t && decide (t.mask ≠ 0)

/-- LANE_FAULT_TRAP (R278): one trap for the lowest lane recorded. -/
def execLaneFaultTrap (team : Nat) (s : State) : Out :=
  match tget s.teams team with
  | none => .next s
  | some t =>
    if laneTrapDue t then
      let l := lowBit t.lfnew.toNat t.size
      .next (raiseAt (putTeam s team { t with lfnew := 0 }) team (tgetD t.lfcause l 0).toNat (BitVec.ofNat 32 l) t.pc)
    else .next s

/-! ### Breakpoints, steps and run-to (R287, R290, R291) -/

/-- R287: the lowest enabled breakpoint at the team's pc. -/
def breakAt (s : State) (w : View) (id : Nat) : Option Nat :=
  if !w.c.attached then none
  else (List.range 8).find? fun i =>
    let c := tgetD w.c.dbc i 0
    c.getLsbD 0 && (!c.getLsbD 1 || decide (sub c 2 4 = teamIndex s w.c id)) && decide (tgetD w.c.dba i 0 = w.t.pc)

/-- R287: the team halts, or takes 0x300. -/
def takeBreak (s : State) (w : View) (id i : Nat) : State :=
  if sub (tgetD w.c.dbc i 0) 6 2 = 1 then raiseAt s id 0x300 (BitVec.ofNat 32 i) w.t.pc
  else putTeam s id { w.t with halt := some (0x300, BitVec.ofNat 32 i) }

/-- R290, R291: RUNTO has reached the debug PC, or its path's end popped the frame of the detach. -/
def runtoDone (t : Team) : Bool :=
  t.running && match t.detach with
    | some d => decide (t.frames.length < d.depth) || (decide (t.pc = d.pc) && decide (t.frames.length = d.depth))
    | none => true

/-- RUNTO_REACHED (R290): the team halts with 0x302. -/
def execRuntoReached (team : Nat) (s : State) : Out :=
  match tget s.teams team with
  | some t => .next (if runtoDone t then putTeam s team { t with running := false, halt := some (0x302, 0) } else s)
  | none => .next s

/-! ### What an attempt to issue meets -/

/-- No instruction issues, the instruction raises its cause at its fetch or decode, or it is to be executed; R280: `bad` is a predicate
it reads that holds an uncorrectable error. -/
inductive Attempt where
  | idle (s : State)
  | fault (s : State)
  | run (s : State) (d : Decoded) (bad : Option Nat)

/-- R31: a wait that ends only by an event, not by another look at its condition. -/
def eventWait (t : Team) : Bool :=
  match t.wait with
  | .page => true
  | .sleep _ => true
  | .racq _ => true
  | .waita woken _ _ => !woken
  | .hold => t.held.isSome
  | _ => false

/-- The kinds of unit of R32: sweep pipe, uniform unit, load-store unit. -/
inductive UnitKind where
  | pipe | uni | lsu
deriving DecidableEq, Repr

/-- R32: the kind of unit an instruction word needs, by its length and major. -/
def kindOf (w : Nat) : UnitKind :=
  let maj := w / 4 % 64
  if w % 2 = 0 then .pipe
  else if w % 4 = 1 then
    if maj ≤ 0x17 then .pipe
    else if maj ≤ 0x1F ∨ maj = 0x2A then .uni
    else .lsu
  else if maj ≤ 0x09 then .pipe
  else if 0x10 ≤ maj ∧ maj ≤ 0x15 then .lsu
  else .uni

/-- R339, R125: the team moves to the most recent place of the unit it issues on. -/
def markIssue (s : State) (id : Nat) (k : UnitKind) : State :=
  let n := s.issues + 1
  modTeam { s with issues := n } id fun (t : Team) =>
    let t := { t with skipBreak := false, yielded := none, lfnew := if midInstr t then t.lfnew else 0 }
    match k with
    | .pipe => { t with lastPipe := n }
    | .uni => { t with lastUni := n }
    | .lsu => { t with lastLsu := n }

/-- R70, R74: the predicate that guards an instruction word; 0 where its format names none. -/
def guardOf (x : Nat) : Nat :=
  let maj := x / 4 % 64
  if x % 4 = 1 then (if (1 ≤ maj ∧ maj ≤ 0x0F) ∨ (0x20 ≤ maj ∧ maj ≤ 0x29) then x / 2 ^ 29 % 8 else 0)
  else if x % 4 = 3 then
    if 1 ≤ maj ∧ maj ≤ 6 then x / 2 ^ 44 % 8
    else if maj = 8 ∨ maj = 9 ∨ maj = 0x0B then x / 2 ^ 28 % 8
    else if 0x10 ≤ maj ∧ maj ≤ 0x15 then x / 2 ^ 37 % 8
    else 0
  else 0

/-- The predicates an instruction reads besides its guard. -/
def predSources (i : Instr) : List Nat :=
  match i with
  | .isel o => [sub o.vc 0 3]
  | .voteAny o => [sub o.va 0 3]
  | .voteAll o => [sub o.va 0 3]
  | .voteBallot o => [sub o.va 0 3]
  | .voteFfs o => [sub o.va 0 3]
  | .plop o => [sub o.va 0 3, sub o.vb 0 3, sub o.vc 0 3]
  | .pmovGet _ => [1, 2, 3, 4, 5, 6, 7]
  | .bra o => [o.p.toNat]
  | .brm o => [sub o.c0 0 3, sub o.c1 0 3, sub o.c2 0 3, sub o.c3 0 3]
  | _ => []

/-- R280: the first predicate an instruction reads that holds an uncorrectable error in a lane of the mask. -/
def badPred (t : Team) (x : Nat) (i : Instr) : Option Nat :=
  if t.badP.isEmpty then none
  else (guardOf x :: predSources i).find? fun n => n ≠ 0 && t.badP.any fun k => decide (k % 8 = n) && t.mask.getLsbD (k / 8)

/-- R83 steps 5 and 6: the registers an instruction names fault; they are looked at before what a source holds (R280). `run` is its
meaning, tried on a copy of the machine in which a handler shows the cause. -/
def namesFault (run : State → Out) (s : State) (id : Nat) : Bool :=
  match viewOf s id with
  | none => false
  | some w =>
    let s := modNode (modBlock { s with cur := id } w.t.block fun b => { b with provisional := false }) w.b.node fun n =>
      { n with desc := { n.desc with handler := some 0 } }
    match run (modTeam s id fun t => { t with handler := false }) with
    | .next u => (tget u.teams id).any fun t => t.handler && (decide (t.trapcause = 3) || decide (t.trapcause = 5))
    | _ => false

/-- R287, R290, R278: something stops the team at this instruction boundary, before its next instruction begins. -/
def boundary (s : State) (w : View) (id : Nat) : Bool :=
  runtoDone w.t || laneTrapDue w.t || (!w.t.skipBreak && (breakAt s w id).isSome)

/-- The attempt of a team to issue (R83 steps 1 to 4; steps 5 and 6 follow in the meanings). -/
def attempt (s : State) (id : Nat) : Attempt :=
  let s := { s with cur := id }
  match viewOf s id with
  | none => .idle s
  | some w =>
    let t := w.t
    if t.ended || t.halt.isSome || eventWait t || decide (w.c.state ≠ .running) || !w.b.filled then .idle s
    else if runtoDone t then match execRuntoReached id s with
      | .next s => .idle s
      | _ => .idle s
    else if laneTrapDue t then match execLaneFaultTrap id s with
      | .next s => .idle s
      | _ => .idle s
    else match (if t.skipBreak || midInstr t then none else breakAt s w id) with
      | some i => .idle (takeBreak s w id i)
      | none => match fetchWord w t.pc with
        | .error info => .fault (raise (markIssue s id .uni) 4 info)
        | .ok (x, _) =>
          let s := markIssue s id (kindOf x)
          match decodeWord x with
          | .bad r => .fault (raise s (match r with
              | .major => 0
              | .minor => 1
              | .field => 2) (x % 2 ^ 32))
          | .ok i => .run s (.ok i) (badPred t x i)
          | d => .run s d none

/-- A team that ended without an instruction may close a register-wait cycle (R24). -/
def afterIdle (s : State) (id : Nat) : State :=
  match viewOf s id with
  | some w => if w.t.ended then racqCycle s w.b.ctx else s
  | none => s

/-- After an instruction, or a part of one: a step asked for, and a halt that waited for the end, come when it has ended, the halt
also when it blocks (R290); a team that ended may close a register-wait cycle (R24). -/
def afterIssue (s : State) (id : Nat) : State :=
  match viewOf s id with
  | none => s
  | some w =>
    if w.t.ended then racqCycle s w.b.ctx
    else if w.t.haltDue && (decide (w.t.wait ≠ .none) || !midInstr w.t) then
      putTeam s id { w.t with haltDue := false, stepping := false, running := false,
                              halt := if w.t.halt.isSome then w.t.halt else some (0x304, 0) }
    else if w.t.stepping && !midInstr w.t then
      putTeam s id { w.t with stepping := false, halt := if w.t.halt.isSome then w.t.halt else some (0x302, 0) }
    else s

/-! ### The order of issue (R339, R125) -/

/-- The unit a team's next instruction needs, and when the team last issued on a unit. -/
def nextKind (s : State) (id : Nat) : UnitKind :=
  match viewOf s id with
  | some w => match fetchWord w w.t.pc with
    | .ok (x, _) => kindOf x
    | .error _ => .uni
  | none => .uni

def lastOn (t : Team) : UnitKind → Nat
  | .pipe => t.lastPipe
  | .uni => t.lastUni
  | .lsu => t.lastLsu

/-- R125: no other ready team of the context that needs the unit has yet to issue on it since the YIELD. Of two teams that have
both yielded, the one that yielded first goes first (log 43). -/
def yieldOver (s : State) (ready : List Nat) (id : Nat) : Bool :=
  match viewOf s id with
  | none => true
  | some w => match w.t.yielded with
    | none => true
    | some y =>
      let k := nextKind s id
      ready.all fun i => decide (i = id) || match viewOf s i with
        | some v => decide (v.b.ctx ≠ w.b.ctx) || decide (nextKind s i ≠ k) || decide (y < lastOn v.t k) ||
            v.t.yielded.any fun z => decide (y < z)
        | none => true

/-- R339: the ready team whose last issue on the kind of unit it needs lies furthest back; ties go to the lower index. -/
def pickTeam (s : State) (ready : List Nat) : Option Nat :=
  ((ready.filter (yieldOver s ready)).foldl (fun (best : Option (Nat × Nat)) id =>
    let n := match tget s.teams id with
      | some t => lastOn t (nextKind s id)
      | none => 0
    match best with
    | some b => if n < b.2 then some (id, n) else best
    | none => some (id, n)) none).map (·.1)

/-- R339: a ready team is the one that the unit of the kind it needs would take of its context. -/
def firstOnUnit (s : State) (ready : List Nat) (id : Nat) : Bool :=
  match viewOf s id with
  | none => false
  | some w =>
    let k := nextKind s id
    let same := ready.filter fun i => decide (nextKind s i = k) && (viewOf s i).any fun v => decide (v.b.ctx = w.b.ctx)
    decide (pickTeam s same = some id)

/-- The teams of the running contexts, in context team index order (R286). -/
def runningTeams (s : State) : List Nat :=
  s.ctxs.flatMap fun x => if x.2.state = .running then (ctxTeams s x.2).map (·.1) else []

end Sys2Proof.Machine
end

