-- ==== Sys2Proof/Machine/Services.lean ====
section
/-! DEFINITION. Firmware services and SYS (R248, R321, R330), the firmware rings (R315-R320), and what the host does through
its BAR windows (R187, R212, R313, R337). -/
namespace Sys2Proof.Machine

/-! ### Arguments of a service -/

/-- What firmware meets when it reads or writes an argument. -/
inductive SvcIo where
  | bad
  | wait (s : State) (w : Wait)
  | ok (s : State) (bytes : List Byte)

/-- R321: where a byte of an argument is: in the memory of the calling team, or for a ring slot in host memory (log 27). -/
def svcPlace (s : State) (c : SvcCall) (p : Dbl) (write : Bool) : Direct :=
  match c.team with
  | none => .runs [(hostKey p.toNat, 1)] [] false false
  | some id => match viewOf s id with
    | some w => direct s w id p 1 write
    | none => .fail 0

/-- The stall of an argument's page is posted as the team's own (R186). -/
def svcStall (s : State) (c : SvcCall) (reg va : Nat) (write : Bool) (host : Option Nat) : SvcIo :=
  match c.team.bind (viewOf s) with
  | some w => .wait (postPage s w w.b.ctx reg va write host) .page
  | none => .bad

/-- R178: the way of an access of firmware for a team. -/
def svcRoute (s : State) (c : SvcCall) (p : Dbl) : State :=
  match c.team.bind (viewOf s) with
  | some w => routed s w.c p
  | none => s

/-- Reads `n` bytes of an argument. -/
def svcRead (s : State) (c : SvcCall) (p : Dbl) (n : Nat) : SvcIo :=
  (List.range n).foldl (fun (acc : SvcIo) (i : Nat) => match acc with
    | .ok s bs => match svcPlace s c (advance p (i : Int)) false with
      | .fail _ => .bad
      | .stall reg va host => svcStall s c reg va false host
      | .queued => .wait s .move
      | .runs rs _ _ _ => match engineRead s 0 false rs with
        | .ok b => .ok s (bs ++ b)
        | .error _ => .bad
    | r => r) (.ok (svcRoute s c p) [])

/-- Writes bytes of an argument. -/
def svcWrite (s : State) (c : SvcCall) (p : Dbl) (bs : List Byte) : SvcIo :=
  let (ctx, site) := match c.team.bind (viewOf s) with
    | some w => (w.b.ctx, ctxSite w.c)
    | none => (s.fresh, 2 * c.dev)
  bs.zipIdx.foldl (fun (acc : SvcIo) x => match acc with
    | .ok s _ => match svcPlace s c (advance p (x.2 : Int)) true with
      | .fail _ => .bad
      | .stall reg va host => svcStall s c reg va true host
      | .queued => .wait s .move
      | .runs rs _ _ _ => .ok (rs.foldl (fun s r => storeRun s ctx site r.1 [x.1]) s) []
    | r => r) (.ok (svcRoute s c p) [])

/-- What firmware answers to a call. -/
inductive Served where
  | wait (s : State) (w : Wait)
  | done (s : State) (code : Nat)

/-- A service that reads `n` bytes of its argument; an argument that cannot be read is invalid. -/
def withArg (s : State) (c : SvcCall) (n : Nat) (f : State → List Byte → Served) : Served :=
  match svcRead s c c.arg n with
  | .bad => .done s 2
  | .wait s w => .wait s w
  | .ok s bs => f s bs

/-- A service that ends by writing bytes; `s` is the state without its effect, kept when the bytes cannot be written. -/
def withResult (s : State) (c : SvcCall) (p : Dbl) (bs : List Byte) (s' : State) : Served :=
  match svcWrite s' c p bs with
  | .bad => .done s 2
  | .wait _ w => match svcWrite s c p bs with
    | .wait s w => .wait s w
    | _ => .wait s w
  | .ok s _ => .done s 0

/-! ### The services (R321) -/

/-- R321: service 0. -/
def serveNop (_ : SvcCall) (s : State) : Served := .done s 0

/-- R321, R255: service 1: a new graph, phase or job; a parent is a unit of the next level and of the same VF. -/
def serveUnitCreate (c : SvcCall) (s : State) : Served :=
  withArg s c 16 fun s bs =>
    let level := fieldOf bs 0 8
    let parent := fieldOf bs 8 8
    let parentOk := decide (parent = 0) || (decide (level < 3 ∧ identLevel parent = level + 1 ∧ identOwner parent = c.vf) &&
      (unitOf s c.dev parent).isSome)
    if level < 1 ∨ 3 < level ∨ parentOk = false then .done s 2
    else
      let (s', i) := newUnit s c.dev level c.vf parent
      withResult s c (advance c.arg 16) (natBytes 8 i) s'

/-- The context a call comes from. -/
def svcCtx (s : State) (c : SvcCall) : Option Nat := (c.team.bind (viewOf s)).map fun w => w.b.ctx

/-- R306: COLLs in flight on an entry of a context fail with 0x242. -/
def abortEntry (s : State) (ctx g : Nat) : State := abortColls s fun c => decide (c.ctx = ctx ∧ c.entry = g)

/-- R321, R306: service 2: fills and validates a group entry of the calling context. A ring slot has none (log 27). -/
def serveGroupSet (c : SvcCall) (s : State) : Served :=
  match svcCtx s c with
  | none => .done s 4
  | some ctx => withArg s c 192 fun s bs =>
    let g := fieldOf bs 0 4
    let rank := fieldOf bs 8 8
    let base := BitVec.ofNat 64 (fieldOf bs 16 8)
    let members : LaneSet := BitVec.ofNat 1024 (fieldOf bs 64 128)
    if 256 ≤ g ∨ 1024 ≤ rank ∨ members.getLsbD rank = false ∨ isObject base ∨ region base ≠ 0 ∨ base.toNat % 64 ≠ 0 then .done s 2
    else
      let e : Group := { gid := fieldOf bs 4 4, members := members, rank := rank, size := (setLanes members 1024).length,
                         base := base, bytes := BitVec.ofNat 64 (fieldOf bs 24 8) }
      .done (modCtx (abortEntry s ctx g) ctx fun c => { c with groups := tput c.groups g e }) 0

/-- R321, R306: service 3: invalidates a group entry. -/
def serveGroupClear (c : SvcCall) (s : State) : Served :=
  match svcCtx s c with
  | none => .done s 4
  | some ctx => withArg s c 4 fun s bs =>
    let g := fieldOf bs 0 4
    if 256 ≤ g then .done s 2
    else .done (modCtx (abortEntry s ctx g) ctx fun c => { c with groups := tmod c.groups g fun e => { e with valid := false } }) 0

/-- R184: what engines still have under way to the pages of some cached translations lands. -/
def landPages (s : State) (dev : Nat) (xs : Tbl Xlat) : State :=
  xs.foldl (fun s x => landOn s (physKey s dev x.2.key x.2.pa) (physKey s dev x.2.key x.2.pa + 4096)) s

/-- R321, R184: service 4: no context of the VF holds an old translation of the range, and nothing that used one is under way. -/
def serveMapInval (c : SvcCall) (s : State) : Served :=
  withArg s c 24 fun s bs =>
    let reg := fieldOf bs 0 8
    let a := fieldOf bs 8 8 % 2 ^ 60
    let hi := a + fieldOf bs 16 8
    if reg ≠ 0 ∧ reg ≠ 1 ∧ reg ≠ 3 then .done s 2
    else
      let stays (x : Nat × Xlat) : Bool :=
        decide (x.1 / 2 ^ 48 ≠ reg) || decide (x.1 % 2 ^ 48 * 4096 + 4096 ≤ a) || decide (hi ≤ x.1 % 2 ^ 48 * 4096)
      let mine (x : Ctx) : Bool := decide (x.dev = c.dev ∧ x.vf = c.vf)
      let s := s.ctxs.foldl (fun s x => if mine x.2 then landPages s c.dev (x.2.tlb.filter fun y => !stays y) else s) s
      .done { s with ctxs := s.ctxs.map fun x => if mine x.2 then (x.1, { x.2 with tlb := x.2.tlb.filter stays }) else x } 0

/-- R278, R321: the bytes of a fault-log entry (log 26). -/
def faultBytes (e : FaultEntry) : List Byte :=
  natBytes Config.faultEntrySize.toNat (Config.faultEntry e.ordinal e.count e.lane e.cause).toNat

/-- R330: the measurements of a device: its ROM, root firmware and the firmware of each VF, and its configuration. -/
def measured (s : State) (dev : Nat) : List (BitVec 256) :=
  let image (i : Nat) : BitVec 256 := match (devOf s dev).images[i]? with
    | some x => x.digest
    | none => Config.fwDigest dev i
  Config.romDigest dev :: (List.range 17).map image ++ [Config.configDigest s.now]

/-- R330: what a report states, in the order of the rule (log 26): the nonce, the serial, the measurements, the rollback counter. -/
def attested (s : State) (dev : Nat) (nonce : List Byte) : List Byte :=
  nonce ++ natBytes 8 (Config.deviceSerial dev).toNat ++ (measured s dev).flatMap (fun d => natBytes 32 d.toNat) ++
    natBytes 8 (Config.rollback dev)

/-- R330: an attestation report: what it states, and the 2,420 bytes of its signature. -/
def attestBytes (s : State) (dev : Nat) (nonce : List Byte) : List Byte :=
  let content := attested s dev nonce
  content ++ natBytes 2420 (Config.signature dev content).toNat

/-- R321, R278: service 5: moves fault-log entries to the buffer and writes their count. -/
def serveFaultRead (c : SvcCall) (s : State) : Served :=
  withArg s c 16 fun s bs =>
    let cap := fieldOf bs 8 8
    let log := (vfOf s c.dev c.vf).log
    let out := (log.take cap).flatMap faultBytes
    match withResult s c (BitVec.ofNat 64 (fieldOf bs 0 8)) out s with
    | .done s' 0 => withResult s c (advance c.arg 16) (natBytes 8 (min cap log.length))
        (modVf s' c.dev c.vf fun v => { v with log := v.log.drop cap })
    | r => r

/-- R321, R330: service 6: the attestation report for the nonce. -/
def serveAttest (c : SvcCall) (s : State) : Served :=
  withArg s c 40 fun s bs =>
    withResult s c (BitVec.ofNat 64 (fieldOf bs 32 8)) (attestBytes s c.dev (bs.take 32)) s

/-- R321: the service of a number; another number is unknown. -/
def serve (n : Nat) (c : SvcCall) (s : State) : Served :=
  match n with
  | 0 => serveNop c s
  | 1 => serveUnitCreate c s
  | 2 => serveGroupSet c s
  | 3 => serveGroupClear c s
  | 4 => serveMapInval c s
  | 5 => serveFaultRead c s
  | 6 => serveAttest c s
  | _ => .done s 1

/-- R321: the status word of a code. -/
def statusWord (code : Nat) : Dbl := BitVec.ofNat 64 (code + if code = 0 then 0 else 2 ^ 63)

/-! ### SYS (R248) -/

/-- R248: SYS: release(system) and the post; the team blocks; then the status word and acquire(system). -/
def execSys (o : I64) (s : State) : Out :=
  let kd := kdOf o
  let ka := kaOf o
  withView s [] [] [(ka, 2)] (kd := [(kd, 2)]) fun w =>
    if w.t.wait = .sys then
      if !fwUp s w.c.dev then block s .sys
      else match serve (sub o.imm 0 16) ⟨w.c.dev, w.c.vf, some s.cur, kgetD w.t ka⟩ s with
        | .wait s wt => block s wt
        | .done s code => match tget s.teams s.cur with
          | some t => .next (acquire (complete s s.cur (ksetD t kd (statusWord code)) 8) w.b.ctx 5)
          | none => .next s
    else if heldBack w then block s .hold
    else if !releaseOk w.c 5 then block s .release
    else block s .sys

/-- A service as firmware runs it: for a team that waits in a SYS of that number it answers the SYS; for a ring slot it
has its effect, and RING_SVC writes the status. -/
def runService (n : Nat) (c : SvcCall) (s : State) : Out :=
  if !fwUp s c.dev then .next s
  else match c.team with
    | none => match serve n c s with
      | .done s _ => .next s
      | .wait _ _ => .next s
    | some id => match viewOf s id with
      | none => .next s
      | some w =>
        if w.t.wait ≠ .sys ∨ w.t.ended then .next s
        else match fetchWord w w.t.pc with
          | .error _ => .next s
          | .ok (x, _) => match decodeWord x with
            | .sys o => if sub o.imm 0 16 = n then execSys o { s with cur := id } else .next s
            | _ => .next s

/-- SVC_NOP (R321). -/
def execSvcNop (c : SvcCall) (s : State) : Out := runService 0 c s
/-- UNIT_CREATE (R321). -/
def execUnitCreate (c : SvcCall) (s : State) : Out := runService 1 c s
/-- GROUP_SET (R321). -/
def execGroupSet (c : SvcCall) (s : State) : Out := runService 2 c s
/-- GROUP_CLEAR (R321). -/
def execGroupClear (c : SvcCall) (s : State) : Out := runService 3 c s
/-- MAP_INVAL (R321). -/
def execMapInval (c : SvcCall) (s : State) : Out := runService 4 c s
/-- FAULT_READ (R321). -/
def execFaultRead (c : SvcCall) (s : State) : Out := runService 5 c s
/-- ATTEST (R330). -/
def execAttest (c : SvcCall) (s : State) : Out := runService 6 c s

/-! ### Firmware rings (R315-R320) -/

def ringOf (s : State) (dev vf ring : Nat) : Option Ring := tget (vfOf s dev vf).rings ring
def modRing (s : State) (dev vf ring : Nat) (f : Ring → Ring) : State :=
  modVf s dev vf fun v => { v with rings := tmod v.rings ring f }

/-- R315: the read index, and the address of the slot it names. -/
def ringIndex (s : State) (r : Ring) : Nat := readHost s (r.control + 0x80) 8
def slotAt (s : State) (r : Ring) : Nat :=
  readHost s r.control 8 + ringIndex s r % 2 ^ (readHost s (r.control + 8) 1) * 64

/-- R318, R320: the CODE of the first failing test of a slot's header on a firmware ring. -/
def headerError (header : Nat) : Option Nat :=
  let type := header % 256
  if type = 0 ∨ 5 ≤ type then some 1
  else if 48 < header / 2 ^ 16 % 64 then some 2
  else if header / 2 ^ 8 % 256 ≠ 0 ∨ header / 2 ^ 22 % 1024 ≠ 0 then some 3
  else none

/-- R317-R319: firmware looks at a ring: a published slot is found, or puts the ring in error. -/
def ringLook (s : State) (dev vf ring : Nat) : State :=
  match ringOf s dev vf ring with
  | none => s
  | some r =>
    let slot := slotAt s r
    if r.pending.isSome || readHost s (r.control + 0xC0) 8 / 2 ^ 63 = 1 || readHost s slot 8 ≠ ringIndex s r then s
    else
      let header := readHost s (slot + 8) 8
      match headerError header with
      | some code =>
        let s := writeHost s (r.control + 0xC8) 8 (ringIndex s r)
        writeHost s (r.control + 0xC0) 8 (2 ^ 63 + header % 256 * 2 ^ 16 + code)
      | none => modRing s dev vf ring fun r => { r with pending := some (header % 256) }

/-- DOORBELL (R320): a host write to a ring's doorbell. -/
def execDoorbell (dev vf ring : Nat) (_value : Dbl) (s : State) : Out :=
  .next (if fwUp s dev then ringLook s dev vf ring else s)

/-- FIRMWARE_RING_POLL (R320): firmware looks at every ring of its VF. -/
def execFirmwareRingPoll (dev vf : Nat) (s : State) : Out :=
  .next (if fwUp s dev then (List.range 8).foldl (fun s i => ringLook s dev vf i) s else s)

/-- The body of the slot found on a ring, when it has a type. -/
def foundSlot (s : State) (dev vf ring type : Nat) : Option (Ring × Nat) :=
  match ringOf s dev vf ring with
  | some r => if fwUp s dev && decide (r.pending = some type) then some (r, slotAt s r) else none
  | none => none

/-- R317: the slot is handled: R := r + 1, and firmware looks at the next slot. -/
def ringNext (s : State) (dev vf ring : Nat) (r : Ring) : State :=
  let s := writeHost s (r.control + 0x80) 8 ((ringIndex s r + 1) % 2 ^ 64)
  ringLook (modRing s dev vf ring fun r => { r with pending := none }) dev vf ring

/-- RING_NODE (R320): the node is created or refused; a full pool waits at the slot. -/
def execRingNode (dev vf ring : Nat) (s : State) : Out :=
  match foundSlot s dev vf ring 1 with
  | none => .next s
  | some (r, slot) =>
    let a := readHost s (slot + 16) 8
    let reply := readHost s (slot + 24) 8
    let answer (s : State) (x : Nat) := if reply = 0 then s else writeHost s reply 8 x
    match createNode s dev vf (readBytes s.mem (hostKey a) 832) with
    | .refused => .next (ringNext (answer s 0xFFFFFFFFFFFFF388) dev vf ring r)
    | .full => .next s
    | .made s _ ident => .next (ringNext (answer (writeHost s (a + 0x78) 8 ident) ident) dev vf ring r)

/-- RING_SVC (R320): the service runs and its status word is written. -/
def execRingSvc (dev vf ring : Nat) (s : State) : Out :=
  match foundSlot s dev vf ring 2 with
  | none => .next s
  | some (r, slot) =>
    match serve (readHost s (slot + 16) 2) ⟨dev, vf, none, BitVec.ofNat 64 (readHost s (slot + 24) 8)⟩ s with
    | .wait s _ => .next s
    | .done s code => .next (ringNext (writeHost s (readHost s (slot + 32) 8) 8 (statusWord code).toNat) dev vf ring r)

/-- RING_CANCEL (R320): R266 is applied to the named unit of the VF. -/
def execRingCancel (dev vf ring : Nat) (s : State) : Out :=
  match foundSlot s dev vf ring 3 with
  | none => .next s
  | some (r, slot) =>
    let i := readHost s (slot + 16) 8
    let level := readHost s (slot + 24) 1
    let s := if identLevel i = level ∧ identOwner i = vf then cancelUnit s dev i else s
    .next (ringNext s dev vf ring r)

/-- RING_NOP (R320): the slot is consumed. -/
def execRingNop (dev vf ring : Nat) (s : State) : Out :=
  match foundSlot s dev vf ring 4 with
  | none => .next s
  | some (r, _) => .next (ringNext s dev vf ring r)

/-! ### Host accesses (R187, R212, R313, R334, R337) -/

/-- R332: the PCI Express link of a device is up; over it nothing reaches a device in recovery mode (R334). -/
def linkUp (s : State) (dev : Nat) : Bool :=
  let d := devOf s dev
  decide (dev < s.fabric.devices) && d.powered && !d.recovery && decide (5 ≤ d.bringup)

/-- The memory key of a place that holds memory; an object's bytes are at its home and exist up to its size. The window of the
PF covers 4 TiB; that of a VF, the pages of region 3 that its contexts map (log 27). -/
def placeKey (s : State) (size : Nat) : HostPlace → Option Nat
  | .phys dev slot addr =>
    if addr % size = 0 ∧ slot < 64 ∧ addr < 2 ^ 42 ∧ linkUp s dev = true then some (physKey s dev slot addr) else none
  | .host addr => if addr % size = 0 ∧ addr < 2 ^ 64 then some (hostKey addr) else none
  | .object p =>
    if isObject p && decide (p.toNat % size = 0) then match homeOf s (ptrGoid p) with
      | some (site, e) => if ptrOff p + size ≤ e.size ∧ linkUp s (site / 2) = true then some p.toNat else none
      | none => none
    else none
  | .page ctx va => match tget s.ctxs ctx with
    | some c => match (tget c.roots 3).map fun root => walkLevel s.mem c.dev 3 va 3 root with
      | some (.page x) =>
        if va % size = 0 ∧ va < 2 ^ 36 ∧ linkUp s c.dev = true then some (physKey s c.dev x.key (x.pa + va % 4096)) else none
      | _ => none
    | none => none
  | .vfBar _ _ _ => none
  | .mgmt _ _ _ => none

def hostPlaceKey (s : State) (a : HostAccess) : Option Nat :=
  if a.size = 1 ∨ a.size = 2 ∨ a.size = 4 ∨ a.size = 8 then placeKey s a.size a.place else none

/-- R334: whether a management access arrives: over BAR 0 when the link is up, over I3C at every device that has power. -/
def mgmtReach (s : State) (dev : Nat) (i3c : Bool) : Bool :=
  if i3c then decide (dev < s.fabric.devices) && (devOf s dev).powered else linkUp s dev

/-- R332, R333, R334, R280, R323: what a management register holds. -/
def mgmtValue (d : Device) : MgmtReg → Option Nat
  | .step => some d.bringup
  | .recovery => some (if d.recovery then 1 else 0)
  | .power => some d.watts
  | .sensor n => d.temps[n]?
  | .limit => some d.limit
  | .corrected vf => if vf ≤ 16 then some (tgetD d.vfcores vf {}).corrected else none
  | .uncorrected => some d.errors.length
  | .mailbox => some d.mailbox

/-- R313, R290: the debug mailbox of a VF: eight bytes of status, 1 once the last command was carried out, then eight that the host
writes (log 27). -/
def mailByte (v : VfCore) (i : Nat) : Byte :=
  if i < 8 then (if i = 0 ∧ v.status = some true then 1 else 0) else tgetD v.mail i 0

/-- Bytes of a table, and what it holds after a write. -/
def tableValue (byte : Nat → Byte) (lo size : Nat) : Nat := bytesNat ((List.range size).map fun i => byte (lo + i))
def tableWrite (t : Tbl Byte) (lo size x : Nat) : Tbl Byte := ((natBytes size x).zipIdx).foldl (fun t b => tput t (lo + b.2) b.1) t

/-- R313, R290: what BAR 0 of a VF reads: the MSI-X table, and the debug mailbox. -/
def vfBarValue (v : VfCore) (off size : Nat) : Option Nat :=
  if 0x8000 ≤ off ∧ off + size ≤ 0x8400 then some (tableValue (tgetD v.table · 0) (off - 0x8000) size)
  else if 0x2000 ≤ off ∧ off + size ≤ 0x2010 then some (tableValue (mailByte v) (off - 0x2000) size)
  else none

/-- R313, R320: a write to BAR 0 of a VF: a doorbell, the debug mailbox (whose commands are events of their own), or the MSI-X table. -/
def vfBarWrite (s : State) (dev vf off size x : Nat) : State :=
  if 0x8000 ≤ off ∧ off + size ≤ 0x8400 then
    modVf s dev vf fun v => { v with table := tableWrite v.table (off - 0x8000) size x }
  else if 0x2000 ≤ off ∧ off + size ≤ 0x2010 then
    modVf s dev vf fun v => { v with mail := tableWrite v.mail (off - 0x2000) size x }
  else if 0x1000 ≤ off ∧ off < 0x1040 ∧ off % 8 = 0 ∧ fwUp s dev then ringLook s dev vf ((off - 0x1000) / 8)
  else s

/-- Bytes the host writes arrive at the point of coherence. -/
def hostStore (s : State) (key size x : Nat) : State :=
  let s := claim s key
  clearErr { s with mem := writeNat s.mem key size x } key size

/-- HOST_BAR_WRITE (R212, R313, R334): a host write arrives. -/
def execHostBarWrite (a : HostAccess) (s : State) : Out :=
  match a.place with
  | .mgmt dev i3c reg => .next (if !mgmtReach s dev i3c then s else match reg with
      | .limit => modDev s dev fun d => { d with limit := a.data.toNat }
      | .mailbox => if i3c then s else modDev s dev fun d => { d with mailbox := a.data.toNat }
      | _ => s)
  | .vfBar dev vf off => .next (if linkUp s dev && decide (vf < 16 ∧ a.size ≤ 8) then
      vfBarWrite s dev vf off a.size a.data.toNat else s)
  | _ => match hostPlaceKey s a with
    | none => .next s
    | some k => .next (hostStore s k a.size a.data.toNat)

/-- What a host access reads; data with an uncorrectable error is not delivered (R280). -/
def hostLoad (s : State) (key size : Nat) : Option Nat :=
  if (lineErr s key).isSome then none else some (readNat s.mem key size)

/-- HOST_BAR_READ (R187, R313, R334): a host read is served at the point of coherence; none where it reaches nothing. -/
def execHostBarRead (a : HostAccess) (s : State) : Out :=
  .next { s with answer := match a.place with
    | .mgmt dev i3c reg => if mgmtReach s dev i3c && !(i3c && decide (reg = .mailbox)) then mgmtValue (devOf s dev) reg else none
    | .vfBar dev vf off => if linkUp s dev && decide (vf < 16 ∧ a.size ≤ 8) then vfBarValue (vfOf s dev vf) off a.size else none
    | _ => (hostPlaceKey s a).bind fun k => hostLoad s k a.size }

/-- HOST_ATOMICOP (R313): FetchAdd, Swap or CAS of 32 or 64 bits. -/
def execHostAtomicop (a : HostAccess) (op : HostOp) (s : State) : Out :=
  match (hostPlaceKey s a).bind fun k => (hostLoad s k a.size).map fun x => (k, x) with
  | none => .next { s with answer := none }
  | some (k, old) =>
    let n := 8 * a.size
    if a.size < 4 then .next { s with answer := none }
    else
      let new := match op with
        | .fetchAdd => (old + a.data.toNat) % 2 ^ n
        | .swap => a.data.toNat % 2 ^ n
        | .cas => if old = a.compare.toNat % 2 ^ n then a.data.toNat % 2 ^ n else old
      .next { hostStore s k a.size new with answer := some old }

end Sys2Proof.Machine
end

