-- ==== Sys2Proof/Machine/Special.lean ====
section
/-! DEFINITION. Special registers: SRD and SWR (R115, R116). -/
namespace Sys2Proof.Machine

/-- R160: bit t of `%tags`: tag t is set. -/
def tagBits (b : Block) : Nat := ((List.range 64).map fun i => if (tgetD b.tags i {}).ready then 2 ^ i else 0).sum

/-- R18: the summary word. -/
def summary (m : LaneSet) : Nat :=
  ((List.range 32).map fun i => if sub m (32 * i) 32 = 0 then 0 else 2 ^ i).sum

/-- R16: x, y and z of a block. -/
def coords (n : Node) (b : Block) : Nat × Nat × Nat :=
  if n.desc.x = 0 ∨ n.desc.y = 0 then (b.ordinal, 0, 0)
  else (b.ordinal % n.desc.x, b.ordinal / n.desc.x % n.desc.y, b.ordinal / (n.desc.x * n.desc.y))

/-- R116: the value of a special register; per-lane registers for the given lane. -/
def specialValue (s : State) (w : View) (num idx lane : Nat) : Nat :=
  match num with
  | 0x000 => lane
  | 0x001 => w.t.num
  | 0x002 => w.t.size
  | 0x003 => w.b.ordinal
  | 0x004 => (coords w.n w.b).1
  | 0x005 => (coords w.n w.b).2.1
  | 0x006 => (coords w.n w.b).2.2
  | 0x007 => if w.n.desc.cluster = 0 then 0xFFFFFFFF else clusterOf w.n w.b
  | 0x009 => w.n.ident
  | 0x00A => w.n.entry
  | 0x010 => ctxSite w.c
  | 0x011 => w.c.dev
  | 0x012 => w.c.core
  | 0x013 => match w.c.slot with
    | .a => 0
    | .b => 1
    | .wide => 2
  | 0x020 => sub w.t.mask (32 * idx) 32
  | 0x021 => summary w.t.mask
  | 0x030 => tagBits w.b
  | 0x031 => w.b.copy.count
  | 0x032 => w.b.mat.count
  | 0x033 => w.b.gath.count
  | 0x034 => w.c.coll.count
  | 0x040 => w.n.p.toNat
  | 0x041 => match w.n.t with
    | some t => t.toNat
    | none => if w.n.desc.shape then 2 ^ 64 - 1 else w.n.p.toNat
  | 0x050 => clock s w.c.dev % 2 ^ 64
  | 0x060 => w.t.fpflags.toNat
  | 0x061 => w.t.fptrap.toNat
  | 0x062 => w.b.qsat.toNat
  | 0x070 => w.t.trapcause.toNat
  | 0x071 => w.t.trappc.toNat / 2 * 2
  | 0x072 => w.t.trapinfo.toNat
  | 0x078 => sub w.t.lfmask (32 * idx) 32
  | 0x079 => (tgetD w.t.lfcause lane 0).toNat
  | 0x07A => w.t.lfmode.toNat
  | 0x080 => match tget w.c.groups idx with
    | some g => if g.valid then g.rank else 0xFFFFFFFF
    | none => 0xFFFFFFFF
  | 0x081 => w.n.desc.seed.toNat
  | _ => 0

/-- R115: SRD, for the lanes its guard admits or for a uniform register. -/
def execSrd (o : I64) (s : State) : Out :=
  let wd := wideOf (o.m.getLsbD 2)
  if o.m.getLsbD 3 then
    let kd := sub o.vd 0 6
    withView s [] [] [] (kd := [(kd, wd)]) fun w =>
      let x := specialValue s w (spNum o) (spIdx o) 0
      finish s (if wd = 2 then ksetD w.t kd (BitVec.ofNat 64 x) else kset w.t kd (BitVec.ofNat 32 x)) 8
  else
    withView s [(o.vd.toNat, wd)] [] [] fun w =>
      finish s (writeLanes w.t (activeLanes w.t o.n o.g) o.vd.toNat wd fun l => specialValue s w (spNum o) (spIdx o) l) 8

/-- R116: the writable registers of the team; reserved bits are ignored. -/
def writeSpecial (t : Team) (num : Nat) (x : Dbl) : Team :=
  let w : Word := x.setWidth 32
  match num with
  | 0x060 => { t with fpflags := w &&& 0x1F }
  | 0x061 => { t with fptrap := w &&& 0x1F }
  | 0x070 => { t with trapcause := w &&& 0x3FF }
  | 0x071 => { t with trappc := x &&& ~~~1#64 }
  | 0x072 => { t with trapinfo := w }
  | 0x07A => { t with lfmode := w &&& 1 }
  | _ => t

/-- R115: SWR writes the register from ka; `%qsat` belongs to the block (R60). -/
def execSwr (o : I64) (s : State) : Out :=
  let wd := wideOf (o.m.getLsbD 2)
  let ka := sub o.va 0 6
  withTeam s [] [] [(ka, wd)] fun t =>
    let x : Dbl := if wd = 2 then kgetD t ka else (kget t ka).setWidth 64
    let s := if spNum o = 0x062 then modBlock s t.block fun b => { b with qsat := x.setWidth 32 &&& 3 } else s
    finish s (writeSpecial t (spNum o) x) 8

end Sys2Proof.Machine
end

