-- ==== Sys2Proof/Machine/Debug.lean ====
section
/-! DEFINITION. The debug unit (R286-R291): attaching and detaching the debugger, halting, stepping, the detached lane, and
access to the state of a halted team. -/
namespace Sys2Proof.Machine

/-- DEBUGGER_ATTACH (R286): the debug registers read 0. -/
def execDebuggerAttach (ctx : Nat) (s : State) : Out :=
  .next (modCtx s ctx fun c => if c.attached then c else
    { c with attached := true, dba := [], dbc := [], dwb := [], dwl := [], dwc := [] })

/-- A halted team continues; its next instruction matches no breakpoint (R287). -/
def resumeTeam (t : Team) : Team :=
  if t.halt.isSome then { t with halt := none, stepping := false, running := false, skipBreak := true } else t

/-- A current path that has lost its last lane has ended (R121, R131). -/
def endEmpty (s : State) (team : Nat) (t : Team) : State :=
  if t.mask = 0 && !t.ended then endPath s team t 0 else putTeam s team t

/-- DEBUGGER_DETACH (R286): every EN clears and every halted team resumes; a detached lane stays out of the mask (log 28), and a
path that is left empty has ended. -/
def execDebuggerDetach (ctx : Nat) (s : State) : Out :=
  match tget s.ctxs ctx with
  | none => .next s
  | some c =>
    let off (t : Tbl Word) : Tbl Word := t.map fun x => (x.1, x.2 &&& ~~~1#32)
    let s := putCtx s ctx { c with attached := false, dbc := off c.dbc, dwc := off c.dwc }
    .next ((ctxTeams s c).foldl (fun s x => match tget s.teams x.1 with
      | some y =>
        let t := { resumeTeam y with detach := none, under := [], made := 0, haltDue := false }
        if y.detach.isSome || y.halt.isSome then endEmpty s x.1 t else putTeam s x.1 t
      | none => s) s)

/-! ### Commands (R290): halting, stepping, resuming -/

/-- R290: the status of a command, in the mailbox of the VF of a context. -/
def answered (s : State) (c : Ctx) (done : Bool) : State := modVf s c.dev c.vf fun v => { v with status := some done }

/-- R290: a command for a team: where its condition holds it has its effect, and it is answered. -/
def command (s : State) (team : Nat) (ok : Team → Bool) (f : Team → State) : Out :=
  match viewOf s team with
  | none => .next s
  | some w => .next (answered (if ok w.t then f w.t else s) w.c (ok w.t))

/-- R290: a team halts at the next instruction boundary; a blocked one at once, and it keeps its wait. -/
def haltTeam (t : Team) : Team :=
  if t.ended || t.halt.isSome then t
  else if decide (t.wait = .none) && midInstr t then { t with haltDue := true }
  else { t with halt := some (0x304, 0), running := false }

/-- HALT (R290): one team of a context, or all. -/
def execDbgHalt (team : Option Nat) (ctx : Nat) (s : State) : Out :=
  match tget s.ctxs ctx with
  | none => .next s
  | some c => .next (answered ((ctxTeams s c).foldl (fun s x =>
      if team = none ∨ team = some x.1 then putTeam s x.1 (haltTeam x.2) else s) s) c true)

/-- RESUME (R290): halted, no lane detached. A path that a WRITE of the mask has left empty has ended (log 28). -/
def execDbgResume (team : Nat) (s : State) : Out :=
  command s team (fun t => t.halt.isSome && t.detach.isNone) fun t => endEmpty s team (resumeTeam t)

/-- STEP (R290): halted, no lane detached: one instruction, then the team halts with 0x302. -/
def execDbgStep (team : Nat) (s : State) : Out :=
  command s team (fun t => t.halt.isSome && t.detach.isNone) fun t =>
    endEmpty s team { resumeTeam t with stepping := true }

/-- DETACH (R290): halted, and the lane in the current path. The commands act on the lane detached last, and a lane whose part of the
instruction under way has been made does not make it again (log 28). -/
def execDbgDetach (team lane : Nat) (s : State) : Out :=
  command s team (fun t => t.halt.isSome && t.mask.getLsbD lane) fun t =>
    let bit : LaneSet := 1#1024 <<< lane
    putTeam s team { t with mask := t.mask &&& ~~~bit, detach := some ⟨lane, t.pc, t.frames.length⟩,
                            under := t.detach.toList ++ t.under, made := t.made ||| (t.served &&& bit) }

/-- ATTACH (R290): the debug PC equals the team's: the lane rejoins the current path. -/
def execDbgAttach (team : Nat) (s : State) : Out :=
  command s team (fun t => t.detach.any fun d => decide (d.pc = t.pc)) fun t => match t.detach with
    | some d => putTeam s team { undetach t d.lane with mask := t.mask ||| (1#1024 <<< d.lane) }
    | none => s

/-- RUNTO (R290): the rest of the team runs. A current path that the detach left empty has ended (R291). -/
def execRunto (team : Nat) (s : State) : Out :=
  command s team (fun t => t.detach.isSome) fun t => endEmpty s team { resumeTeam t with running := true }

/-! ### LSTEP (R291) -/

/-- R291: the instructions LSTEP accepts, each with its meaning. An addition goes alone (R147 `.noc`): combining is invisible
(R214). -/
def lstepRun (i : Instr) (s : State) : Option Out :=
  match i with
  | .movC16 o => some (execMovC16 o s)
  | .iaddC16 o => some (execIaddC16 o s)
  | .isubC16 o => some (execIsubC16 o s)
  | .imulC16 o => some (execImulC16 o s)
  | .iandC16 o => some (execIandC16 o s)
  | .iorC16 o => some (execIorC16 o s)
  | .ixorC16 o => some (execIxorC16 o s)
  | .ishlC16 o => some (execIshlC16 o s)
  | .ishrC16 o => some (execIshrC16 o s)
  | .isarC16 o => some (execIsarC16 o s)
  | .iminC16 o => some (execIminC16 o s)
  | .imaxC16 o => some (execImaxC16 o s)
  | .faddC16 o => some (execFaddC16 o s)
  | .fsubC16 o => some (execFsubC16 o s)
  | .fmulC16 o => some (execFmulC16 o s)
  | .fmaxC16 o => some (execFmaxC16 o s)
  | .iaddL3 o => some (execIaddL3 o s)
  | .isubL3 o => some (execIsubL3 o s)
  | .imulL3 o => some (execImulL3 o s)
  | .imulhL3 o => some (execImulhL3 o s)
  | .iandL3 o => some (execIandL3 o s)
  | .iorL3 o => some (execIorL3 o s)
  | .ixorL3 o => some (execIxorL3 o s)
  | .ishlL3 o => some (execIshlL3 o s)
  | .ishrL3 o => some (execIshrL3 o s)
  | .isarL3 o => some (execIsarL3 o s)
  | .iminL3 o => some (execIminL3 o s)
  | .imaxL3 o => some (execImaxL3 o s)
  | .faddL3 o => some (execFaddL3 o s)
  | .fsubL3 o => some (execFsubL3 o s)
  | .fmulL3 o => some (execFmulL3 o s)
  | .iaddRi o => some (execIaddRi o s)
  | .iandRi o => some (execIandRi o s)
  | .iorRi o => some (execIorRi o s)
  | .ixorRi o => some (execIxorRi o s)
  | .ishlRi o => some (execIshlRi o s)
  | .ishrRi o => some (execIshrRi o s)
  | .isarRi o => some (execIsarRi o s)
  | .movRi o => some (execMovRi o s)
  | .bra o => some (execBra o s)
  | .iadd o => some (execIadd o s)
  | .isub o => some (execIsub o s)
  | .imul o => some (execImul o s)
  | .imulh o => some (execImulh o s)
  | .imad o => some (execImad o s)
  | .imin o => some (execImin o s)
  | .imax o => some (execImax o s)
  | .iabs o => some (execIabs o s)
  | .iand o => some (execIand o s)
  | .ior o => some (execIor o s)
  | .ixor o => some (execIxor o s)
  | .ishl o => some (execIshl o s)
  | .ishr o => some (execIshr o s)
  | .isar o => some (execIsar o s)
  | .irot o => some (execIrot o s)
  | .ipopc o => some (execIpopc o s)
  | .iclz o => some (execIclz o s)
  | .ibrev o => some (execIbrev o s)
  | .ibfx o => some (execIbfx o s)
  | .ibfi o => some (execIbfi o s)
  | .isel o => some (execIsel o s)
  | .icmp o => some (execIcmp o s)
  | .mov o => some (execMov o s)
  | .fadd o => some (execFadd o s)
  | .fsub o => some (execFsub o s)
  | .fmul o => some (execFmul o s)
  | .ffma o => some (execFfma o s)
  | .fmin o => some (execFmin o s)
  | .fmax o => some (execFmax o s)
  | .fcmp o => some (execFcmp o s)
  | .frcp o => some (execFrcp o s)
  | .frsq o => some (execFrsq o s)
  | .fexp2 o => some (execFexp2 o s)
  | .flog2 o => some (execFlog2 o s)
  | .fclass o => some (execFclass o s)
  | .fcvt o => some (execFcvt o s)
  | .i2f o => some (execI2f o s)
  | .f2i o => some (execF2i o s)
  | .frnd o => some (execFrnd o s)
  | .padd o => some (execPadd o s)
  | .pmake o => some (execPmake o s)
  | .pgoid o => some (execPgoid o s)
  | .poff o => some (execPoff o s)
  | .plop o => some (execPlop o s)
  | .pmovGet o => some (execPmovGet o s)
  | .pmovSet o => some (execPmovSet o s)
  | .iaddImm o => some (execIaddImm o s)
  | .imulImm o => some (execImulImm o s)
  | .iminImm o => some (execIminImm o s)
  | .imaxImm o => some (execImaxImm o s)
  | .iandImm o => some (execIandImm o s)
  | .iorImm o => some (execIorImm o s)
  | .ixorImm o => some (execIxorImm o s)
  | .ishlImm o => some (execIshlImm o s)
  | .ishrImm o => some (execIshrImm o s)
  | .isarImm o => some (execIsarImm o s)
  | .irotImm o => some (execIrotImm o s)
  | .icmpImm o => some (execIcmpImm o s)
  | .movImm o => some (execMovImm o s)
  | .faddImm o => some (execFaddImm o s)
  | .fsubImm o => some (execFsubImm o s)
  | .fmulImm o => some (execFmulImm o s)
  | .fminImm o => some (execFminImm o s)
  | .fmaxImm o => some (execFmaxImm o s)
  | .fcmpImm o => some (execFcmpImm o s)
  | .ldBM o => some (execLdBM o s)
  | .ldHM o => some (execLdHM o s)
  | .ldWM o => some (execLdWM o s)
  | .ldDM o => some (execLdDM o s)
  | .ldQM o => some (execLdQM o s)
  | .stBM o => some (execStBM o s)
  | .stHM o => some (execStHM o s)
  | .stWM o => some (execStWM o s)
  | .stDM o => some (execStDM o s)
  | .stQM o => some (execStQM o s)
  | .ld o => some (execLd o s)
  | .st o => some (execSt o s)
  | .atomAdd o => some (execAtomAddNoc o s)
  | .atomAddCmb o => some (execAtomAddCmbNoc o s)
  | .atomAddNoc o => some (execAtomAddNoc o s)
  | .atomAddCmbNoc o => some (execAtomAddCmbNoc o s)
  | .atomMin o => some (execAtomMin o s)
  | .atomMax o => some (execAtomMax o s)
  | .atomMinN o => some (execAtomMinN o s)
  | .atomMaxN o => some (execAtomMaxN o s)
  | .atomAnd o => some (execAtomAnd o s)
  | .atomOr o => some (execAtomOr o s)
  | .atomXor o => some (execAtomXor o s)
  | .atomExch o => some (execAtomExch o s)
  | .atomCas o => some (execAtomCas o s)
  | .atomFadd o => some (execAtomFadd o s)
  | .redAdd o => some (execRedAddNoc o s)
  | .redAddNoc o => some (execRedAddNoc o s)
  | .redMin o => some (execRedMin o s)
  | .redMax o => some (execRedMax o s)
  | .redMinN o => some (execRedMinN o s)
  | .redMaxN o => some (execRedMaxN o s)
  | .redAnd o => some (execRedAnd o s)
  | .redOr o => some (execRedOr o s)
  | .redXor o => some (execRedXor o s)
  | .waita o => some (execWaita o s)
  | _ => none

/-- The address a memory instruction has in a lane. -/
def lstepPtr (i : Instr) (t : Team) (lane : Nat) : Option Dbl :=
  match i with
  | .ldBM o => some (eaOf t false o.a.toNat 0 (o.imm.toInt * 2 ^ 0) lane)
  | .ldHM o => some (eaOf t false o.a.toNat 0 (o.imm.toInt * 2 ^ 1) lane)
  | .ldWM o => some (eaOf t false o.a.toNat 0 (o.imm.toInt * 2 ^ 2) lane)
  | .ldDM o => some (eaOf t false o.a.toNat 0 (o.imm.toInt * 2 ^ 3) lane)
  | .ldQM o => some (eaOf t false o.a.toNat 0 (o.imm.toInt * 2 ^ 4) lane)
  | .stBM o => some (eaOf t false o.a.toNat 0 (o.imm.toInt * 2 ^ 0) lane)
  | .stHM o => some (eaOf t false o.a.toNat 0 (o.imm.toInt * 2 ^ 1) lane)
  | .stWM o => some (eaOf t false o.a.toNat 0 (o.imm.toInt * 2 ^ 2) lane)
  | .stDM o => some (eaOf t false o.a.toNat 0 (o.imm.toInt * 2 ^ 3) lane)
  | .stQM o => some (eaOf t false o.a.toNat 0 (o.imm.toInt * 2 ^ 4) lane)
  | .ld o => some (eaOf t (o.m.getLsbD 6) o.va.toNat o.vi.toNat o.imm.toInt lane)
  | .st o => some (eaOf t (o.m.getLsbD 6) o.va.toNat o.vi.toNat o.imm.toInt lane)
  | .atomAdd o => some (eaOf t (o.m.getLsbD 6) o.va.toNat 0 o.imm.toInt lane)
  | .atomAddCmb o => some (eaOf t (o.m.getLsbD 6) o.va.toNat 0 o.imm.toInt lane)
  | .atomAddNoc o => some (eaOf t (o.m.getLsbD 6) o.va.toNat 0 o.imm.toInt lane)
  | .atomAddCmbNoc o => some (eaOf t (o.m.getLsbD 6) o.va.toNat 0 o.imm.toInt lane)
  | .atomMin o => some (eaOf t (o.m.getLsbD 6) o.va.toNat 0 o.imm.toInt lane)
  | .atomMax o => some (eaOf t (o.m.getLsbD 6) o.va.toNat 0 o.imm.toInt lane)
  | .atomMinN o => some (eaOf t (o.m.getLsbD 6) o.va.toNat 0 o.imm.toInt lane)
  | .atomMaxN o => some (eaOf t (o.m.getLsbD 6) o.va.toNat 0 o.imm.toInt lane)
  | .atomAnd o => some (eaOf t (o.m.getLsbD 6) o.va.toNat 0 o.imm.toInt lane)
  | .atomOr o => some (eaOf t (o.m.getLsbD 6) o.va.toNat 0 o.imm.toInt lane)
  | .atomXor o => some (eaOf t (o.m.getLsbD 6) o.va.toNat 0 o.imm.toInt lane)
  | .atomExch o => some (eaOf t (o.m.getLsbD 6) o.va.toNat 0 o.imm.toInt lane)
  | .atomCas o => some (eaOf t (o.m.getLsbD 6) o.va.toNat 0 o.imm.toInt lane)
  | .atomFadd o => some (eaOf t (o.m.getLsbD 6) o.va.toNat 0 o.imm.toInt lane)
  | .redAdd o => some (eaOf t (o.m.getLsbD 6) o.va.toNat o.vi.toNat o.imm.toInt lane)
  | .redAddNoc o => some (eaOf t (o.m.getLsbD 6) o.va.toNat o.vi.toNat o.imm.toInt lane)
  | .redMin o => some (eaOf t (o.m.getLsbD 6) o.va.toNat o.vi.toNat o.imm.toInt lane)
  | .redMax o => some (eaOf t (o.m.getLsbD 6) o.va.toNat o.vi.toNat o.imm.toInt lane)
  | .redMinN o => some (eaOf t (o.m.getLsbD 6) o.va.toNat o.vi.toNat o.imm.toInt lane)
  | .redMaxN o => some (eaOf t (o.m.getLsbD 6) o.va.toNat o.vi.toNat o.imm.toInt lane)
  | .redAnd o => some (eaOf t (o.m.getLsbD 6) o.va.toNat o.vi.toNat o.imm.toInt lane)
  | .redOr o => some (eaOf t (o.m.getLsbD 6) o.va.toNat o.vi.toNat o.imm.toInt lane)
  | .redXor o => some (eaOf t (o.m.getLsbD 6) o.va.toNat o.vi.toNat o.imm.toInt lane)
  | .waita o => some (eaOf t (o.m.getLsbD 6) o.va.toNat 0 o.imm.toInt lane)
  | _ => none

/-- R178, R190: the requester's locator names the object's home before the lane's access is made, so that the access is
served at once; none while the frame it reaches is on the move, or while the team awaits answers (log 28). -/
def lstepRoute (s : State) (w : View) (team : Nat) (p : Option Dbl) : Option State :=
  match p with
  | none => some s
  | some p =>
    if s.reqs.any fun r => decide (r.2.team = team) then none
    else if !isObject p then some s
    else match homeOf s (ptrGoid p) with
      | none => some s
      | some (site, e) =>
        if answerAt s site (ptrGoid p) (ptrOff p) false = .served then
          some (touchLocator s (ctxSite w.c) ⟨ptrGoid p, site, e.moves⟩)
        else if e.state = .home ∨ e.state = .movingOut then none
        else some s

/-- The team as LSTEP lets one lane execute: nothing but that lane, at its own PC, in no wait and no hold. The detach it shows
names no lane, so that the end of the lane's path ends no team. -/
def lstepTeam (t : Team) (d : Detach) : Team :=
  let t := { t with pc := d.pc, mask := 1#1024 <<< d.lane, frames := [], calls := [], lfmask := t.lfmask &&& ~~~(1#1024 <<< d.lane) }
  let t := { t with handler := false, held := none, wait := .none, halt := none, stepping := false, running := false }
  { t with served := 0, watch := [], swept := 0, stopAt := none, detach := some ⟨2000, d.pc, 0⟩ }

/-- Where a team stands in its program, taken from another. -/
def standsAs (t at_ : Team) : Team :=
  { t with pc := at_.pc, mask := at_.mask, frames := at_.frames, calls := at_.calls }

/-- What a team is in the middle of, taken from another. -/
def waitsAs (t at_ : Team) : Team :=
  let t := { t with wait := at_.wait, served := at_.served, watch := at_.watch, stepping := at_.stepping }
  { t with running := at_.running, swept := at_.swept, stopAt := at_.stopAt, ended := at_.ended }

/-- What a precise cause leaves in a team, taken from another. -/
def trapsAs (t at_ : Team) : Team :=
  let t := { t with trapcause := at_.trapcause, trappc := at_.trappc, trapinfo := at_.trapinfo }
  { t with held := at_.held, handler := at_.handler, lfnew := if at_.handler then at_.lfnew else t.lfnew }

/-- The team after LSTEP: everything the instruction changed but where the team stands. -/
def lstepBack (t t' : Team) (detach : Option Detach) (halt : Option (Nat × Word)) : Team :=
  { trapsAs (waitsAs (standsAs t' t) t) t with lfmask := t.lfmask ||| t'.lfmask, detach := detach, halt := halt }

/-- The team after an LSTEP that a lane fault ended: the detach has ended with it (R291). -/
def lstepLost (t t' : Team) (d : Detach) : Team :=
  let u := undetach t d.lane
  { lstepBack t t' u.detach t.halt with under := u.under, made := u.made }

/-- R291: what LSTEP comes to: the machine after it, or a command refused. A precise fault is reported as the reason the team halts
for; what would block leaves the lane where it is. A lane that has made its part of the instruction moves past it. -/
def lstepped (s : State) (team : Nat) (w : View) (d : Detach) : Option State :=
  let fault (c : Nat) (info : Word) : State := putTeam s team { w.t with halt := some (c, info) }
  match fetchWord w d.pc with
  | .error info => some (fault 4 (BitVec.ofNat 32 info))
  | .ok (x, _) => match decodeWord x with
    | .bad r => some (fault (match r with
        | .major => 0
        | .minor => 1
        | .field => 2) (BitVec.ofNat 32 x))
    | .ok i =>
      let t0 := lstepTeam w.t d
      match lstepRoute s w team (lstepPtr i t0 d.lane) with
      | none => some s
      | some s1 =>
        -- a handler stands for the debugger, so that a precise cause reaches it and not the team's own
        let s1 := modNode (putTeam { s1 with cur := team } team t0) w.b.node fun n =>
          { n with desc := { n.desc with handler := some 0 } }
        match lstepRun i s1 with
        | some (.next s2) =>
          if w.t.made.getLsbD d.lane then
            let t := { w.t with made := w.t.made &&& ~~~(1#1024 <<< d.lane) }
            some (putTeam s team { t with detach := some { d with pc := d.pc + BitVec.ofNat 64 (lengthOf x) } })
          else
          let s2 := modNode { s2 with cur := s.cur } w.b.node fun n =>
            { n with desc := { n.desc with handler := w.n.desc.handler } }
          match tget s2.teams team with
          | none => some s
          | some t' =>
            let cause := match t'.held with
              | some c => some (c.cause, c.info, c.pc)
              | none => if t'.handler then some (t'.trapcause.toNat, t'.trapinfo, t'.trappc) else none
            -- R83, R280: the checks of the registers it names come before a predicate that holds an error
            let named := cause.any fun c => decide (c.1 = 3 ∨ c.1 = 5)
            match (if named then none else badPred t0 x i), cause with
            | some n, _ => some (fault 0x2C6 (BitVec.ofNat 32 n))
            | none, some (c, info, pc) =>
              some (if c = 0x301 then putTeam s2 team (lstepBack w.t t' (some { d with pc := pc }) (some (c, info)))
                else fault c info)
            | none, none =>
              if t'.wait ≠ .none then some (putTeam s2 team w.t)
              else if t'.lfmask.getLsbD d.lane then
                -- R131: with its last lane the current path has ended
                some (endEmpty s2 team (lstepLost w.t t' d))
              else some (putTeam s2 team (lstepBack w.t t' (some { d with pc := t'.pc }) (t'.halt.orElse fun _ => w.t.halt)))
        | _ => none
    | _ => none

/-- LSTEP (R290, R291): the instruction at the debug PC for the detached lane alone; an instruction that LSTEP does not accept does
not execute. -/
def execLstep (team : Nat) (s : State) : Out :=
  match viewOf s team with
  | none => .next s
  | some w => match w.t.detach.bind fun d => lstepped s team w d with
    | some s' => .next (answered s' w.c true)
    | none => .next (answered s w.c false)

/-! ### READ and WRITE (R289) -/

/-- 64 bits of a lane set. -/
def setWord (m : LaneSet) (i : Nat) : Nat := sub m (64 * i) 64
def putWord (m : LaneSet) (i x : Nat) : LaneSet :=
  BitVec.ofNat 1024 (m.toNat - setWord m i * 2 ^ (64 * i) + x % 2 ^ 64 * 2 ^ (64 * i))

/-- A record all of whose fields are 0. -/
def noTile : TileRec := ⟨0, 0, 0, 0, 0, 0, 0, 0, 0, 0⟩

/-- R220, R289: the record in a tile register; one that is not loaded holds what a debugger left there. -/
def tileAt (t : Team) (n : Nat) : TileRec := match tget t.x n with
  | some r => r
  | none => tgetD t.xu n noTile

/-- R289: WRITE of a tile register and of its loaded bit. -/
def putTile (t : Team) (n : Nat) (r : TileRec) (loaded : Bool) : Team :=
  if loaded then { t with x := tput t.x n r, xu := tdel t.xu n, badX := t.badX.filter (· ≠ n) }
  else { t with x := tdel t.x n, xu := tput t.xu n r, badX := t.badX.filter (· ≠ n) }

/-- R289: what READ finds in the state of a team, its block and its slot's debug registers. -/
def debugValue (s : State) (w : View) (what : DbgLoc) : Option Nat :=
  let t := w.t
  match what with
  | .lane l n => if l < t.size ∧ n < 128 then some (vget t l n).toNat else none
  | .pred l n => if l < t.size ∧ n < 8 then some (if pget t l n then 1 else 0) else none
  | .uniform n => if n < 64 then some (kget t n).toNat else none
  | .handle n => if n < 8 then some (tgetD t.a n 0xFF) else none
  | .pc => some t.pc.toNat
  | .mask i => if i < 16 then some (setWord t.mask i) else none
  | .special num idx => some (specialValue s w num idx idx)
  | .tile n field => if n < 16 then some (getField (tileAt t n) field) else none
  | .tileLoaded n => if n < 16 then some (if (tget t.x n).isSome then 1 else 0) else none
  | .frames => some t.frames.length
  | .calls => some t.calls.length
  | .frameJoin n => (t.frames[n]?).map fun f => f.join.toNat
  | .frameArrived n i => (t.frames[n]?).map fun f => setWord f.arrived i
  | .frameSize n => (t.frames[n]?).map fun f => f.pending.length
  | .framePc n p => (t.frames[n]?).bind fun f => (f.pending[p]?).map fun q => q.pc.toNat
  | .frameLanes n p i => (t.frames[n]?).bind fun f => (f.pending[p]?).map fun q => setWord q.lanes i
  | .callAddr n => (t.calls[n]?).map fun c => c.ret.toNat
  | .callDepth n => (t.calls[n]?).map fun c => c.depth
  | .barPhase b => (barRef w b).map fun r => (barOf s r).phase
  | .barCount b p => (barRef w b).map fun r => (counterOf (barOf s r) p % 2 ^ 64).toNat
  | .barOverrun b => (barRef w b).map fun r => if (barOf s r).overrun then 1 else 0
  | .barArrived b m => (barRef w b).map fun r => if (barOf s r).arrived.contains m then 1 else 0
  | .barCounted b => tget t.counted b
  | .dba n => if n < 8 then some (tgetD w.c.dba n 0).toNat else none
  | .dbc n => if n < 8 then some (tgetD w.c.dbc n 0).toNat else none
  | .dwb n => if n < 4 then some (tgetD w.c.dwb n 0).toNat else none
  | .dwl n => if n < 4 then some (tgetD w.c.dwl n 0).toNat else none
  | .dwc n => if n < 4 then some (tgetD w.c.dwc n 0).toNat else none

/-- R286: the registers of the slot's debug unit. -/
def isDebugReg : DbgLoc → Bool
  | .dba _ => true
  | .dbc _ => true
  | .dwb _ => true
  | .dwl _ => true
  | .dwc _ => true
  | _ => false

/-- DEBUG_READ (R289, R290): the state of a halted team, or the debug registers of its slot. -/
def execDebugRead (team : Nat) (what : DbgLoc) (s : State) : Out :=
  match viewOf s team with
  | none => .next { s with answer := none }
  | some w =>
    let found := if isDebugReg what || w.t.halt.isSome then debugValue s w what else none
    .next (answered { s with answer := found } w.c found.isSome)

/-- A frame, a pending path or a call entry replaced. -/
def modFrame (t : Team) (n : Nat) (f : Frame → Frame) : Team :=
  { t with frames := t.frames.modify n f }
def modPath (t : Team) (n p : Nat) (f : Path → Path) : Team :=
  modFrame t n fun x => { x with pending := x.pending.modify p f }
def modCall (t : Team) (n : Nat) (f : CallEntry → CallEntry) : Team :=
  { t with calls := t.calls.modify n f }

/-- A list cut or filled up to a length. -/
def sized (xs : List α) (n : Nat) (blank : α) : List α := xs.take n ++ List.replicate (n - xs.length) blank

/-- R289: WRITE of a halted team's state; what R116 marks RO stays. DESIGN CHOICE (log 28): the numbers of frames, pending paths and call
entries are written too, a new one being all zero and the outermost, or last; and like every program counter a join address, a pending
path's and a return address have bit 0 cleared, on which R289 is silent. -/
def debugTeam (t : Team) (what : DbgLoc) (v : Dbl) : Team :=
  let x := v.toNat
  let all := laneSet (List.range t.size)
  match what with
  | .lane l n => if l < t.size ∧ n < 128 then vset t l n (v.setWidth 32) else t
  | .pred l n => if l < t.size ∧ n < 8 then pset t l n (v.getLsbD 0) else t
  | .uniform n => if n < 64 then kset t n (v.setWidth 32) else t
  | .handle n => if n < 8 then { t with a := tput t.a n (x % 256), ia := tdel t.ia n, badA := t.badA.filter (· ≠ n) } else t
  | .pc => { t with pc := v &&& ~~~1#64 }
  | .mask i => if i < 16 then { t with mask := putWord t.mask i x &&& all } else t
  | .special num _ => writeSpecial t num v
  | .tile n field => if n < 16 ∧ field ≤ 8 then putTile t n (setField (tileAt t n) field x) (tget t.x n).isSome else t
  | .tileLoaded n => if n < 16 then putTile t n (tileAt t n) (v.getLsbD 0) else t
  | .barCounted b => { t with counted := tput t.counted b x }
  | .frames => { t with frames := sized t.frames x { join := 0 } }
  | .calls => { t with calls := sized t.calls x ⟨0, 0⟩ }
  | .frameJoin n => modFrame t n fun f => { f with join := v &&& ~~~1#64 }
  | .frameArrived n i => modFrame t n fun f => { f with arrived := putWord f.arrived i x &&& all }
  | .frameSize n => modFrame t n fun f => { f with pending := sized f.pending x ⟨0, 0⟩ }
  | .framePc n p => modPath t n p fun q => { q with pc := v &&& ~~~1#64 }
  | .frameLanes n p i => modPath t n p fun q => { q with lanes := putWord q.lanes i x &&& all }
  | .callAddr n => modCall t n fun c => { c with ret := v &&& ~~~1#64 }
  | .callDepth n => modCall t n fun c => { c with depth := x }
  | _ => t

/-- R289: WRITE of the block's barrier state. -/
def debugBar (s : State) (w : View) (b : Nat) (f : Bar → Bar) : State :=
  match barRef w b with
  | some r => putBar s r (f (barOf s r))
  | none => s

/-- R286: WRITE of a debug register; reserved bits are ignored. -/
def debugCtx (c : Ctx) (what : DbgLoc) (v : Dbl) : Ctx :=
  let ctl : Word := v.setWidth 32 &&& 0x7FF
  match what with
  | .dba n => if n < 8 then { c with dba := tput c.dba n (v &&& ~~~1#64) } else c
  | .dbc n => if n < 8 then { c with dbc := tput c.dbc n (ctl &&& 0xFF) } else c
  | .dwb n => if n < 4 then { c with dwb := tput c.dwb n v } else c
  | .dwl n => if n < 4 ∧ v.toNat ≤ 2 ^ 34 then { c with dwl := tput c.dwl n v } else c
  | .dwc n => if n < 4 then { c with dwc := tput c.dwc n ctl } else c
  | _ => c

/-- R289: what WRITE leaves of the state of a halted team and its block. -/
def debugState (s : State) (w : View) (team : Nat) (what : DbgLoc) (v : Dbl) : State :=
  match what with
  | .barPhase b => debugBar s w b fun x => { x with phase := v.toNat }
  | .barCount b p => debugBar s w b fun x => setCounter x p v.toInt
  | .barOverrun b => debugBar s w b fun x => { x with overrun := v.getLsbD 0 }
  | .barArrived b m => debugBar s w b fun x =>
      { x with arrived := if v.getLsbD 0 then (if x.arrived.contains m then x.arrived else x.arrived ++ [m])
                          else x.arrived.filter (· ≠ m) }
  | .special 0x062 _ => modBlock s w.t.block fun b => { b with qsat := v.setWidth 32 &&& 3 }
  | _ => putTeam s team (debugTeam w.t what v)

/-- R289: what a WRITE names exists, and a number of frames, pending paths or call entries is one that a team can hold (R117, R123). -/
def debugFits (s : State) (w : View) (what : DbgLoc) (v : Dbl) : Bool :=
  match what with
  | .barCounted b => (barRef w b).isSome
  | .frames => decide (v.toNat ≤ 16)
  | .calls => decide (v.toNat ≤ 16)
  | .frameSize n => decide (n < w.t.frames.length ∧ v.toNat ≤ 8)
  | _ => (debugValue s w what).isSome

/-- DEBUG_WRITE (R289, R290): refused for the state of a running team, and for what is not there. -/
def execDebugWrite (team : Nat) (what : DbgLoc) (value : Dbl) (s : State) : Out :=
  match viewOf s team with
  | none => .next s
  | some w =>
    let ok := (if isDebugReg what then w.c.attached else w.t.halt.isSome) && debugFits s w what value
    .next (answered (if !ok then s else if isDebugReg what then putCtx s w.b.ctx (debugCtx w.c what value)
      else debugState s w team what value) w.c ok)

end Sys2Proof.Machine
end

