-- ==== Sys2Proof/Machine/Package.lean ====
section
/-! DEFINITION. The package: resets and kills (R275, R314), key slots (R331), frames, scrubbing and errors (R280, R323),
configuration registers (R176, R261, R262, R267, R268, R297), bring-up (R332), power and heat (R333), evictions (R197). -/
namespace Sys2Proof.Machine

/-! ### Resets and kills -/

/-- The contexts of a VF of a device. -/
def vfCtxs (s : State) (dev vf : Nat) : List (Nat × Ctx) := s.ctxs.filter fun x => decide (x.2.dev = dev ∧ x.2.vf = vf)

/-- R314: a team waits for the answer of its VF's core: to a LAUNCH, or to a SYS, either of which may itself wait for a page or a move
of its argument. -/
def awaitsFirmware (s : State) (id : Nat) (t : Team) : Bool :=
  !t.ended && (decide (t.wait = .sys ∨ t.wait = .launch) ||
    (decide (t.wait = .page ∨ t.wait = .move ∨ t.wait = .queued) && match viewOf s id with
      | some w => match fetchWord w t.pc with
        | .ok (x, _) => match decodeWord x with
          | .sys _ => true
          | .ok (.launch _) => true
          | _ => false
        | .error _ => false
      | none => false))

/-- VF_CORE_RESET (R314): teams that wait in SYS or LAUNCH receive 0x3C0; the rings resume at their read indices. -/
def execVfCoreReset (dev vf : Nat) (s : State) : Out :=
  let teams := (vfCtxs s dev vf).flatMap fun x => ctxTeams s x.2
  let s := teams.foldl (fun s x =>
    if awaitsFirmware s x.1 x.2 then raiseAt (modTeam s x.1 fun t => { t with wait := .none }) x.1 0x3C0 0 x.2.pc
    else s) s
  .next (modVf s dev vf fun v => { v with rings := v.rings.map fun r => (r.1, { r.2 with pending := none }) })

/-- R275, R265: a kill reaches a node: its teams end with 0x384 and it fails with a cause that came from no block. -/
def killNode (s : State) (key : Nat) : State :=
  match tget s.nodes key with
  | none => s
  | some n =>
    if n.state = .waiting ∨ n.state = .ready then finalNode (putNode s key { n with cause := some (0x384, 2 ^ 32 - 1, 2 ^ 64 - 1) }) key 2
    else
      let s := putNode s key { n with
        failing := true, cause := if n.cause.isSome then n.cause else some (0x384, 2 ^ 32 - 1, 2 ^ 64 - 1) }
      let mine := blocksOf s key
      let s := (mine.filter fun b => b.2.provisional && !b.2.left).foldl (fun s b => squashBlock
        (b.2.teams.foldl (fun s t => modTeam s t fun t => { t with trapcause := 0x384 }) s) b.1) s
      let s := (mine.flatMap fun b => b.2.teams).foldl (fun s t => killTeam s 0x384 t) s
      let ctxs := (s.ctxs.filter fun x => decide (x.2.node = key)).map (·.1)
      nodeTick (dropImages (abortMembers s fun c => ctxs.contains c) key) key

/-- KILL (R275): every team of the VF's contexts ends, or of the device's; the units are marked failed. -/
def execKill (dev : Nat) (vf : Option Nat) (s : State) : Out :=
  let mine (v : Nat) : Bool := match vf with
    | some x => decide (x = v)
    | none => true
  let nodes := (s.nodes.filter fun x => decide (x.2.dev = dev) && mine x.2.vf).map (·.1)
  let units := (devOf s dev).units.filter fun x => mine x.2.vf && !x.2.final
  let s := units.foldl (fun s x => modDev s dev fun d => { d with
    units := tmod d.units x.1 fun u => { u with failed := true, cause := u.cause.orElse fun _ => some 0x384 } }) s
  let s := nodes.foldl killNode s
  let s := units.foldl (fun s x => match unitOf s dev x.1 with
    | some u => if decide (identLevel x.1 ≠ 0) && decide (u.open_ = 0) && !u.final then
        childDone 3 (putUnit s dev x.1 { u with final := true }) dev u.parent true
      else s
    | none => s) s
  .next (retest s dev)

/-! ### Key slots, frames, errors -/

/-- The bytes of an object no longer hold a promised value. -/
def spoilObject (s : State) (g size : Nat) : State := newBytes s (goidPtr g 0) (goidPtr g 0 + size) false

/-- KEY_SLOT_REVOKE (R331): every frame under the slot, of an object or of a flat page, becomes unreadable, and its saved images fail
their stream-in. The root core is asked over the link, which does not reach a device in recovery mode (R334). -/
def execKeySlotRevoke (dev slot : Nat) (s : State) : Out :=
  if slot = 0 ∨ 64 ≤ slot ∨ (devOf s dev).revoked.contains slot ∨ linkUp s dev = false then .next s
  else
    let s := modDev s dev fun d => { d with revoked := slot :: d.revoked }
    let s := newBytes s (slotKey dev slot 0) (slotKey dev (slot + 1) 0) false
    .next ([2 * dev, 2 * dev + 1].foldl (fun s site =>
      ((siteOf s site).objects.filter fun o => decide (o.2.key = slot ∧ (o.2.state = .home ∨ o.2.state = .movingOut))).foldl
        (fun s o => spoilObject s o.1 o.2.size) s) s)

/-- FRAME_RETIRE (R323): the frame leaves every free list; an object that holds it keeps it. The root core is asked over the link
(R334). -/
def execFrameRetire (site : Nat) (f : FrameRef) (s : State) : Out :=
  let x := siteOf s site
  if !linkUp s (site / 2) || !siteExists s site || decide (tierSize f.tier2 ≤ f.frame) || (retiredOf x f.tier2).contains f.frame then .next s
  else .next (putSite s site (if f.tier2 then { x with retired2 := f.frame :: x.retired2 }
    else { x with retired1 := f.frame :: x.retired1 }))

/-- R323: where a line of DRAM lies: a line of an object in the frame that holds it, another by its device physical address. -/
def lineReport (s : State) (line : Nat) : Option LineReport :=
  let key := line * 64
  if key < 2 ^ 64 then match homeOf s (ptrGoid (BitVec.ofNat 64 key)) with
    | some (site, e) =>
      let off := key % 2 ^ 34
      let frame := e.frames.getD (off / Config.frameBytes) 0
      let addr := Config.frameAddr (site / 2) (site % 2) e.tier2 frame * Config.frameBytes + off % Config.frameBytes
      some ⟨site, e.tier2, Config.dramPlace (site / 2) addr % 6, addr, e.key⟩
    | none => none
  else if key < 600 * 2 ^ 64 then
    let dev := key / 2 ^ 64 - 1
    let addr := key % 2 ^ 64
    let p := Config.dramPlace dev addr % 14
    some ⟨2 * dev + (if p < 12 then p / 6 else p - 12), decide (12 ≤ p), p % 6, addr, slotOf s.mem dev addr⟩
  else none

/-- R323: a report reaches the PF and the VF that owns the key slot. -/
def reportLine (dev : Nat) (s : State) (r : LineReport) : State :=
  let add (xs : List LineReport) : List LineReport := if xs.contains r then xs else xs ++ [r]
  ((List.range 16).filter fun vf => decide (vfKey dev vf = r.slot)).foldl
    (fun s vf => modVf s dev vf fun v => { v with lines := add v.lines })
    (modDev s dev fun d => { d with errors := add d.errors })

/-- PATROL_SCRUB (R323): a line found with an uncorrectable error, where its device keeps it or in the copy of a die's L2, is reported
to the PF and to the VF that owns its key slot; it keeps the error. -/
def execPatrolScrub (dev : Nat) (line : Nat) (s : State) : Out :=
  match lineReport s line with
  | none => .next s
  | some r =>
    let here := if (tget s.errors line).isSome ∧ r.site / 2 = dev then [r] else []
    let copies := [2 * dev, 2 * dev + 1].filter fun site =>
      (tget (siteOf s site).l2 line).isSome && (siteOf s site).l2bad.contains line
    .next ((here ++ copies.map fun site => { r with site := site }).foldl (reportLine dev) s)

/-- R280: a corrected error counts in the VF firmware's error counters; 16 stands for the PF. -/
def countCorrected (s : State) (dev vf : Nat) : State := modVf s dev vf fun v => { v with corrected := v.corrected + 1 }

/-- R280: an uncorrectable error in a line. -/
def spoilLine (s : State) (line cause : Nat) : State :=
  { s with errors := tput s.errors line ⟨cause, 0xFFFFFFFFFFFFFFFF⟩ }

/-- R280: the cause of a DRAM line: a pile, or tier 2. -/
def dramCause (s : State) (line : Nat) : Nat := if (lineReport s line).any (·.tier2) then 0x2C1 else 0x2C0

/-- Where an error counts: device and VF. -/
def ctxOwner (s : State) (ctx : Nat) : Nat × Nat := match tget s.ctxs ctx with
  | some c => (c.dev, c.vf)
  | none => (0, 16)

/-- The device whose memory a key is in; 0 for host memory. -/
def keyDevice (s : State) (key : Nat) : Nat :=
  if key < 2 ^ 64 then homeSite s (ptrGoid (BitVec.ofNat 64 key)) / 2
  else if key / 2 ^ 64 ≤ 512 then key / 2 ^ 64 - 1
  else 0

/-- The owner of a team's context. -/
def teamOwner (s : State) (team : Nat) : Nat × Nat := match viewOf s team with
  | some w => (w.c.dev, w.c.vf)
  | none => (0, 16)

/-- R280: whose counter an error is counted in: for a line of DRAM, that of the VF whose key slot it is under (R323); 16 stands for the
PF. -/
def errOwner (s : State) : ErrLoc → Nat × Nat
  | .line key => (keyDevice s key, match lineReport s (errLine key) with
      | some r => ((List.range 16).find? fun vf => decide (vfKey (r.site / 2) vf = r.slot)).getD 16
      | none => 16)
  | .laneReg team _ _ => teamOwner s team
  | .uniform team _ => teamOwner s team
  | .pred team _ _ => teamOwner s team
  | .tile team _ => teamOwner s team
  | .handle team _ => teamOwner s team
  | .book ctx _ => ctxOwner s ctx
  | .spad block _ => match tget s.blocks block with
    | some b => ctxOwner s b.ctx
    | none => (0, 16)
  | .acc ctx _ => ctxOwner s ctx
  | .l2 site _ => (site / 2, 16)
  | .tabor site _ => (site / 2, 16)
  | .record _ port _ => (port, 16)

/-- R323: a frame with 16 or more corrected errors in one day is reported as an advisory. -/
def countFrame (s : State) (key : Nat) : State :=
  let dev := keyDevice s key
  let frame := match lineReport s (errLine key) with
    | some r => r.addr / Config.frameBytes
    | none => key / Config.frameBytes
  let now := clock s dev
  modDev s dev fun d =>
    let times := now :: (tgetD d.frameErrs frame []).filter fun t => decide (now < t + usAc 86400000000)
    { d with frameErrs := tput d.frameErrs frame times
             frameAdvisories := if 16 ≤ times.length ∧ frame ∉ d.frameAdvisories then d.frameAdvisories ++ [frame]
               else d.frameAdvisories }

/-- A register that holds an uncorrectable error, among those that do. -/
def marked (bad : List Nat) (n : Nat) : List Nat := if bad.contains n then bad else bad ++ [n]

/-- SOFT_ERROR (R280): a corrected error changes no value; an uncorrectable one marks its place. In a die's L2 that is the copy of a
line of another device, or the line itself where the die's device keeps it. -/
def execSoftError (l : ErrLoc) (correctable : Bool) (s : State) : Out :=
  if correctable then
    let o := errOwner s l
    let s := countCorrected s o.1 o.2
    .next (match l with
      | .line key => countFrame s key
      | _ => s)
  else match l with
    | .line key => .next (spoilLine s (errLine key) (dramCause s (errLine key)))
    | .laneReg team lane n => .next (modTeam s team fun t =>
        if n = 0 ∨ 128 ≤ n ∨ t.size ≤ lane then t else { t with bad := marked t.bad (lane * 128 + n) })
    | .uniform team n => .next (modTeam s team fun t => if n = 0 ∨ 64 ≤ n then t else { t with badK := marked t.badK n })
    | .pred team lane n => .next (modTeam s team fun t =>
        if n = 0 ∨ 8 ≤ n ∨ t.size ≤ lane then t else { t with badP := marked t.badP (lane * 8 + n) })
    | .tile team n => .next (modTeam s team fun t => if 16 ≤ n then t else { t with badX := marked t.badX n })
    | .handle team n => .next (modTeam s team fun t => if 8 ≤ n then t else { t with badA := marked t.badA n })
    | .book ctx n => .next (modCtx s ctx fun c => if 4 ≤ n then c else { c with badBooks := marked c.badBooks n })
    | .spad block off => .next (spoilLine s (lineOf (spadKey block off)) 0x2C5)
    | .acc ctx slot => .next (modCtx s ctx fun c => { c with slots := tmod c.slots slot fun x => { x with bad := true } })
    | .l2 site line => .next (if (tget (siteOf s site).l2 line).isSome then
          modSite s site fun x => { x with l2bad := marked x.l2bad line }
        else if keyDevice s (line * 64) = site / 2 then spoilLine s line 0x2C2 else s)
    | .tabor _ line => .next (spoilLine s line 0x2C4)
    | .record plane port n =>
      let spoil (r : Record) : Record := { r with bad := true }
      .next (setFabric s fun f => { f with records := tmod f.records (recordKey plane port n) spoil })

/-- LINE_EVICTION (R197): a later ordinary load refills the line from its point of coherence. -/
def execLineEviction (l1 : Bool) (where_ line : Nat) (s : State) : Out :=
  .next (if l1 then modCtx s where_ fun c => { c with l1 := tdel c.l1 line }
    else modSite s where_ fun x => { x with l2 := tdel x.l2 line, l2bad := x.l2bad.filter (· ≠ line) })

/-! ### Configuration registers -/

/-- R262: the clusters a VF's partition has now. -/
def partitionOf (d : Device) (vf : Nat) : List Nat := (tget d.partitions vf).getD (List.range 32)

/-- R268: a COLL is in flight on a device. -/
def collOn (s : State) (dev : Nat) : Bool := s.colls.any fun c => decide ((ctxOwner s c.2.ctx).1 = dev)

/-- The device whose root core writes a register. -/
def cfgDevice : CfgReg → Option Nat
  | .osite site => some (site / 2)
  | .vfsch dev _ => some dev
  | .age dev _ => some dev
  | .slctl _ _ => none
  | .reservation dev => some dev
  | .collCores dev => some dev
  | .partition dev _ _ _ => some dev
  | .ring dev _ _ _ => some dev
  | .region dev _ _ _ _ => some dev
  | .transfer dev _ _ _ _ _ _ _ => some dev
  | .systemNode dev _ => some dev

/-- R261, R268: a register of a device takes a value; reserved bits keep theirs. -/
def writeCfg (r : CfgReg) (value : Word) (s : State) : State :=
  match r with
  | .osite site => if siteExists s site then modSite s site fun x => { x with osite := value &&& 0xFFFF } else s
  | .vfsch dev vf => if vf < 16 then modDev s dev fun d => { d with vfsch := tput d.vfsch vf (value &&& 0xFFFFFFC0) } else s
  | .age dev level =>
    if level < 40 ∧ value.toNat < 65536 then modDev s dev fun d => { d with age := tput d.age level value.toNat } else s
  | .slctl plane port =>
    if plane < 32 ∧ port < 512 then
      { s with fabric := { s.fabric with slctl := tput s.fabric.slctl (plane * 512 + port) (value &&& 0x000100FF) } }
    else s
  | .reservation dev => modDev s dev fun d => { d with reservation := value.toNat }
  | .collCores dev =>
    if value.toNat ≤ 16 ∧ value.toNat % 8 = 0 ∧ collOn s dev = false then modDev s dev fun d => { d with collCores := value.toNat }
    else s
  | .partition dev die core vf =>
    if die < 2 ∧ core < 128 ∧ vf < 16 then modDev s dev fun d =>
      let c := die * 16 + core / 8
      let cs := (partitionOf d vf).filter (· ≠ c)
      { d with partitions := tput d.partitions vf (if value.getLsbD 0 then c :: cs else cs) }
    else s
  | .ring dev vf ring control =>
    let on (r : Tbl Ring) : Tbl Ring := if value.getLsbD 0 then tput r ring { control := control } else tdel r ring
    if vf < 16 ∧ ring < 8 ∧ control % 64 = 0 then modVf s dev vf fun v => { v with rings := on v.rings } else s
  | .region dev key ctx base bytes => modDev s dev fun d =>
      if 2 ^ 32 ≤ key ∨ (tget d.runnel.regs key).isSome then d
      else { d with runnel := { d.runnel with regs := tput d.runnel.regs key { base := base, bytes := bytes, ctx := ctx } } }
  | .transfer dev qp ctx src bytes key off send => modDev s dev fun d => match tget d.runnel.qps qp with
      | some q => if q.state = .ready ∧ key < 2 ^ 32 ∧ off + bytes ≤ 2 ^ 64 then { d with runnel := { d.runnel with
          qps := tput d.runnel.qps qp { q with work := q.work ++ [⟨ctx, src, bytes, key, off, send⟩] } } } else d
      | none => d
  -- R268: system software has firmware create a node of its own (log 48)
  | .systemNode dev desc =>
    if !fwUp s dev then s
    else match createNode s dev 16 (readBytes s.mem (hostKey desc) 832) with
      | .made s _ ident => writeHost s (desc + 0x78) 8 ident
      | _ => s

/-- REGISTER_WRITE (R176, R261, R262, R267, R268, R297): over the PF's BAR 0, which its device must answer (R332, R334). -/
def execRegisterWrite (r : CfgReg) (value : Word) (s : State) : Out :=
  .next (if (cfgDevice r).all (linkUp s) then writeCfg r value s else s)

/-! ### Bring-up, power and heat -/

/-- R301: no answer comes to a request of another device that was on its way to a device that is reset, or waited there; one that waited
elsewhere for a move that its end stops reaches that site again. -/
def loseRequest (dev : Nat) (stopped : List Nat) (x : Nat × Req) : Nat × Req :=
  let q := x.2
  let there := decide (q.phase = .toSite ∨ q.phase = .registry ∨ q.phase = .queued ∨ q.phase = .held ∨ q.phase = .forwarding ∨
    q.phase = .combining)
  if q.site / 2 = dev then (x.1, { q with lost := q.lost || (there && decide (q.from_ / 2 ≠ dev)) })
  else if q.phase = .queued ∧ x.1 ∈ stopped then (x.1, { q with phase := .toSite })
  else x

/-- Everything a device holds is lost: its launches, contexts, objects and memory (R332, R333; log 29). -/
def loseDevice (s : State) (dev : Nat) : State :=
  let mine (c : Nat) : Bool := match tget s.ctxs c with
    | some x => decide (x.dev = dev)
    | none => false
  let s := abortMembers s mine
  let blocks := (s.blocks.filter fun b => mine b.2.ctx).map (·.1)
  let stopped := s.moves.flatMap fun m => if m.2.src / 2 = dev ∨ m.2.dst / 2 = dev then m.2.queue else []
  let s := { s with
    teams := s.teams.filter fun t => !blocks.contains t.2.block
    reqs := (s.reqs.filter fun (r : Nat × Req) => !mine r.2.ctx).map (loseRequest dev stopped)
    moves := s.moves.filter fun m => decide (m.2.src / 2 ≠ dev ∧ m.2.dst / 2 ≠ dev)
    blocks := s.blocks.filter fun b => !mine b.2.ctx
    nodes := s.nodes.filter fun n => decide (n.2.dev ≠ dev) }
  let s := { s with ctxs := s.ctxs.filter fun c => decide (c.2.dev ≠ dev) }
  let s := [2 * dev, 2 * dev + 1].foldl (fun s site =>
    ((siteOf s site).objects.filter fun o => decide (o.2.state = .home ∨ o.2.state = .movingOut)).foldl
      (fun s o => spoilObject s o.1 o.2.size) s) s
  { s with
    sites := tdel (tdel s.sites (2 * dev)) (2 * dev + 1)
    mem := freshRange s.mem (devKey dev 0) (devKey (dev + 1) 0) s.stamp
    stamp := s.stamp + 1 }

/-- R303: the root cores withdraw a device's membership, or admit it. -/
def setMember (s : State) (dev : Nat) (member : Bool) : State :=
  let rest := s.fabric.absent.filter (· ≠ dev)
  setFabric s fun f => { f with absent := if member then rest else dev :: rest }

/-- R329: firmware images that verify: each signed by the vendor, and none below the fused rollback counter. -/
def verified (dev : Nat) (images : List FwImage) : Bool :=
  images.all fun x => Config.verifies dev x.digest x.sig && decide (Config.rollback dev ≤ x.version)

/-- R329, R332: the images that a step of bring-up verifies: root firmware, then the firmware of the 16 VFs. -/
def imagesOf (step : Nat) : Nat := if step = 1 then 1 else if step = 6 then 16 else 0

/-- POWER_ON (R332, R329): the next step of bring-up succeeds, or the device goes into recovery mode. Step 1 is a power-on
reset. -/
def execPowerOn (dev step : Nat) (run : Boot) (s : State) : Out :=
  let images := run.images
  let ok := run.ok && decide (images.length = imagesOf step) && verified dev images
  if s.fabric.devices ≤ dev then .next s
  else if step = 1 then
    let s := setMember (loseDevice s dev) dev false
    .next (putDev s dev { base := s.now, bringup := if ok then 1 else 0, recovery := !ok,
                          images := if ok then images else [] })
  else
    let d := devOf s dev
    if !d.powered || d.recovery || decide (step ≠ d.bringup + 1 ∨ 8 < step) then .next s
    else if !ok then .next (putDev s dev { d with recovery := true })
    else .next (putDev (if step = 7 then setMember s dev true else s) dev { d with bringup := step, images := d.images ++ images })

/-- POWER_SAMPLE (R333): the module's power, and the 64 sensors of each die; one that gives no new value keeps its own. -/
def execPowerSample (dev watts : Nat) (temps : List Nat) (s : State) : Out :=
  .next (modDev s dev fun d => { d with watts := watts, temps := (List.range 128).map fun i => temps.getD i (d.temps.getD i 0) })

/-- R333: the clusters of a die that may be gated next: those of the collective partition only when no other is left. -/
def gateable (s : State) (dev die : Nat) : List Nat :=
  let open_ := (List.range 16).filter fun c => !shut s dev (die * 16 + c)
  let plain := open_.filter fun c => !inColl s dev c
  (if plain.isEmpty then open_ else plain).map (die * 16 + ·)

/-- THERMAL_GATE_TICK (R333): over a limit, one cluster per die is gated once its contexts have been streamed out; which one is
open (log 29). -/
def execThermalGateTick (dev : Nat) (s : State) : Out :=
  let d := devOf s dev
  if !(d.temps.any fun t => decide (100 ≤ t)) && decide (d.watts ≤ 2300) then .next s
  else .next (closeGates ([0, 1].foldl (fun s die =>
    let cs := gateable s dev die
    match cs[(Config.freeDbl s.stamp).toNat % cs.length]? with
    | some c => modDev { s with stamp := s.stamp + 1 } dev fun d => { d with gating := c :: d.gating }
    | none => s) s) dev)

/-- The cores of a cluster look for work again. -/
def settleCluster (s : State) (dev c : Nat) : State :=
  (List.range 8).foldl (fun s i => settleCore s dev (c / 16) (c % 16 * 8 + i)) s

/-- THERMAL_RESTORE_TICK (R333): under both limits, one gated cluster is restored; which one is open (log 29). -/
def execThermalRestoreTick (dev : Nat) (s : State) : Out :=
  let d := devOf s dev
  if (d.temps.any fun t => decide (90 ≤ t)) || decide (2200 ≤ d.watts) then .next s
  else match d.gated[(Config.freeDbl s.stamp).toNat % d.gated.length]? with
    | some c => .next (settleCluster (modDev { s with stamp := s.stamp + 1 } dev fun d =>
        { d with gated := d.gated.filter (· ≠ c) }) dev c)
    | none => .next s

/-- THERMAL_TRIP (R333): at 115 °C the device stops every context and removes power. -/
def execThermalTrip (dev : Nat) (s : State) : Out :=
  let d := devOf s dev
  if !(d.temps.any fun t => decide (115 ≤ t)) then .next s
  else
    let s := setMember (loseDevice s dev) dev false
    .next (putDev s dev { base := s.now, powered := false, bringup := 0, watts := d.watts, temps := d.temps })

end Sys2Proof.Machine
end

