-- ==== Sys2Proof/Machine/Runnel.lean ====
section
/-! DEFINITION. The Runnel adapter (R324-R328): packets received and placed, acknowledgements, queue pairs, registrations. -/
namespace Sys2Proof.Machine

def runnelOf (s : State) (dev : Nat) : Runnel := (devOf s dev).runnel
def modRunnel (s : State) (dev : Nat) (f : Runnel → Runnel) : State := modDev s dev fun d => { d with runnel := f d.runnel }

/-- R325: a message at a receiver is known by its source address and 48-bit identifier. -/
def msgKey (src msg : Nat) : Nat := src * 2 ^ 48 + msg % 2 ^ 48

/-- What the adapter answers on the wire: (message, kind, detail): 0 acknowledgement, 1 retry-later, 2 retry after 10 µs, 3
invalid-key, 4 a packet sent again. -/
def sendAnswer (s : State) (dev msg kind detail : Nat) : State :=
  modRunnel s dev fun r => { r with answers := r.answers ++ [(msg, kind, detail)] }

def qpOf (r : Runnel) (qp : Nat) : QueuePair := tgetD r.qps qp {}
def modQp (s : State) (dev qp : Nat) (f : QueuePair → QueuePair) : State :=
  modRunnel s dev fun r => { r with qps := tput r.qps qp (f (qpOf r qp)) }

/-! ### Placement (R324, R325, R328) -/

/-- What placing bytes at an address of a registration meets. -/
inductive Placing where
  | invalid
  | page (region va : Nat)
  | keys (rs : List (Nat × Nat))
deriving DecidableEq, Repr

/-- A range split where its page ends. -/
def pagePieces (va n : Nat) : List (Nat × Nat) :=
  let first := min n (4096 - va % 4096)
  if first < n then [(va, first), (va + first, n - first)] else [(va, n)]

/-- R324, R178: where bytes of a registration are: at the object's home, or through the tables of the region's context. -/
def placing (s : State) (g : Registration) (off n : Nat) (write : Bool) : Placing :=
  if g.bytes < off + n then .invalid
  else
    let p := advance g.base (off : Int)
    if isObject p then match homeOf s (ptrGoid p) with
      | some (_, e) => if ptrOff p + n ≤ e.size then .keys [(p.toNat, n)] else .invalid
      | none => .invalid
    else match tget s.ctxs g.ctx with
      | none => .invalid
      | some c =>
        (pagePieces (sub p 0 60) n).foldl (fun acc x => match acc with
          | .keys rs => match xlate s c (region p) x.1 with
            | .none => .invalid
            | .absent ro => if ro && write then .invalid else .page (region p) x.1
            | .page y => if !y.w && write then .invalid else if y.host then .page (region p) x.1
              else .keys (rs ++ [(physKey s c.dev y.key (y.pa + x.1 % 4096), x.2)])
          | r => r) (.keys [])

/-- R186, R328: the page an access of the adapter needs is posted to the firmware of the context's VF. -/
def postAdapter (s : State) (dev ctx region va : Nat) (write : Bool) : State :=
  match tget s.ctxs ctx with
  | some c => modVf s dev c.vf fun v =>
      let post : PagePost := ⟨ctx, region, va, write⟩
      if v.posts.contains post then v else { v with posts := v.posts ++ [post] }
  | none => s

/-- Bytes arrive at the point of coherence, run by run. -/
def placeBytes (s : State) : List (Nat × Nat) → List Byte → State
  | [], _ => s
  | (k, n) :: rs, bs =>
    let s := claim s k
    placeBytes (clearErr { s with mem := writeBytes s.mem k (bs.take n) } k n) rs (bs.drop n)

/-- R328: a region knows a message no longer. -/
def forget (regs : Tbl Registration) (key msg : Nat) : Tbl Registration :=
  tmod regs key fun g => { g with known := g.known.filter (· ≠ (msg, key)) }

/-- R328: a message is NACKed with invalid-key: it has failed, and nothing of it is awaited. -/
def refuseMsg (s : State) (dev key msg : Nat) : State :=
  sendAnswer (modRunnel s dev fun r => { r with rx := tdel r.rx msg, regs := forget r.regs key msg }) dev msg 3 0

/-- R325, R327: the message's last packet is placed: the acknowledgement, and its completion, at once or when the queue pair's
state has been fetched. -/
def completeMsg (s : State) (dev qp key msg : Nat) : State :=
  let s := modRunnel s dev fun r => { r with
    rx := tdel r.rx msg
    regs := forget r.regs key msg }
  let s := sendAnswer s dev msg 0 0
  modRunnel s dev fun r => if (qpOf r qp).resident then { r with posted := r.posted ++ [(qp, msg)] }
    else { r with late := r.late ++ [(qp, msg)] }

/-- R328: the region a packet names knows its message from its first packet on. -/
def knowMsg (s : State) (dev key msg : Nat) : State :=
  modRunnel s dev fun r => { r with regs := tmod r.regs key fun g =>
    if g.revoked || g.known.contains (msg, key) then g else { g with known := (msg, key) :: g.known } }

/-- R325, R327, R328: a packet that its queue pair takes: the key, the tables, the page, then its bytes. A message whose first packet
has arrived is known, whatever becomes of that packet. The message is complete when its packets have placed its length. -/
def takePacket (s : State) (dev : Nat) (p : Packet) : State :=
  let r := runnelOf s dev
  let msg := msgKey p.src p.msg
  match tget r.regs p.key with
  | none => sendAnswer s dev msg 3 0
  | some g =>
    let x := tgetD r.rx msg ⟨p.qp, p.key, [], 0⟩
    if g.revoked && !g.known.contains (msg, p.key) then sendAnswer s dev msg 3 0
    else if x.placed.contains p.idx then s
    else
      let s := knowMsg s dev p.key msg
      if (tget r.rx msg).isNone && decide (65536 ≤ r.rx.length) then sendAnswer s dev msg 1 0
      else if !(qpOf r p.qp).resident && decide (256 ≤ r.late.length) then sendAnswer s dev msg 1 0
      else match placing s g p.off p.data.length true with
      | .invalid => refuseMsg s dev p.key msg
      | .page region va => sendAnswer (postAdapter s dev g.ctx region va true) dev msg 2 p.idx
      | .keys rs =>
        let s := placeBytes s rs p.data
        let bytes := x.bytes + p.data.length
        let s := modRunnel s dev fun r => { r with rx := tput r.rx msg ⟨p.qp, p.key, p.idx :: x.placed, bytes⟩ }
        if p.len ≤ bytes then completeMsg s dev p.qp p.key msg else s

/-- R324: the fields of a packet are inside their ranges. -/
def packetOk (p : Packet) : Bool :=
  decide (p.key < 2 ^ 32 ∧ p.off < 2 ^ 64 ∧ p.msg < 2 ^ 48 ∧ p.idx < 1024 ∧ p.data.length ≤ 4096 ∧
    p.data.length ≤ p.len ∧ p.len ≤ 4194304)

/-- RUNNEL_PACKET_RX (R325-R328): only a ready queue pair receives; a send for an evicted one waits for its fetch. -/
def execRunnelPacketRx (dev : Nat) (p : Packet) (s : State) : Out :=
  let q := qpOf (runnelOf s dev) p.qp
  if !packetOk p || decide (q.state ≠ .ready) then .next s
  else if p.send && !q.resident then
    .next (modQp (knowMsg s dev p.key (msgKey p.src p.msg)) dev p.qp fun q => { q with
      waiting := q.waiting ++ [(clock s dev, p)] })
  else .next (takePacket s dev p)

/-! ### The sender (R324, R325, R328) -/

/-- R326: a queue pair enters error: its outstanding messages, and the transfers it has not sent, end with error. -/
def qpError (s : State) (dev qp : Nat) : State :=
  let q := qpOf (runnelOf s dev) qp
  modQp (modRunnel s dev fun r => { r with
    tx := r.tx.filter fun x => decide (x.2.qp ≠ qp)
    failed := r.failed ++ ((r.tx.filter fun x => decide (x.2.qp = qp)).map fun x => (qp, x.1)) ++ q.work.map fun _ => (qp, r.next) })
    dev qp fun q => { q with state := .error, work := [] }

/-- RUNNEL_ACK_RX (R325): the message is complete. -/
def execRunnelAckRx (dev msg : Nat) (s : State) : Out :=
  match tget (runnelOf s dev).tx msg with
  | none => .next s
  | some t => .next (modRunnel s dev fun r => { r with tx := tdel r.tx msg, posted := r.posted ++ [(t.qp, msg)] })

/-- R325, R326: the missing packets are sent again; after 7 resends the message fails and its queue pair enters error. -/
def resendMsg (s : State) (dev msg : Nat) (t : TxMsg) (missing : List Nat) : State :=
  if 7 ≤ t.resends then qpError s dev t.qp
  else
    let s := missing.foldl (fun s i => sendAnswer s dev msg 4 i) s
    let again := t.packets.filter fun p => missing.contains p.idx
    let t := { t with missing := missing, resends := t.resends + 1, due := clock s dev + usAc 32 }
    modRunnel s dev fun r => { r with tx := tput r.tx msg t, sent := r.sent ++ again }

/-- RUNNEL_NACK_RX (R325, R326, R327, R328): a selective NACK names the missing packets; retry-later waits for the timer; the hint of a
page sets the timer to 10 µs; an invalid key puts the queue pair in error. -/
def execRunnelNackRx (dev msg : Nat) (kind : Nack) (s : State) : Out :=
  match tget (runnelOf s dev).tx msg with
  | some t => .next (match kind with
    | .missing packets => resendMsg s dev msg t (packets.filter t.missing.contains)
    | .later => s
    | .page => modRunnel s dev fun r => { r with tx := tput r.tx msg { t with due := clock s dev + usAc 10 } }
    | .invalidKey => qpError s dev t.qp)
  | none => .next s

/-- RUNNEL_MSG_TIMEOUT (R325): the message's timer has expired. -/
def execRunnelMsgTimeout (dev msg : Nat) (s : State) : Out :=
  match tget (runnelOf s dev).tx msg with
  | some t => if t.due ≤ clock s dev then .next (resendMsg s dev msg t t.missing) else .next s
  | none => .next s

/-- R324: the bytes of a message's source. -/
inductive Source where
  | invalid
  | page (region va : Nat)
  | bytes (bs : List Byte)

/-- R324, R328: the bytes of a transfer from `off` on, 4,096 at a time. -/
def readSource (s : State) (x : Transfer) : Nat → Nat → Source
  | 0, _ => .bytes []
  | n + 1, off =>
    let size := min 4096 (x.bytes - off)
    if size = 0 then .bytes []
    else match placing s ⟨x.src, x.bytes, x.ctx, false, []⟩ off size false with
      | .invalid => .invalid
      | .page region va => .page region va
      | .keys rs => match engineRead s 0 false rs with
        | .error _ => .invalid
        | .ok bs => match readSource s x n (off + size) with
          | .bytes rest => .bytes (bs ++ rest)
          | r => r

/-- R324: the packets of a message: up to 4,096 bytes each, numbered from 0, to the peer of the queue pair, spread over 64 paths
(log 30). -/
def packetsOf (dev qp peer msg : Nat) (x : Transfer) (bs : List Byte) : List Packet :=
  (List.range (max 1 ((bs.length + 4095) / 4096))).map fun i =>
    ⟨dev, qp, x.key, x.off + 4096 * i, msg, i, bs.length, (bs.drop (4096 * i)).take 4096, x.send, peer,
      (Config.udpPort dev qp (i % 64)).toNat⟩

/-- R324, R328: a resident queue pair sends the next message of its first transfer, at most 4 MiB of it; a fault on the source stalls
this queue pair alone, and a source that is not there puts it in error. -/
def sendNext (dev qp : Nat) (s : State) : Out :=
  let r := runnelOf s dev
  let q := qpOf r qp
  match q.work with
  | [] => .next s
  | x :: rest =>
    if q.state ≠ .ready ∨ q.stalled ∨ q.resident = false then .next s
    else match readSource s { x with bytes := min x.bytes 4194304 } 1024 0 with
      | .invalid => .next (qpError s dev qp)
      | .page region va => .next (modQp (postAdapter s dev x.ctx region va false) dev qp fun q => { q with stalled := true })
      | .bytes bs =>
        let msg := r.next % 2 ^ 48
        let ps := packetsOf dev qp q.peer msg x bs
        let left := { x with src := advance x.src (bs.length : Int), bytes := x.bytes - bs.length, off := x.off + bs.length }
        let s := modQp s dev qp fun q => { q with work := if left.bytes = 0 then rest else left :: rest }
        .next (modRunnel s dev fun r => { r with
          next := r.next + 1
          sent := r.sent ++ ps
          tx := tput r.tx msg { qp := qp, packets := ps, missing := ps.map (·.idx), due := clock s dev + usAc 32 } })

/-! ### Queue pairs (R326, R327) -/

/-- R326: a queue pair becomes resident; when 4,096 are, the lowest other one is evicted (log 30). -/
def makeResident (s : State) (dev qp : Nat) : State :=
  let rs := (runnelOf s dev).qps.filter fun x => x.2.resident && decide (x.1 ≠ qp)
  let s := match rs with
    | x :: _ => if 4096 ≤ rs.length then modQp s dev x.1 fun q => { q with resident := false } else s
    | [] => s
  modQp s dev qp fun q => { q with resident := true }

/-- QP_CONFIGURE (R326): reset to init: the keys and the peer are set. The host acts over the host link, which reaches no device in
recovery mode (R334). -/
def execQpConfigure (dev : Nat) (c : QpConf) (s : State) : Out :=
  if linkUp s dev && decide ((qpOf (runnelOf s dev) c.qp).state = .reset) then
    .next (makeResident (modQp s dev c.qp fun q => { q with state := .init, peer := c.peer, keys := c.keys }) dev c.qp)
  else .next s

/-- QP_ENABLE (R326, R334): init to ready. -/
def execQpEnable (dev qp : Nat) (s : State) : Out :=
  if linkUp s dev && decide ((qpOf (runnelOf s dev) qp).state = .init) then
    .next (modQp s dev qp fun q => { q with state := .ready })
  else .next s

/-- R328: the messages of a queue pair that is reset are awaited no longer. -/
def forgetQp (r : Runnel) (qp : Nat) : Runnel :=
  (r.rx.filter fun x => decide (x.2.qp = qp)).foldl (fun r x => { r with rx := tdel r.rx x.1, regs := forget r.regs x.2.key x.1 }) r

/-- QP_RESET (R326, R334): error to reset. -/
def execQpReset (dev qp : Nat) (s : State) : Out :=
  if linkUp s dev && decide ((qpOf (runnelOf s dev) qp).state = .error) then
    .next (modQp (modRunnel s dev fun r => forgetQp r qp) dev qp fun q => { q with
      state := .reset, peer := 0, keys := [], stalled := false, waiting := [], work := [] })
  else .next s

/-- QP_CONTEXT_FETCHED (R327): the state arrives: late completions post in arrival order, waiting sends are taken. -/
def execQpContextFetched (dev qp : Nat) (s : State) : Out :=
  let q := qpOf (runnelOf s dev) qp
  if q.resident || (tget (runnelOf s dev).qps qp).isNone then .next s
  else
    let s := modQp (makeResident s dev qp) dev qp fun q => { q with waiting := [] }
    let s := modRunnel s dev fun r => { r with
      posted := r.posted ++ r.late.filter fun x => decide (x.1 = qp)
      late := r.late.filter fun x => decide (x.1 ≠ qp) }
    .next (if q.state = .ready then q.waiting.foldl (fun s p => takePacket s dev p.2) s else s)

/-- R327: a send has waited 2 µs for the fetch. -/
def sendLate (s : State) (dev : Nat) (x : Nat × Packet) : Bool := decide (x.1 + usAc 2 ≤ clock s dev)

/-- RUNNEL_SEND_WAIT_EXPIRY (R327): each send that has waited 2 µs is NACKed with retry-later. -/
def execRunnelSendWaitExpiry (dev qp : Nat) (s : State) : Out :=
  let q := qpOf (runnelOf s dev) qp
  if !q.waiting.any (sendLate s dev) then .next s
  else
    let t := (q.waiting.filter (sendLate s dev)).foldl (fun t x => sendAnswer t dev (msgKey x.2.src x.2.msg) 1 x.2.idx) s
    .next (modQp t dev qp fun q => { q with waiting := q.waiting.filter fun x => !sendLate s dev x })

/-! ### Revoking a registration (R328) -/

/-- REGISTRATION_REVOKE (R328): the revoke point. -/
def execRegistrationRevoke (dev key : Nat) (s : State) : Out :=
  .next (modRunnel s dev fun r => { r with regs := tmod r.regs key fun g => { g with revoked := true } })

/-- R325, R328: a message that a device of the pod has sent and no longer keeps: nothing more of it arrives. -/
def abandoned (s : State) (msg : Nat) : Bool :=
  let r := runnelOf s (msg / 2 ^ 48)
  decide (msg / 2 ^ 48 < s.fabric.devices ∧ msg % 2 ^ 48 < r.next) && (tget r.tx (msg % 2 ^ 48)).isNone

/-- REVOKE_COMPLETE (R328): every message accepted before the revoke point is placed, or has been given up; the key names nothing any
more. -/
def execRevokeComplete (dev key : Nat) (s : State) : Out :=
  match tget (runnelOf s dev).regs key with
  | some g => if g.revoked && g.known.all (fun m => abandoned s m.1) then .next (modRunnel s dev fun r => { r with regs := tdel r.regs key }) else .next s
  | none => .next s

end Sys2Proof.Machine
end

