-- ==== Sys2Proof/Machine/Agenda.lean ====
section
/-! DEFINITION. What the machine does of its own accord, in the order in which the model tries it (log 1): each entry is an
event of the table whose condition may hold. -/
namespace Sys2Proof.Machine

/-- R178, R190, R299, R137: the next event of a request; one that the load-store unit holds is sent by its team. -/
def reqEvents (x : Nat × Req) : List (State → Out) :=
  match x.2.phase with
  | .toSite => [execHomeServe x.1]
  | .registry => [execRegistryLookup x.1]
  | .answered => [execRegistryAnswer x.1]
  | .forwarding => [execStubForward x.1]
  | .asked => [execAskReceive x.1]
  | .notHere => [execNotHereReceive x.1]
  | .replied => [execReplyReceive x.1]
  | .egress => [execSluiceEgress x.1]
  | .combining => []
  | .queued => []
  | .held => []

/-- R300, R304, R312: the next event of a message of the fabric. -/
def msgEvents (x : Nat × Msg) : List (State → Out) :=
  match x.2 with
  | .creq .. => [execCreq x.1]
  | .cred .. => [execCred x.1]
  | .crsp .. => [execCrsp x.1 false]
  | .cack .. => [execCack x.1]
  | .split .. => [execFabSplit x.1]
  | .done .. => [execFabDone x.1]
  | .lost .. => [execFabLost x.1]
  | .drsp .. => [execDrsp x.1]
  | .mcast _ _ _ _ _ _ _ pending _ sent =>
    if !sent then [execMcastReplicate x.1]
    else match pending with
      | [] => [execMcastAckReceive x.1]
      | r :: _ => [execMcastMemberAnswer x.1 r]

/-- R223-R229: the events of the engines of a block. -/
def engineEvents (id : Nat) (b : Block) : List (State → Out) :=
  let of (gather : Bool) (q : List EngOp) : List (State → Out) := q.flatMap fun x =>
    let r : EngRef := ⟨id, gather, x.num⟩
    [execEngineStart r, execEngineAccess r, execEngineBytesLand r (16 * x.landing.length), execEngineComplete r]
  of false b.copyQ ++ of true b.gathQ

/-- The events of a block. -/
def blockEvents (x : Nat × Block) : List (State → Out) :=
  if x.2.left then []
  else [execScratchpadFillDone x.1] ++ engineEvents x.1 x.2 ++
    (if x.2.matQ.isEmpty then [] else [execSlotAllocate x.1, execPlaneLoadDone x.1]) ++
    (if x.2.exited then [execBlockLeave x.1] else [])

/-- The slot kinds of a context. -/
def slotKinds (wide : Bool) : List SlotSel := if wide then [.wide] else [.a, .b]

/-- R263: the first of the best places for the next block of a node. -/
def choosePlace (s : State) (key : Nat) (n : Node) : Option (Nat × Nat × SlotSel) :=
  [n.die, 1 - n.die].findSome? fun die => match bestRank s key n die with
    | none => none
    | some best => (List.range 128).findSome? fun core => (slotKinds n.desc.wide).findSome? fun sl =>
        match placeSet s key n die core sl with
        | some (r, _) => if r = best then some (die, core, sl) else none
        | none => none

/-- The events of a node. -/
def nodeEvents (x : Nat × Node) : List (State → Out) :=
  match x.2.state with
  | .waiting => []
  | .ready => [execDispatch x.2.dev, execNodeAging x.1]
  | _ => (if x.2.speculating then [execShapeResolve x.1] else []) ++
    (if x.2.next < x.2.blocks then [fun s => match choosePlace s x.1 x.2 with
      | some (die, core, sl) => execBlockPlace x.1 die core sl s
      | none => .next s] else [])

/-- R284: where a saved context may stream in, and no other context would take its place at once. -/
def chooseSlot (s : State) (id : Nat) (c : Ctx) : Option (Nat × Nat × SlotSel) :=
  [c.die, 1 - c.die].findSome? fun die => (List.range 128).findSome? fun core =>
    (slotKinds (decide (c.slot = .wide))).findSome? fun sl =>
      let c' := { c with die := die, core := core }
      if canStreamIn s id c die core sl && !laterImage s c die core sl && !outranked s c' && !(!holdsCore s c' && noneReady s c') then
        some (die, core, sl)
      else none

/-- R262, R33: the end of a quantum changes something on a core: another VF may hold it, or two contexts of a cooperative launch
share it. -/
def sharedCore (s : State) (c : Ctx) : Bool :=
  let turn := holderOf s c.dev c.die c.core
  (List.range 17).any (fun v => decide (v ≠ turn) && mayHold s c.dev c.die c.core v) ||
    (isCoop s c && decide (2 ≤ (slotsOf s c.dev c.die c.core).length))

/-- R262: the end of the quantum of a core, where it matters. -/
def quantumEvent (c : Ctx) (s : State) : Out := if sharedCore s c then execQuantumEnd (ctxCore c) s else .next s

/-- The events of a context. -/
def ctxEvents (x : Nat × Ctx) : List (State → Out) :=
  (x.2.parked.map fun p => execStoreAckReceive x.1 p.set) ++
  (if x.2.out = 0 then [] else [execStoreAckReceive x.1 x.2.set]) ++
  match x.2.state with
  | .running => [execMatrixExecute x.1, execSlotSwitch (ctxCore x.2), quantumEvent x.2]
  | .ready => [execSlotSwitch (ctxCore x.2), quantumEvent x.2]
  | .streamingOut => [execStreamOutComplete x.1]
  | .streamingIn => [execStreamInComplete x.1]
  | .saved => [fun s => match chooseSlot s x.1 x.2 with
      | some (die, core, sl) => execStreamIn x.1 die core sl true s
      | none => .next s]
  | .assigned => [execStreamIn x.1 x.2.die x.2.core x.2.slot true]
  | .left => []

/-- R262, R333, R33: a stream-out, when nothing else moves: of a context on a gated cluster, of a cooperative launch that goes, of a VF
without a quantum, or from a core without an empty slot. -/
def outEvents (s : State) (x : Nat × Ctx) : List (State → Out) :=
  if decide (x.2.state = .running ∨ x.2.state = .ready) && (onGated s x.2 || leaving s x.2 ||
      (decide (x.2.state = .running ∧ holderOf s x.2.dev x.2.die x.2.core = noVf) && !urgent s x.2) ||
      (slotKinds (decide (x.2.slot = .wide))).all fun sl => !slotEmpty s x.2.dev x.2.die x.2.core sl) then [execStreamOut x.1] else []

/-- R150, R248, R278: the events of a team. -/
def teamEvents (x : Nat × Team) : List (State → Out) :=
  match x.2.wait with
  | .sleep _ => [execSleepWake x.1]
  | .waita false _ ws => if ws.any (fun w => !w.mon) then [execWaitaRecheck x.1] else []
  | _ => []

/-- R320: the events of the rings of a VF: a slot that firmware has found, and its poll. -/
def ringEvents (dev : Nat) (v : Nat × VfCore) : List (State → Out) :=
  (v.2.rings.flatMap fun r => match r.2.pending with
    | some 1 => [execRingNode dev v.1 r.1]
    | some 2 => [execRingSvc dev v.1 r.1]
    | some 3 => [execRingCancel dev v.1 r.1]
    | some 4 => [execRingNop dev v.1 r.1]
    | _ => []) ++
  if v.2.rings.isEmpty then [] else [execFirmwareRingPoll dev v.1]

/-- R324-R328: the events of a Runnel adapter. -/
def runnelEvents (dev : Nat) (r : Runnel) : List (State → Out) :=
  (r.qps.flatMap fun q =>
    (if q.2.work.isEmpty then [] else [sendNext dev q.1]) ++
    (if q.2.resident || (q.2.work.isEmpty && q.2.waiting.isEmpty && r.late.all fun l => decide (l.1 ≠ q.1)) then []
      else [execQpContextFetched dev q.1, execRunnelSendWaitExpiry dev q.1])) ++
  (r.tx.map fun x => execRunnelMsgTimeout dev x.1) ++
  r.regs.flatMap fun g => if g.2.revoked then [execRevokeComplete dev g.1] else []

/-- R265, R320, R324: the events of a device. -/
def devEvents (x : Nat × Device) : List (State → Out) :=
  x.2.vfcores.flatMap (ringEvents x.1) ++ (x.2.timers.map fun t => execNotifyWindowExpiry x.1 t.1) ++ runnelEvents x.1 x.2.runnel

/-- R180, R191: the events of a site. -/
def siteEvents (s : State) (x : Nat × Site) : List (State → Out) :=
  [execWindowEnd x.1] ++ (if x.2.purging.isEmpty then [] else
    match (List.range (2 * s.fabric.devices)).find? fun d => !x.2.purgeAcks.contains d with
    | some d => [execPurgeAck x.1 d]
    | none => [])

/-- R302, R303: a plane that recovers, and requests that wait too long. -/
def planeEvents (s : State) : List (State → Out) :=
  s.fabric.recovering.map (fun p => execPlaneRecoveryEnd p.1) ++
  s.reqs.flatMap fun x => if x.2.site / 2 = x.2.from_ / 2 then [] else [execRequestTimeout x.1]

/-- R267: the reservation of a gang, and the end of one that has not committed. -/
def gangEvents (x : Nat × Gang) : List (State → Out) :=
  if x.2.reserved then [] else if x.2.until_.isSome then [execGangReserve x.1, execGangReserveTimeout x.1]
  else if x.2.nodes.isEmpty then [] else [execGangReserve x.1]

/-- Every event that the machine brings about itself. What the outside brings (the host, the debugger, errors, links, power) comes by
the agenda only. -/
def autoEvents (s : State) : List (State → Out) :=
  s.reqs.flatMap reqEvents ++ s.fabric.msgs.flatMap msgEvents ++
  s.fabric.combs.map (fun x => execCombineHoldExpiry x.1) ++ planeEvents s ++ s.moves.map (fun x => execFrameTransferDone x.1) ++
  s.blocks.flatMap blockEvents ++ s.ctxs.flatMap ctxEvents ++ s.teams.flatMap teamEvents ++
  s.nodes.flatMap nodeEvents ++ s.colls.map (fun x => execCollSequenceStart x.2.gid x.2.seq false) ++
  s.gangs.flatMap gangEvents ++ s.ctxs.flatMap (outEvents s) ++ s.devs.flatMap devEvents ++
  s.sites.flatMap (siteEvents s)

end Sys2Proof.Machine
end

