-- ==== Sys2Proof/Machine/Uniform.lean ====
section
/-! DEFINITION. Uniform instructions: majors 0x18 and 0x19 and their immediates 0x0A (R73, R79, R113, R114). -/
namespace Sys2Proof.Machine

/-- R113: kd := ka op kb, once per team. -/
def uniRK (o : RK) (f : IntFn) (signed : Bool) (s : State) : Out :=
  withTeam s [] [] [(o.a.toNat, 1), (o.b.toNat, 1)] (kd := [(o.d.toNat, 1)]) fun t =>
    finish s (kset t o.d.toNat (BitVec.ofNat 32 (f 32 signed false (kget t o.a.toNat).toNat (kget t o.b.toNat).toNat 0))) 4

/-- R79, R113: kd := ka op imm32. -/
def uniImm (o : I64) (f : IntFn) (signed : Bool) (s : State) : Out :=
  withTeam s [] [] [(sub o.va 0 6, 1)] (kd := [(sub o.vd 0 6, 1)]) fun t =>
    finish s (kset t (sub o.vd 0 6) (BitVec.ofNat 32 (f 32 signed false (kget t (sub o.va 0 6)).toNat o.imm.toNat 0))) 8

/-- R73: KMOV copies ka. -/
def execKmov (o : RKMov) (s : State) : Out :=
  withTeam s [] [] [(o.a.toNat, 1)] (kd := [(o.d.toNat, 1)]) fun t => finish s (kset t o.d.toNat (kget t o.a.toNat)) 4

/-- R79: KMOV writes imm32. -/
def execKmovImm (o : I64) (s : State) : Out :=
  withTeam s [] [] [] (kd := [(sub o.vd 0 6, 1)]) fun t => finish s (kset t (sub o.vd 0 6) o.imm) 8

/-- R113: KADD. -/
def execKadd (o : RK) (s : State) : Out := uniRK o iAdd true s

/-- R79, R113: KADD with imm32. -/
def execKaddImm (o : I64) (s : State) : Out := uniImm o iAdd true s

/-- R113: KSUB. -/
def execKsub (o : RK) (s : State) : Out := uniRK o iSub true s

/-- R79, R113: KSUB with imm32. -/
def execKsubImm (o : I64) (s : State) : Out := uniImm o iSub true s

/-- R113: KMUL. -/
def execKmul (o : RK) (s : State) : Out := uniRK o iMul true s

/-- R79, R113: KMUL with imm32. -/
def execKmulImm (o : I64) (s : State) : Out := uniImm o iMul true s

/-- R113: KAND. -/
def execKand (o : RK) (s : State) : Out := uniRK o iAnd true s

/-- R79, R113: KAND with imm32. -/
def execKandImm (o : I64) (s : State) : Out := uniImm o iAnd true s

/-- R113: KOR. -/
def execKor (o : RK) (s : State) : Out := uniRK o iOr true s

/-- R79, R113: KOR with imm32. -/
def execKorImm (o : I64) (s : State) : Out := uniImm o iOr true s

/-- R113: KXOR. -/
def execKxor (o : RK) (s : State) : Out := uniRK o iXor true s

/-- R79, R113: KXOR with imm32. -/
def execKxorImm (o : I64) (s : State) : Out := uniImm o iXor true s

/-- R113: KSHL. -/
def execKshl (o : RK) (s : State) : Out := uniRK o iShl true s

/-- R79, R113: KSHL with imm32. -/
def execKshlImm (o : I64) (s : State) : Out := uniImm o iShl true s

/-- R113: KSHR. -/
def execKshr (o : RK) (s : State) : Out := uniRK o iShr true s

/-- R79, R113: KSHR with imm32. -/
def execKshrImm (o : I64) (s : State) : Out := uniImm o iShr true s

/-- R113: KSAR. -/
def execKsar (o : RK) (s : State) : Out := uniRK o iSar true s

/-- R79, R113: KSAR with imm32. -/
def execKsarImm (o : I64) (s : State) : Out := uniImm o iSar true s

/-- R113: KMIN. -/
def execKmin (o : RK) (s : State) : Out := uniRK o iMin true s

/-- R79, R113: KMIN with imm32. -/
def execKminImm (o : I64) (s : State) : Out := uniImm o iMin true s

/-- R113: KMAX. -/
def execKmax (o : RK) (s : State) : Out := uniRK o iMax true s

/-- R79, R113: KMAX with imm32. -/
def execKmaxImm (o : I64) (s : State) : Out := uniImm o iMax true s

/-- R113: KMIN_N. -/
def execKminN (o : RK) (s : State) : Out := uniRK o iMin false s

/-- R79, R113: KMIN_N with imm32. -/
def execKminNImm (o : I64) (s : State) : Out := uniImm o iMin false s

/-- R113: KMAX_N. -/
def execKmaxN (o : RK) (s : State) : Out := uniRK o iMax false s

/-- R79, R113: KMAX_N with imm32. -/
def execKmaxNImm (o : I64) (s : State) : Out := uniImm o iMax false s

/-- R73: KCMP writes 1 or 0. -/
def execKcmp (o : RKCmp) (s : State) : Out :=
  withTeam s [] [] [(o.a.toNat, 1), (o.b.toNat, 1)] (kd := [(o.d.toNat, 1)]) fun t =>
    finish s (kset t o.d.toNat (if wideCond 32 o.c.toNat (kget t o.a.toNat).toNat (kget t o.b.toNat).toNat then 1 else 0)) 4

/-- R79: KCMP against imm32; minor 16 to 25 are the conditions of major 0x19. -/
def execKcmpImm (o : I64) (s : State) : Out :=
  withTeam s [] [] [(sub o.va 0 6, 1)] (kd := [(sub o.vd 0 6, 1)]) fun t =>
    finish s (kset t (sub o.vd 0 6)
      (if wideCond 32 (o.m.toNat - 16) (kget t (sub o.va 0 6)).toNat o.imm.toNat then 1 else 0)) 8

end Sys2Proof.Machine
end

