-- ==== Sys2Proof/Machine/Dispatch.lean ====
section
/-! DEFINITION. The dispatch: one arm per row of spec/opcode_table.json, each one direct call of its meaning. -/
namespace Sys2Proof.Machine

/-- R83, R95: what an instruction does once it is decoded; an event of the machine acts likewise. -/
def exec (i : Instr) (s : State) : Host.Outcome State Fault Refusal :=
  match i with
  | .movC16 o => Sys2Proof.Machine.execMovC16 o s
  | .iaddC16 o => Sys2Proof.Machine.execIaddC16 o s
  | .isubC16 o => Sys2Proof.Machine.execIsubC16 o s
  | .imulC16 o => Sys2Proof.Machine.execImulC16 o s
  | .iandC16 o => Sys2Proof.Machine.execIandC16 o s
  | .iorC16 o => Sys2Proof.Machine.execIorC16 o s
  | .ixorC16 o => Sys2Proof.Machine.execIxorC16 o s
  | .ishlC16 o => Sys2Proof.Machine.execIshlC16 o s
  | .ishrC16 o => Sys2Proof.Machine.execIshrC16 o s
  | .isarC16 o => Sys2Proof.Machine.execIsarC16 o s
  | .iminC16 o => Sys2Proof.Machine.execIminC16 o s
  | .imaxC16 o => Sys2Proof.Machine.execImaxC16 o s
  | .faddC16 o => Sys2Proof.Machine.execFaddC16 o s
  | .fsubC16 o => Sys2Proof.Machine.execFsubC16 o s
  | .fmulC16 o => Sys2Proof.Machine.execFmulC16 o s
  | .fmaxC16 o => Sys2Proof.Machine.execFmaxC16 o s
  | .iaddL3 o => Sys2Proof.Machine.execIaddL3 o s
  | .isubL3 o => Sys2Proof.Machine.execIsubL3 o s
  | .imulL3 o => Sys2Proof.Machine.execImulL3 o s
  | .imulhL3 o => Sys2Proof.Machine.execImulhL3 o s
  | .iandL3 o => Sys2Proof.Machine.execIandL3 o s
  | .iorL3 o => Sys2Proof.Machine.execIorL3 o s
  | .ixorL3 o => Sys2Proof.Machine.execIxorL3 o s
  | .ishlL3 o => Sys2Proof.Machine.execIshlL3 o s
  | .ishrL3 o => Sys2Proof.Machine.execIshrL3 o s
  | .isarL3 o => Sys2Proof.Machine.execIsarL3 o s
  | .iminL3 o => Sys2Proof.Machine.execIminL3 o s
  | .imaxL3 o => Sys2Proof.Machine.execImaxL3 o s
  | .faddL3 o => Sys2Proof.Machine.execFaddL3 o s
  | .fsubL3 o => Sys2Proof.Machine.execFsubL3 o s
  | .fmulL3 o => Sys2Proof.Machine.execFmulL3 o s
  | .iaddRi o => Sys2Proof.Machine.execIaddRi o s
  | .iandRi o => Sys2Proof.Machine.execIandRi o s
  | .iorRi o => Sys2Proof.Machine.execIorRi o s
  | .ixorRi o => Sys2Proof.Machine.execIxorRi o s
  | .ishlRi o => Sys2Proof.Machine.execIshlRi o s
  | .ishrRi o => Sys2Proof.Machine.execIshrRi o s
  | .isarRi o => Sys2Proof.Machine.execIsarRi o s
  | .movRi o => Sys2Proof.Machine.execMovRi o s
  | .kmov o => Sys2Proof.Machine.execKmov o s
  | .kadd o => Sys2Proof.Machine.execKadd o s
  | .ksub o => Sys2Proof.Machine.execKsub o s
  | .kmul o => Sys2Proof.Machine.execKmul o s
  | .kand o => Sys2Proof.Machine.execKand o s
  | .kor o => Sys2Proof.Machine.execKor o s
  | .kxor o => Sys2Proof.Machine.execKxor o s
  | .kshl o => Sys2Proof.Machine.execKshl o s
  | .kshr o => Sys2Proof.Machine.execKshr o s
  | .ksar o => Sys2Proof.Machine.execKsar o s
  | .kmin o => Sys2Proof.Machine.execKmin o s
  | .kmax o => Sys2Proof.Machine.execKmax o s
  | .kminN o => Sys2Proof.Machine.execKminN o s
  | .kmaxN o => Sys2Proof.Machine.execKmaxN o s
  | .kcmp o => Sys2Proof.Machine.execKcmp o s
  | .bra o => Sys2Proof.Machine.execBra o s
  | .call o => Sys2Proof.Machine.execCall o s
  | .div o => Sys2Proof.Machine.execDiv o s
  | .ldBM o => Sys2Proof.Machine.execLdBM o s
  | .ldHM o => Sys2Proof.Machine.execLdHM o s
  | .ldWM o => Sys2Proof.Machine.execLdWM o s
  | .ldDM o => Sys2Proof.Machine.execLdDM o s
  | .ldQM o => Sys2Proof.Machine.execLdQM o s
  | .stBM o => Sys2Proof.Machine.execStBM o s
  | .stHM o => Sys2Proof.Machine.execStHM o s
  | .stWM o => Sys2Proof.Machine.execStWM o s
  | .stDM o => Sys2Proof.Machine.execStDM o s
  | .stQM o => Sys2Proof.Machine.execStQM o s
  | .bkpt imm => Sys2Proof.Machine.execBkpt imm s
  | .trap num => Sys2Proof.Machine.execTrap num s
  | .iadd o => Sys2Proof.Machine.execIadd o s
  | .isub o => Sys2Proof.Machine.execIsub o s
  | .imul o => Sys2Proof.Machine.execImul o s
  | .imulh o => Sys2Proof.Machine.execImulh o s
  | .imad o => Sys2Proof.Machine.execImad o s
  | .imin o => Sys2Proof.Machine.execImin o s
  | .imax o => Sys2Proof.Machine.execImax o s
  | .iabs o => Sys2Proof.Machine.execIabs o s
  | .iand o => Sys2Proof.Machine.execIand o s
  | .ior o => Sys2Proof.Machine.execIor o s
  | .ixor o => Sys2Proof.Machine.execIxor o s
  | .ishl o => Sys2Proof.Machine.execIshl o s
  | .ishr o => Sys2Proof.Machine.execIshr o s
  | .isar o => Sys2Proof.Machine.execIsar o s
  | .irot o => Sys2Proof.Machine.execIrot o s
  | .ipopc o => Sys2Proof.Machine.execIpopc o s
  | .iclz o => Sys2Proof.Machine.execIclz o s
  | .ibrev o => Sys2Proof.Machine.execIbrev o s
  | .ibfx o => Sys2Proof.Machine.execIbfx o s
  | .ibfi o => Sys2Proof.Machine.execIbfi o s
  | .isel o => Sys2Proof.Machine.execIsel o s
  | .icmp o => Sys2Proof.Machine.execIcmp o s
  | .mov o => Sys2Proof.Machine.execMov o s
  | .fadd o => Sys2Proof.Machine.execFadd o s
  | .fsub o => Sys2Proof.Machine.execFsub o s
  | .fmul o => Sys2Proof.Machine.execFmul o s
  | .ffma o => Sys2Proof.Machine.execFfma o s
  | .fmin o => Sys2Proof.Machine.execFmin o s
  | .fmax o => Sys2Proof.Machine.execFmax o s
  | .fcmp o => Sys2Proof.Machine.execFcmp o s
  | .frcp o => Sys2Proof.Machine.execFrcp o s
  | .frsq o => Sys2Proof.Machine.execFrsq o s
  | .fexp2 o => Sys2Proof.Machine.execFexp2 o s
  | .flog2 o => Sys2Proof.Machine.execFlog2 o s
  | .fclass o => Sys2Proof.Machine.execFclass o s
  | .fcvt o => Sys2Proof.Machine.execFcvt o s
  | .i2f o => Sys2Proof.Machine.execI2f o s
  | .f2i o => Sys2Proof.Machine.execF2i o s
  | .frnd o => Sys2Proof.Machine.execFrnd o s
  | .shfl o => Sys2Proof.Machine.execShfl o s
  | .voteAny o => Sys2Proof.Machine.execVoteAny o s
  | .voteAll o => Sys2Proof.Machine.execVoteAll o s
  | .voteBallot o => Sys2Proof.Machine.execVoteBallot o s
  | .voteFfs o => Sys2Proof.Machine.execVoteFfs o s
  | .redux o => Sys2Proof.Machine.execRedux o s
  | .scan o => Sys2Proof.Machine.execScan o s
  | .padd o => Sys2Proof.Machine.execPadd o s
  | .pmake o => Sys2Proof.Machine.execPmake o s
  | .pgoid o => Sys2Proof.Machine.execPgoid o s
  | .poff o => Sys2Proof.Machine.execPoff o s
  | .plop o => Sys2Proof.Machine.execPlop o s
  | .pmovGet o => Sys2Proof.Machine.execPmovGet o s
  | .pmovSet o => Sys2Proof.Machine.execPmovSet o s
  | .k2v o => Sys2Proof.Machine.execK2v o s
  | .v2k o => Sys2Proof.Machine.execV2k o s
  | .iaddImm o => Sys2Proof.Machine.execIaddImm o s
  | .imulImm o => Sys2Proof.Machine.execImulImm o s
  | .iminImm o => Sys2Proof.Machine.execIminImm o s
  | .imaxImm o => Sys2Proof.Machine.execImaxImm o s
  | .iandImm o => Sys2Proof.Machine.execIandImm o s
  | .iorImm o => Sys2Proof.Machine.execIorImm o s
  | .ixorImm o => Sys2Proof.Machine.execIxorImm o s
  | .ishlImm o => Sys2Proof.Machine.execIshlImm o s
  | .ishrImm o => Sys2Proof.Machine.execIshrImm o s
  | .isarImm o => Sys2Proof.Machine.execIsarImm o s
  | .irotImm o => Sys2Proof.Machine.execIrotImm o s
  | .icmpImm o => Sys2Proof.Machine.execIcmpImm o s
  | .movImm o => Sys2Proof.Machine.execMovImm o s
  | .faddImm o => Sys2Proof.Machine.execFaddImm o s
  | .fsubImm o => Sys2Proof.Machine.execFsubImm o s
  | .fmulImm o => Sys2Proof.Machine.execFmulImm o s
  | .fminImm o => Sys2Proof.Machine.execFminImm o s
  | .fmaxImm o => Sys2Proof.Machine.execFmaxImm o s
  | .fcmpImm o => Sys2Proof.Machine.execFcmpImm o s
  | .kmovImm o => Sys2Proof.Machine.execKmovImm o s
  | .kaddImm o => Sys2Proof.Machine.execKaddImm o s
  | .ksubImm o => Sys2Proof.Machine.execKsubImm o s
  | .kmulImm o => Sys2Proof.Machine.execKmulImm o s
  | .kandImm o => Sys2Proof.Machine.execKandImm o s
  | .korImm o => Sys2Proof.Machine.execKorImm o s
  | .kxorImm o => Sys2Proof.Machine.execKxorImm o s
  | .kshlImm o => Sys2Proof.Machine.execKshlImm o s
  | .kshrImm o => Sys2Proof.Machine.execKshrImm o s
  | .ksarImm o => Sys2Proof.Machine.execKsarImm o s
  | .kminImm o => Sys2Proof.Machine.execKminImm o s
  | .kmaxImm o => Sys2Proof.Machine.execKmaxImm o s
  | .kminNImm o => Sys2Proof.Machine.execKminNImm o s
  | .kmaxNImm o => Sys2Proof.Machine.execKmaxNImm o s
  | .kcmpImm o => Sys2Proof.Machine.execKcmpImm o s
  | .srd o => Sys2Proof.Machine.execSrd o s
  | .swr o => Sys2Proof.Machine.execSwr o s
  | .kloop o => Sys2Proof.Machine.execKloop o s
  | .ld o => Sys2Proof.Machine.execLd o s
  | .st o => Sys2Proof.Machine.execSt o s
  | .atomAdd o => Sys2Proof.Machine.execAtomAdd o s
  | .atomAddCmb o => Sys2Proof.Machine.execAtomAddCmb o s
  | .atomAddNoc o => Sys2Proof.Machine.execAtomAddNoc o s
  | .atomAddCmbNoc o => Sys2Proof.Machine.execAtomAddCmbNoc o s
  | .atomMin o => Sys2Proof.Machine.execAtomMin o s
  | .atomMax o => Sys2Proof.Machine.execAtomMax o s
  | .atomMinN o => Sys2Proof.Machine.execAtomMinN o s
  | .atomMaxN o => Sys2Proof.Machine.execAtomMaxN o s
  | .atomAnd o => Sys2Proof.Machine.execAtomAnd o s
  | .atomOr o => Sys2Proof.Machine.execAtomOr o s
  | .atomXor o => Sys2Proof.Machine.execAtomXor o s
  | .atomExch o => Sys2Proof.Machine.execAtomExch o s
  | .atomCas o => Sys2Proof.Machine.execAtomCas o s
  | .atomFadd o => Sys2Proof.Machine.execAtomFadd o s
  | .redAdd o => Sys2Proof.Machine.execRedAdd o s
  | .redAddNoc o => Sys2Proof.Machine.execRedAddNoc o s
  | .redMin o => Sys2Proof.Machine.execRedMin o s
  | .redMax o => Sys2Proof.Machine.execRedMax o s
  | .redMinN o => Sys2Proof.Machine.execRedMinN o s
  | .redMaxN o => Sys2Proof.Machine.execRedMaxN o s
  | .redAnd o => Sys2Proof.Machine.execRedAnd o s
  | .redOr o => Sys2Proof.Machine.execRedOr o s
  | .redXor o => Sys2Proof.Machine.execRedXor o s
  | .waita o => Sys2Proof.Machine.execWaita o s
  | .fenceAcq o => Sys2Proof.Machine.execFenceAcq o s
  | .fenceRel o => Sys2Proof.Machine.execFenceRel o s
  | .fenceAr o => Sys2Proof.Machine.execFenceAr o s
  | .stMc o => Sys2Proof.Machine.execStMc o s
  | .kld o => Sys2Proof.Machine.execKld o s
  | .kst o => Sys2Proof.Machine.execKst o s
  | .barArv o => Sys2Proof.Machine.execBarArv o s
  | .barWait o => Sys2Proof.Machine.execBarWait o s
  | .barSync o => Sys2Proof.Machine.execBarSync o s
  | .barExp o => Sys2Proof.Machine.execBarExp o s
  | .barTest o => Sys2Proof.Machine.execBarTest o s
  | .tagWait o => Sys2Proof.Machine.execTagWait o s
  | .tagFfs o => Sys2Proof.Machine.execTagFfs o s
  | .tagClr o => Sys2Proof.Machine.execTagClr o s
  | .tlWait o => Sys2Proof.Machine.execTlWait o s
  | .tlRd o => Sys2Proof.Machine.execTlRd o s
  | .racq o => Sys2Proof.Machine.execRacq o s
  | .rrel o => Sys2Proof.Machine.execRrel o s
  | .brm o => Sys2Proof.Machine.execBrm o s
  | .mlds o => Sys2Proof.Machine.execMlds o s
  | .mma o => Sys2Proof.Machine.execMma o s
  | .mloop o => Sys2Proof.Machine.execMloop o s
  | .mzero o => Sys2Proof.Machine.execMzero o s
  | .mrel o => Sys2Proof.Machine.execMrel o s
  | .mrd o => Sys2Proof.Machine.execMrd o s
  | .mqnt o => Sys2Proof.Machine.execMqnt o s
  | .mscac o => Sys2Proof.Machine.execMscac o s
  | .mcbl o => Sys2Proof.Machine.execMcbl o s
  | .mhndGet o => Sys2Proof.Machine.execMhndGet o s
  | .mhndSet o => Sys2Proof.Machine.execMhndSet o s
  | .cpy o => Sys2Proof.Machine.execCpy o s
  | .gath o => Sys2Proof.Machine.execGath o s
  | .scat o => Sys2Proof.Machine.execScat o s
  | .xld o => Sys2Proof.Machine.execXld o s
  | .xadd o => Sys2Proof.Machine.execXadd o s
  | .xset o => Sys2Proof.Machine.execXset o s
  | .xqry o => Sys2Proof.Machine.execXqry o s
  | .collAllReduce o => Sys2Proof.Machine.execCollAllReduce o s
  | .collReduceScatter o => Sys2Proof.Machine.execCollReduceScatter o s
  | .collAllGather o => Sys2Proof.Machine.execCollAllGather o s
  | .collAllToAll o => Sys2Proof.Machine.execCollAllToAll o s
  | .collBroadcast o => Sys2Proof.Machine.execCollBroadcast o s
  | .grpq o => Sys2Proof.Machine.execGrpq o s
  | .oqry o => Sys2Proof.Machine.execOqry o s
  | .ohint o => Sys2Proof.Machine.execOhint o s
  | .opin o => Sys2Proof.Machine.execOpin o s
  | .ounpin o => Sys2Proof.Machine.execOunpin o s
  | .oalloc o => Sys2Proof.Machine.execOalloc o s
  | .ofree o => Sys2Proof.Machine.execOfree o s
  | .oext o => Sys2Proof.Machine.execOext o s
  | .otrim o => Sys2Proof.Machine.execOtrim o s
  | .ogrp o => Sys2Proof.Machine.execOgrp o s
  | .shpRd o => Sys2Proof.Machine.execShpRd o s
  | .shpWait o => Sys2Proof.Machine.execShpWait o s
  | .shpPub o => Sys2Proof.Machine.execShpPub o s
  | .launch o => Sys2Proof.Machine.execLaunch o s
  | .cancel o => Sys2Proof.Machine.execCancel o s
  | .ctrRd o => Sys2Proof.Machine.execCtrRd o s
  | .sys o => Sys2Proof.Machine.execSys o s
  | .sleep o => Sys2Proof.Machine.execSleep o s
  | .laneFaultTrap team => Sys2Proof.Machine.execLaneFaultTrap team s
  | .dispatch dev => Sys2Proof.Machine.execDispatch dev s
  | .blockPlace node die core slot => Sys2Proof.Machine.execBlockPlace node die core slot s
  | .scratchpadFillDone block => Sys2Proof.Machine.execScratchpadFillDone block s
  | .nodeAging node => Sys2Proof.Machine.execNodeAging node s
  | .quantumEnd core => Sys2Proof.Machine.execQuantumEnd core s
  | .slotSwitch core => Sys2Proof.Machine.execSlotSwitch core s
  | .streamOut ctx => Sys2Proof.Machine.execStreamOut ctx s
  | .streamOutComplete ctx => Sys2Proof.Machine.execStreamOutComplete ctx s
  | .streamIn ctx die core slot digestOk => Sys2Proof.Machine.execStreamIn ctx die core slot digestOk s
  | .streamInComplete ctx => Sys2Proof.Machine.execStreamInComplete ctx s
  | .blockLeave block => Sys2Proof.Machine.execBlockLeave block s
  | .notifyWindowExpiry dev timer => Sys2Proof.Machine.execNotifyWindowExpiry dev timer s
  | .gangReserve gang => Sys2Proof.Machine.execGangReserve gang s
  | .gangReserveTimeout gang => Sys2Proof.Machine.execGangReserveTimeout gang s
  | .shapeResolve node => Sys2Proof.Machine.execShapeResolve node s
  | .sleepWake team => Sys2Proof.Machine.execSleepWake team s
  | .matrixExecute ctx => Sys2Proof.Machine.execMatrixExecute ctx s
  | .slotAllocate block => Sys2Proof.Machine.execSlotAllocate block s
  | .planeLoadDone block => Sys2Proof.Machine.execPlaneLoadDone block s
  | .engineStart o => Sys2Proof.Machine.execEngineStart o s
  | .engineAccess o => Sys2Proof.Machine.execEngineAccess o s
  | .engineBytesLand o bytes => Sys2Proof.Machine.execEngineBytesLand o bytes s
  | .engineComplete o => Sys2Proof.Machine.execEngineComplete o s
  | .collSequenceStart gid seq abort => Sys2Proof.Machine.execCollSequenceStart gid seq abort s
  | .homeServe req => Sys2Proof.Machine.execHomeServe req s
  | .waitaRecheck team => Sys2Proof.Machine.execWaitaRecheck team s
  | .stubForward req => Sys2Proof.Machine.execStubForward req s
  | .notHereReceive req => Sys2Proof.Machine.execNotHereReceive req s
  | .askReceive req => Sys2Proof.Machine.execAskReceive req s
  | .registryLookup req => Sys2Proof.Machine.execRegistryLookup req s
  | .registryAnswer req => Sys2Proof.Machine.execRegistryAnswer req s
  | .replyReceive req => Sys2Proof.Machine.execReplyReceive req s
  | .storeAckReceive ctx set => Sys2Proof.Machine.execStoreAckReceive ctx set s
  | .migrationRequest goid target tier2 => Sys2Proof.Machine.execMigrationRequest goid target tier2 s
  | .frameTransferDone move => Sys2Proof.Machine.execFrameTransferDone move s
  | .windowEnd site => Sys2Proof.Machine.execWindowEnd site s
  | .purge site serials => Sys2Proof.Machine.execPurge site serials s
  | .purgeAck site die => Sys2Proof.Machine.execPurgeAck site die s
  | .pageFaultResolved dev entry present => Sys2Proof.Machine.execPageFaultResolved dev entry present s
  | .flipDeviceToHost dev entry => Sys2Proof.Machine.execFlipDeviceToHost dev entry s
  | .flipHostToDevice dev entry => Sys2Proof.Machine.execFlipHostToDevice dev entry s
  | .flitRetry dev port crcOk => Sys2Proof.Machine.execFlitRetry dev port crcOk s
  | .planeDown plane => Sys2Proof.Machine.execPlaneDown plane s
  | .planeRecoveryEnd plane => Sys2Proof.Machine.execPlaneRecoveryEnd plane s
  | .requestTimeout req => Sys2Proof.Machine.execRequestTimeout req s
  | .sluiceEgress req => Sys2Proof.Machine.execSluiceEgress req s
  | .combineHoldExpiry entry => Sys2Proof.Machine.execCombineHoldExpiry entry s
  | .creq msg => Sys2Proof.Machine.execCreq msg s
  | .cred msg => Sys2Proof.Machine.execCred msg s
  | .crsp msg recordError => Sys2Proof.Machine.execCrsp msg recordError s
  | .cack msg => Sys2Proof.Machine.execCack msg s
  | .fabSplit msg => Sys2Proof.Machine.execFabSplit msg s
  | .fabDone msg => Sys2Proof.Machine.execFabDone msg s
  | .fabLost msg => Sys2Proof.Machine.execFabLost msg s
  | .drsp msg => Sys2Proof.Machine.execDrsp msg s
  | .mcastReplicate msg => Sys2Proof.Machine.execMcastReplicate msg s
  | .mcastMemberAnswer msg rank => Sys2Proof.Machine.execMcastMemberAnswer msg rank s
  | .mcastAckReceive msg => Sys2Proof.Machine.execMcastAckReceive msg s
  | .doorbell dev vf ring value => Sys2Proof.Machine.execDoorbell dev vf ring value s
  | .firmwareRingPoll dev vf => Sys2Proof.Machine.execFirmwareRingPoll dev vf s
  | .ringNode dev vf ring => Sys2Proof.Machine.execRingNode dev vf ring s
  | .ringSvc dev vf ring => Sys2Proof.Machine.execRingSvc dev vf ring s
  | .ringCancel dev vf ring => Sys2Proof.Machine.execRingCancel dev vf ring s
  | .ringNop dev vf ring => Sys2Proof.Machine.execRingNop dev vf ring s
  | .svcNop c => Sys2Proof.Machine.execSvcNop c s
  | .unitCreate c => Sys2Proof.Machine.execUnitCreate c s
  | .groupSet c => Sys2Proof.Machine.execGroupSet c s
  | .groupClear c => Sys2Proof.Machine.execGroupClear c s
  | .mapInval c => Sys2Proof.Machine.execMapInval c s
  | .faultRead c => Sys2Proof.Machine.execFaultRead c s
  | .attest c => Sys2Proof.Machine.execAttest c s
  | .hostBarWrite a => Sys2Proof.Machine.execHostBarWrite a s
  | .hostBarRead a => Sys2Proof.Machine.execHostBarRead a s
  | .hostAtomicop a op => Sys2Proof.Machine.execHostAtomicop a op s
  | .dbgHalt team ctx => Sys2Proof.Machine.execDbgHalt team ctx s
  | .dbgResume team => Sys2Proof.Machine.execDbgResume team s
  | .dbgStep team => Sys2Proof.Machine.execDbgStep team s
  | .dbgDetach team lane => Sys2Proof.Machine.execDbgDetach team lane s
  | .lstep team => Sys2Proof.Machine.execLstep team s
  | .runto team => Sys2Proof.Machine.execRunto team s
  | .runtoReached team => Sys2Proof.Machine.execRuntoReached team s
  | .dbgAttach team => Sys2Proof.Machine.execDbgAttach team s
  | .debugRead team what => Sys2Proof.Machine.execDebugRead team what s
  | .debugWrite team what value => Sys2Proof.Machine.execDebugWrite team what value s
  | .vfCoreReset dev vf => Sys2Proof.Machine.execVfCoreReset dev vf s
  | .kill dev vf => Sys2Proof.Machine.execKill dev vf s
  | .keySlotRevoke dev slot => Sys2Proof.Machine.execKeySlotRevoke dev slot s
  | .frameRetire site f => Sys2Proof.Machine.execFrameRetire site f s
  | .patrolScrub dev line => Sys2Proof.Machine.execPatrolScrub dev line s
  | .registerWrite r value => Sys2Proof.Machine.execRegisterWrite r value s
  | .powerOn dev step run => Sys2Proof.Machine.execPowerOn dev step run s
  | .powerSample dev watts temps => Sys2Proof.Machine.execPowerSample dev watts temps s
  | .thermalGateTick dev => Sys2Proof.Machine.execThermalGateTick dev s
  | .thermalRestoreTick dev => Sys2Proof.Machine.execThermalRestoreTick dev s
  | .thermalTrip dev => Sys2Proof.Machine.execThermalTrip dev s
  | .runnelPacketRx dev p => Sys2Proof.Machine.execRunnelPacketRx dev p s
  | .runnelAckRx dev msg => Sys2Proof.Machine.execRunnelAckRx dev msg s
  | .runnelNackRx dev msg kind => Sys2Proof.Machine.execRunnelNackRx dev msg kind s
  | .runnelMsgTimeout dev msg => Sys2Proof.Machine.execRunnelMsgTimeout dev msg s
  | .qpConfigure dev qp => Sys2Proof.Machine.execQpConfigure dev qp s
  | .qpEnable dev qp => Sys2Proof.Machine.execQpEnable dev qp s
  | .qpReset dev qp => Sys2Proof.Machine.execQpReset dev qp s
  | .qpContextFetched dev qp => Sys2Proof.Machine.execQpContextFetched dev qp s
  | .runnelSendWaitExpiry dev qp => Sys2Proof.Machine.execRunnelSendWaitExpiry dev qp s
  | .registrationRevoke dev key => Sys2Proof.Machine.execRegistrationRevoke dev key s
  | .revokeComplete dev key => Sys2Proof.Machine.execRevokeComplete dev key s
  | .debuggerAttach ctx => Sys2Proof.Machine.execDebuggerAttach ctx s
  | .debuggerDetach ctx => Sys2Proof.Machine.execDebuggerDetach ctx s
  | .spuriousWakeup team => Sys2Proof.Machine.execSpuriousWakeup team s
  | .lineEviction l1 where_ line => Sys2Proof.Machine.execLineEviction l1 where_ line s
  | .softError l correctable => Sys2Proof.Machine.execSoftError l correctable s
  | .gangRegistration gang parts => Sys2Proof.Machine.execGangRegistration gang parts s
  | .nopW => Sys2Proof.Machine.execNopW s
  | .exit => Sys2Proof.Machine.execExit s
  | .join => Sys2Proof.Machine.execJoin s
  | .ret => Sys2Proof.Machine.execRet s
  | .yield => Sys2Proof.Machine.execYield s
  | .eret => Sys2Proof.Machine.execEret s
  | .fenceRec => Sys2Proof.Machine.execFenceRec s
  | .mswp => Sys2Proof.Machine.execMswp s

end Sys2Proof.Machine
end

