-- ==== Sys2Proof/Machine/Run.lean ====
section
/-! DEFINITION. What the machine does next (log 1): the head of the agenda, else what the machine does of its own accord,
else the team whose turn it is (R339). -/
namespace Sys2Proof.Machine

/-- The meaning of a decoded instruction. -/
def runDecoded (d : Decoded) (s : State) : Out :=
  match d with
  | .ok i => exec i s
  | .ctrRd o => execCtrRd o s
  | .sys o => execSys o s
  | .sleep o => execSleep o s
  | .bad _ => .next s

/-- R29, R283: a context whose blocks have all left gives its slot free once its counter set finds a place, whichever set drained; and
its node ends with it (R258). -/
def leaveDone (s : State) : State :=
  s.ctxs.foldl (fun s x => if decide (x.2.state ≠ .left) && x.2.blocks.all (fun i => (tget s.blocks i).all fun b => b.left) then
      nodeTick (tryLeave s x.1) x.2.node else s) s

/-- After whatever happened: a register-wait cycle that a team's end closed is broken (R24), contexts that can leave do, and the monitors
of changed words wake their teams (R149, R150). -/
def afterStep (s : State) : State :=
  wakeWatchers (leaveDone (s.ctxs.foldl (fun s x => racqCycle s x.1) s))

/-- An event happens; a step that is refused changes nothing else. -/
def eventStep (o : Out) : Out :=
  match o with
  | .next s => .next (afterStep s)
  | o => o

/-- What an issue has left is settled. -/
def settled (o : Out) (id : Nat) : Out :=
  match o with
  | .next s => .next (afterStep (afterIssue s id))
  | o => o

/-- A team issues. -/
def issueStep (s : State) (id : Nat) : Out :=
  match attempt s id with
  | .idle s => .next (afterStep (afterIdle s id))
  | .fault s => settled (.next s) id
  | .run s d none => settled (runDecoded d s) id
  | .run s d (some n) => settled (if namesFault (runDecoded d) s id then runDecoded d s else .next (raise s 0x2C6 n)) id

/-- R31: whether another look at a blocked team's condition gets it further. -/
def movesOn (s : State) (id : Nat) (t : Team) : Bool :=
  match issueStep s id with
  | .next s' => match tget s'.teams id with
    | some t' => decide (s'.devs.map (fun d => d.2.vfcores.map fun v => v.2.posts.length) ≠
        s.devs.map fun d => d.2.vfcores.map fun v => v.2.posts.length) || decide (t'.wait ≠ t.wait ∨ t'.pc ≠ t.pc ∨ t'.served ≠ t.served ∨ t'.ended ∨ t'.handler ≠ t.handler ∨
        s'.reqs.length ≠ s.reqs.length)
    | none => true
  | _ => false

/-- R31: a team of a running context that can issue. -/
def isReady (s : State) (id : Nat) : Bool :=
  match viewOf s id with
  | none => false
  | some w =>
    !w.t.ended && w.t.halt.isNone && !eventWait w.t && w.b.filled && (decide (w.t.wait = .none) || movesOn s id w.t)

def readyTeams (s : State) : List Nat := (runningTeams s).filter (isReady s)


/-- The first of some events that changes the machine. -/
def firstChange (s : State) : List (State → Out) → Option Out
  | [] => none
  | e :: es => match e s with
    | .next s' => if s' = s then firstChange s es else some (.next s')
    | o => some o

/-- Time passes; the windows that end meanwhile end (R116, R191). -/
def tick (s : State) : State := endWindows { s with now := s.now + 1 }

/-- R31, R339: a team may issue: it is ready, and the unit it needs takes it. -/
def mayIssue (s : State) (id : Nat) : Bool :=
  let ready := readyTeams s
  ready.contains id && firstOnUnit s ready id

/-- R99: an instruction that is never split across mask words: SHFL, VOTE, REDUX, SCAN (major 0x04 of the 64-bit formats), and what
the uniform unit takes; a word that is no instruction is swept over no lane either. -/
def neverSplit (s : State) (id : Nat) : Bool :=
  match viewOf s id with
  | some w => match fetchWord w w.t.pc with
    | .ok (x, _) => decide (kindOf x = .uni ∨ x % 4 = 3 ∧ x / 4 % 64 = 4) || match decodeWord x with
      | .bad _ => true
      | _ => false
    | .error _ => true
  | none => true

/-- R281, R285: an instruction of a team stops after some mask words. The load-store unit makes the accesses of the words accepted;
of any other lane instruction the words swept are counted, and its effect is that of the whole (R99). What stops the team at an
instruction boundary comes before. -/
def sweepStep (s : State) (id words : Nat) : Out :=
  match viewOf s id with
  | none => .next s
  | some w =>
    if decide (w.t.wait ≠ .none ∨ w.t.size ≤ 32 * (w.t.swept + words)) || neverSplit s id then .next s
    else if !midInstr w.t && boundary s w id then issueStep s id
    else match nextKind s id with
      | .lsu => issueStep (modTeam s id fun t => { t with stopAt := some (t.swept + words) }) id
      | .pipe => .next (modTeam (markIssue s id .pipe) id fun t => { t with swept := t.swept + words })
      | .uni => .next s

/-- One step of the machine (log 1). -/
def nextStep (s : State) : Out :=
  let u := tick s
  match s.agenda with
  | .issue id :: rest =>
    let s := { u with agenda := rest }
    if mayIssue s id then issueStep s id else .next s
  | .sweep id words :: rest =>
    let s := { u with agenda := rest }
    if mayIssue s id then sweepStep s id words else .next s
  | .rows ctx rows :: rest => eventStep (execMatrixRows ctx rows { u with agenda := rest })
  | .event i :: rest =>
    let s := { u with agenda := rest }
    if (encode i).isSome then .next s else eventStep (exec i s)
  | [] => match firstChange u (autoEvents u) with
    | some o => eventStep o
    | none => match pickTeam u (readyTeams u) with
      | some id => issueStep u id
      | none => .next u

/-! ### Where step fetches (the host's probe) -/

/-- The team that step would let issue next, if it starts an instruction. -/
def fetchTeam (s : State) : Option Nat :=
  let pick := pickTeam s (readyTeams s)
  pick.bind fun id => match viewOf s id with
    | some w =>
      if !w.t.ended && decide (w.c.state = .running) && w.b.filled && decide (w.t.mask ≠ 0) && isObject w.t.pc &&
        decide (ptrGoid w.t.pc = ptrGoid w.n.desc.kernel) then some id else none
    | none => none

/-- A launch of one block of one team of 32 threads in slot A of core 0 of die 0 of device 0 of VF 0, at the first address
of a code object (R15, R25, R256). -/
def placeLaunch (s : State) (bytes : List Byte) : State :=
  let b := s.fresh
  let c := s.fresh
  let t := s.fresh
  let n := tfresh s.nodes
  let pc : Dbl := 0x8000000000000000#64
  let desc : NodeDesc := { kernel := pc, grid := 1, teams := [⟨0, 32, 3, 0⟩] }
  { s with
    agenda := [.issue t]
    fresh := s.fresh + 1
    teams := tput s.teams t { block := b, num := 0, size := 32, pc := pc, mask := 0xFFFFFFFF#1024, skipBreak := true }
    blocks := tput s.blocks b { ctx := c, node := n, ordinal := 0, teams := [t], filled := true }
    ctxs := tput s.ctxs c { dev := 0, die := 0, core := 0, slot := .a, vf := 0, node := n, state := .running, blocks := [b] }
    nodes := tput s.nodes n { dev := 0, vf := 0, entry := n, ident := 1, desc := desc, state := .running, priority := 24,
                              order := 0, code := writeBytes {} pc.toNat bytes, codeSize := 8, next := 1, blocks := 1,
                              started := 1 } }

/-- `s` with an instruction's bytes where step fetches its next instruction. -/
def placeWord (s : State) (nbits w : Nat) : State :=
  let bytes := leBytes 8 (w % 2 ^ nbits)
  match (fetchTeam s).bind fun id => (viewOf s id).map fun v => (id, v) with
  | none => placeLaunch s bytes
  | some (id, v) =>
    let t := modNode s v.b.node fun n => { n with
      code := writeBytes n.code v.t.pc.toNat bytes
      codeSize := max n.codeSize (ptrOff v.t.pc + 8) }
    let t := { modTeam t id (fun t => { t with wait := .none, halt := none, lfnew := 0, running := false, skipBreak := true }) with
      agenda := [.issue id] }
    if mayIssue (tick t) id then t else placeLaunch s bytes

end Sys2Proof.Machine
end

