-- ==== Sys2Proof/Machine/Step.lean ====
section
/-! DEFINITION. The step of the machine. -/
namespace Sys2Proof.Machine

/-- One step: the head of the agenda, else what the machine does of its own accord, else the team whose turn it is (log 1). -/
def step (s : State) : Host.Outcome State Fault Refusal := nextStep s

/-- `s` with an instruction's bytes where `step` fetches its next instruction (log 9). -/
def State.withFetchWord (s : State) (nbits w : Nat) : State := placeWord s nbits w

end Sys2Proof.Machine
end

