-- ==== Sys2Proof/Safety.lean ====
section
/-! DEFINITION. What counts as a safe run: every step answers a next state. -/
namespace Sys2Proof.Machine

/-- The machine after a number of steps. -/
def runFor : Nat → State → Host.Outcome State Fault Refusal
  | 0, s => .next s
  | n + 1, s => match step s with
    | .next s' => runFor n s'
    | o => o

/-- A run of `n` steps that no step stops. -/
def SafeFor (n : Nat) (s : State) : Prop := ∃ s', runFor n s = .next s'

end Sys2Proof.Machine
end

