-- ==== Sys2Proof/Certificates/Slice0/Obligations.lean ====
section
/-! DEFINITION. The statements about the model, as propositions named `Obligations.<Name>`; first the words they are
written in (`Sys2Proof.Spec`). They speak of the machine through its reads and through relations written here from the manual;
where a whole sub-result is another operation's (a created node, a row of a record, a placing) they name that operation. -/
namespace Sys2Proof.Spec

open Sys2Proof.Machine

/-! ### Who issues -/

/-- R22, R66: the team holds the chunk of a lane register. -/
def Acquired (t : Team) (n : Nat) : Prop := (64 ≤ n → n < 96 → t.e1 = true) ∧ (96 ≤ n → t.e2 = true)

/-- A register group by its first register and its width. v0 and k0 name no register (R66). -/
def InGroup (first width n : Nat) : Prop := first ≠ 0 ∧ first ≤ n ∧ n < first + width

/-- The lanes of the mask read each source. -/
def onMask (t : Team) (l _n : Nat) : Prop := t.mask.getLsbD l = true

/-- R66, R83, R280: nothing stops an instruction at its registers: groups are aligned, lane registers are acquired, no lane
source holds an uncorrectable error in a lane it is read from (a lane of the mask where `reads` does not name others; keys of
`bad`: lane × 128 + register), and no uniform source holds one. `ks` are uniform sources, `kd` uniform destinations. -/
structure Operands (t : Team) (dst src ks : List (Nat × Nat)) (kd : List (Nat × Nat) := [])
    (reads : Nat → Nat → Prop := onMask t) : Prop where
  aligned : ∀ x ∈ dst ++ src ++ kd ++ ks, x.1 % x.2 = 0
  acquired : ∀ x ∈ dst ++ src, Acquired t x.1
  sound : ∀ x ∈ src, ∀ key ∈ t.bad,
    ¬(x.1 ≤ key % 128 ∧ key % 128 < x.1 + x.2 ∧ key % 128 ≠ 0 ∧ reads (key / 128) (key % 128))
  uniform : ∀ x ∈ ks, ∀ n ∈ t.badK, ¬InGroup x.1 x.2 n

/-- R83, R280: nothing stops an instruction at its uniform registers. -/
structure Uniforms (t : Team) (kd ks : List (Nat × Nat)) : Prop where
  aligned : ∀ x ∈ kd ++ ks, x.1 % x.2 = 0
  sound : ∀ x ∈ ks, ∀ n ∈ t.badK, ¬InGroup x.1 x.2 n

/-- R68: where an A64 instruction reads its sources: va and vb through their permutations, vc in the lane itself; without a
permutation, the lanes of the mask. The widths are those of the sources (0: not read). -/
def PermReads (o : A64) (wa wb wc : Nat) (t : Team) (l n : Nat) : Prop :=
  if o.pa = 0 ∧ o.pb = 0 then onMask t l n
  else ∃ i, i < t.size ∧ t.mask.getLsbD i = true ∧
    ((o.va.toNat ≤ n ∧ n < o.va.toNat + wa ∧ l = permLane o.pa i) ∨ (o.vb.toNat ≤ n ∧ n < o.vb.toNat + wb ∧ l = permLane o.pb i) ∨
      (o.vc.toNat ≤ n ∧ n < o.vc.toNat + wc ∧ l = i))

/-- The current team is `t`, it has not ended and has a lane on. -/
structure Current (s : State) (t : Team) : Prop where
  team : tget s.teams s.cur = some t
  live : t.ended = false
  lanes : t.mask ≠ 0

/-- The current team with its block, context and node. -/
structure Resident (s : State) (t : Team) (b : Block) (c : Ctx) (n : Node) : Prop where
  current : Current s t
  block : tget s.blocks t.block = some b
  ctx : tget s.ctxs b.ctx = some c
  node : tget s.nodes b.node = some n

/-- R67: the lanes an instruction acts in: on in the mask, guard true. -/
def On (t : Team) (neg : Bool) (g : BitVec 3) (l : Nat) : Prop :=
  l < t.size ∧ t.mask.getLsbD l = true ∧ pget t l g.toNat ≠ neg

/-- The team after an instruction of `len` bytes that changed nothing else. -/
def next (t : Team) (len : Nat) : Team :=
  { t with pc := t.pc + BitVec.ofNat 64 len, wait := .none, swept := 0, stopAt := none }

/-- The instruction answers a next state in which nothing but the current team has changed. -/
def Gives (s : State) (i : Instr) (t' : Team) : Prop := exec i s = .next (putTeam s s.cur t')

/-- R136, R227: the instruction holds its team, and changes nothing else. -/
def Holds (s : State) (t : Team) (i : Instr) : Prop := Gives s i { t with wait := .hold }

/-! ### Lane destinations (R97) -/

/-- Every lane that acts holds `f` of that lane in the destination group, word by word from the lowest register; every other
register of every lane is as it was, and a register written whole holds no error any more (R280). -/
structure WroteLanes (t t' : Team) (vd wd : Nat) (on : Nat → Prop) (f : Nat → Nat) : Prop where
  written : ∀ l n, n < 128 → on l → InGroup vd wd n → vget t' l n = BitVec.ofNat 32 (f l / 2 ^ (32 * (n - vd)))
  kept : ∀ l n, n < 128 → ¬(on l ∧ InGroup vd wd n) → vget t' l n = vget t l n
  errors : ∀ key, key ∈ t'.bad ↔ key ∈ t.bad ∧ ¬∃ l n, on l ∧ InGroup vd wd n ∧ key = l * 128 + n

/-- As `WroteLanes`, for a predicate. -/
structure WrotePreds (t t' : Team) (pd : Nat) (on : Nat → Prop) (f : Nat → Bool) : Prop where
  written : ∀ l, on l → pd ≠ 0 → pget t' l pd = f l
  kept : ∀ l n, n < 8 → ¬(on l ∧ n = pd ∧ pd ≠ 0) → pget t' l n = pget t l n
  errors : ∀ key, key ∈ t'.badP ↔ key ∈ t.badP ∧ ¬(pd ≠ 0 ∧ ∃ l, on l ∧ key = l * 8 + pd)

/-- One uniform register written; k0 discards. -/
structure WroteUniform (t t' : Team) (kd : Nat) (x : Word) : Prop where
  written : kd ≠ 0 → kget t' kd = x
  kept : ∀ n, n ≠ kd → kget t' n = kget t n
  zero : kget t' 0 = 0
  errors : ∀ n, n ∈ t'.badK ↔ n ∈ t.badK ∧ ¬(kd ≠ 0 ∧ n = kd)

/-- What the manual says of an instruction that writes a lane group: its length, destination, sources, the lanes it acts in,
and the relation between a lane's old registers and its result. -/
structure LaneSpec where
  len : Nat
  vd : Nat
  wd : Nat
  src : List (Nat × Nat)
  on : Team → Nat → Prop
  res : Team → Nat → Nat → Prop
  reads : Team → Nat → Nat → Prop := onMask

/-- The instruction completes: each lane that acts receives a result the manual allows, and nothing else changes but the
program counter. -/
def LaneRuns (s : State) (t : Team) (i : Instr) (L : LaneSpec) : Prop :=
  ∃ (f : Nat → Nat) (t' : Team), Gives s i t' ∧ (∀ l, L.on t l → L.res t l (f l)) ∧
    WroteLanes t t' L.vd L.wd (L.on t) f ∧ t' = { next t L.len with v := t'.v, bad := t'.bad }

/-- The same for a predicate destination. -/
structure PredSpec where
  len : Nat
  pd : Nat
  src : List (Nat × Nat)
  on : Team → Nat → Prop
  res : Team → Nat → Bool → Prop
  reads : Team → Nat → Nat → Prop := onMask

def PredRuns (s : State) (t : Team) (i : Instr) (L : PredSpec) : Prop :=
  ∃ (f : Nat → Bool) (t' : Team), Gives s i t' ∧ (∀ l, L.on t l → L.res t l (f l)) ∧
    WrotePreds t t' L.pd (L.on t) f ∧ t' = { next t L.len with p := t'.p, badP := t'.badP }

/-! ### Integers (R40, R100) -/

/-- A relation between the width, the signedness, `.sat`, three operands and the result. -/
abbrev IntRel := Nat → Bool → Bool → Nat → Nat → Nat → Nat → Prop

/-- R40: `r` is the exact value x narrowed to n bits: congruent to it modulo 2^n, or clamped to the range of the signedness. -/
def Narrowed (n : Nat) (signed sat : Bool) (x : Int) (r : Nat) : Prop :=
  r < 2 ^ n ∧
  if sat then
    asInt n signed r = if signed then max (-(2 ^ (n - 1))) (min x (2 ^ (n - 1) - 1)) else max 0 (min x (2 ^ n - 1))
  else ∃ k : Int, (r : Int) = x + k * 2 ^ n

/-- The n bits of `r`. -/
def Bits (n r : Nat) (p : Nat → Bool) : Prop := r < 2 ^ n ∧ ∀ j, j < n → r.testBit j = p j

def addR : IntRel := fun n g t a b _ r => Narrowed n g t (asInt n g a + asInt n g b) r
def subR : IntRel := fun n g t a b _ r => Narrowed n g t (asInt n g a - asInt n g b) r
def mulR : IntRel := fun n g t a b _ r => Narrowed n g t (asInt n g a * asInt n g b) r
def mulhR : IntRel := fun n g _ a b _ r => Narrowed n g false (asInt n g a * asInt n g b / 2 ^ n) r
def madR : IntRel := fun n g t a b c r => Narrowed n g t (asInt n g a * asInt n g b + asInt n g c) r
def minR : IntRel := fun n g _ a b _ r => asInt n g r = min (asInt n g a) (asInt n g b) ∧ r < 2 ^ n
def maxR : IntRel := fun n g _ a b _ r => asInt n g r = max (asInt n g a) (asInt n g b) ∧ r < 2 ^ n
def absR : IntRel := fun n _ t a _ _ r => Narrowed n true t (if asInt n true a < 0 then -asInt n true a else asInt n true a) r
def andR : IntRel := fun n _ _ a b _ r => Bits n r fun j => a.testBit j && b.testBit j
def orR : IntRel := fun n _ _ a b _ r => Bits n r fun j => a.testBit j || b.testBit j
def xorR : IntRel := fun n _ _ a b _ r => Bits n r fun j => a.testBit j != b.testBit j
def shlR : IntRel := fun n _ _ a b _ r => Bits n r fun j => decide (b ≤ j) && a.testBit (j - b)
def shrR : IntRel := fun n _ _ a b _ r => Bits n r fun j => decide (j + b < n) && a.testBit (j + b)
def sarR : IntRel := fun n _ _ a b _ r => Bits n r fun j => a.testBit (min (j + b) (n - 1))
def rotR : IntRel := fun n _ _ a b _ r => Bits n r fun j => a.testBit ((j + (n - b % n)) % n)
def popcR : IntRel := fun n _ _ a _ _ r => r = (List.range n).countP fun j => a.testBit j
def clzR : IntRel := fun n _ _ a _ _ r =>
  r ≤ n ∧ (∀ j, n - r ≤ j → j < n → a.testBit j = false) ∧ (r < n → a.testBit (n - 1 - r) = true)
def brevR : IntRel := fun n _ _ a _ _ r => Bits n r fun j => a.testBit (n - 1 - j)
/-- R100 IBFX: f holds bits [min(p + l, n) − 1 : p] of va. -/
def bfxR : IntRel := fun n g _ a b c r =>
  let p := b % 256
  let l := c % 256
  if l = 0 ∨ n ≤ p then r = 0
  else Bits n r fun j => if p + j < min (p + l) n then a.testBit (p + j) else g && a.testBit (min (p + l) n - 1)
/-- R100 IBFI. -/
def bfiR : IntRel := fun n _ _ a b c r =>
  let p := c % 256
  let l := c / 256 % 256
  if l = 0 ∨ n ≤ p then r = a
  else Bits n r fun j => if p ≤ j ∧ j < min (p + l) n then b.testBit (j - p) else a.testBit j
def movR : IntRel := fun _ _ _ a _ _ r => r = a

/-- R69: a C16 form: vd := vd op vs, or vd op imm5 (sign-extended, zero-extended for a shift amount). -/
def c16 (o : C16) (shift : Bool) (R : IntRel) : LaneSpec where
  len := 2
  vd := o.d.toNat
  wd := 1
  src := (o.d.toNat, 1) :: if o.i then [] else [(o.s.toNat, 1)]
  on t l := On t false 0 l
  res t l r := R 32 true false (vget t l o.d.toNat).toNat
    (if o.i then (if shift then o.s.toNat else (o.s.signExtend 32).toNat) else (vget t l o.s.toNat).toNat) 0 r

/-- R72: an L3 form. -/
def l3 (o : L3) (R : IntRel) : LaneSpec where
  len := 4
  vd := o.d.toNat
  wd := 1
  src := [(o.a.toNat, 1), (o.b.toNat, 1)]
  on t l := On t false o.g l
  res t l r := R 32 true false (vget t l o.a.toNat).toNat (vget t l o.b.toNat).toNat 0 r

/-- R72: an RI form. -/
def ri (o : RI) (shift : Bool) (R : IntRel) : LaneSpec where
  len := 4
  vd := o.d.toNat
  wd := 1
  src := [(o.a.toNat, 1)]
  on t l := On t false 0 l
  res t l r := R 32 true false (vget t l o.a.toNat).toNat (if shift then o.imm.toNat else (o.imm.signExtend 32).toNat) 0 r

/-- R76: words under `.d` (minor bit 13). -/
def wordsD (o : A64) : Nat := if o.m.getLsbD 5 then 2 else 1

/-- R68, R100: a form of major 0x01 with its second and third sources of `wb` and `wc` words (0: not read). Minor bits 14 and
15 are `.n` and `.sat`. -/
def a64 (o : A64) (wb wc : Nat) (R : IntRel) : LaneSpec where
  len := 8
  vd := o.vd.toNat
  wd := wordsD o
  src := (o.va.toNat, wordsD o) :: ((if wb = 0 then [] else [(o.vb.toNat, wb)]) ++ (if wc = 0 then [] else [(o.vc.toNat, wc)]))
  on t l := On t o.n o.g l
  res t l r := R (32 * wordsD o) (!o.m.getLsbD 6) (o.m.getLsbD 7) (vgetW t (permLane o.pa l) o.va.toNat (wordsD o))
    (if wb = 0 then 0 else vgetW t (permLane o.pb l) o.vb.toNat wb) (if wc = 0 then 0 else vgetW t l o.vc.toNat wc) r
  reads := PermReads o (wordsD o) wb wc

/-- R79: a form of major 0x08: imm32 stands for the second source, sign-extended under `.d` (minor bit 13). -/
def i64 (o : I64) (R : IntRel) : LaneSpec where
  len := 8
  vd := o.vd.toNat
  wd := if o.m.getLsbD 5 then 2 else 1
  src := [(o.va.toNat, if o.m.getLsbD 5 then 2 else 1)]
  on t l := On t o.n o.g l
  res t l r := R (if o.m.getLsbD 5 then 64 else 32) true false (vgetW t l o.va.toNat (if o.m.getLsbD 5 then 2 else 1))
    (if o.m.getLsbD 5 then (o.imm.signExtend 64).toNat else o.imm.toNat) 0 r

/-- R69, R72, R96, R100: the integer instructions of the short forms. -/
def shortInt : Instr → Option LaneSpec
  | .movC16 o => some { c16 o false fun _ _ _ _ b _ r => r = b with src := if o.i then [] else [(o.s.toNat, 1)] }
  | .iaddC16 o => some (c16 o false addR)
  | .isubC16 o => some (c16 o false subR)
  | .imulC16 o => some (c16 o false mulR)
  | .iandC16 o => some (c16 o false andR)
  | .iorC16 o => some (c16 o false orR)
  | .ixorC16 o => some (c16 o false xorR)
  | .ishlC16 o => some (c16 o true shlR)
  | .ishrC16 o => some (c16 o true shrR)
  | .isarC16 o => some (c16 o true sarR)
  | .iminC16 o => some (c16 o false minR)
  | .imaxC16 o => some (c16 o false maxR)
  | .iaddL3 o => some (l3 o addR)
  | .isubL3 o => some (l3 o subR)
  | .imulL3 o => some (l3 o mulR)
  | .imulhL3 o => some (l3 o mulhR)
  | .iandL3 o => some (l3 o andR)
  | .iorL3 o => some (l3 o orR)
  | .ixorL3 o => some (l3 o xorR)
  | .ishlL3 o => some (l3 o shlR)
  | .ishrL3 o => some (l3 o shrR)
  | .isarL3 o => some (l3 o sarR)
  | .iminL3 o => some (l3 o minR)
  | .imaxL3 o => some (l3 o maxR)
  | .iaddRi o => some (ri o false addR)
  | .iandRi o => some (ri o false andR)
  | .iorRi o => some (ri o false orR)
  | .ixorRi o => some (ri o false xorR)
  | .ishlRi o => some (ri o true shlR)
  | .ishrRi o => some (ri o true shrR)
  | .isarRi o => some (ri o true sarR)
  | .movRi o => some ⟨4, o.d.toNat, 1, [], fun t l => On t false 0 l, fun _ _ r => r = (o.imm.signExtend 32).toNat, onMask⟩
  | _ => none

/-- R100: the integer instructions of major 0x01 that write a lane group. -/
def longInt : Instr → Option LaneSpec
  | .iadd o => some (a64 o (wordsD o) 0 addR)
  | .isub o => some (a64 o (wordsD o) 0 subR)
  | .imul o => some (a64 o (wordsD o) 0 mulR)
  | .imulh o => some (a64 o (wordsD o) 0 mulhR)
  | .imad o => some (a64 o (wordsD o) (wordsD o) madR)
  | .imin o => some (a64 o (wordsD o) 0 minR)
  | .imax o => some (a64 o (wordsD o) 0 maxR)
  | .iabs o => some (a64 o 0 0 absR)
  | .iand o => some (a64 o (wordsD o) 0 andR)
  | .ior o => some (a64 o (wordsD o) 0 orR)
  | .ixor o => some (a64 o (wordsD o) 0 xorR)
  | .ishl o => some (a64 o (wordsD o) 0 shlR)
  | .ishr o => some (a64 o (wordsD o) 0 shrR)
  | .isar o => some (a64 o (wordsD o) 0 sarR)
  | .irot o => some (a64 o (wordsD o) 0 rotR)
  | .ipopc o => some (a64 o 0 0 popcR)
  | .iclz o => some (a64 o 0 0 clzR)
  | .ibrev o => some (a64 o 0 0 brevR)
  | .ibfx o => some (a64 o 1 1 bfxR)
  | .ibfi o => some (a64 o (wordsD o) 1 bfiR)
  | .mov o => some (a64 o 0 0 movR)
  | .isel o => some { a64 o (wordsD o) 0 movR with
      res := fun t l r => r = if pget t l (sub o.vc 0 3) then vgetW t (permLane o.pa l) o.va.toNat (wordsD o)
        else vgetW t (permLane o.pb l) o.vb.toNat (wordsD o) }
  | _ => none

/-- R79, R96: the integer instructions of major 0x08 that write a lane group. -/
def immInt : Instr → Option LaneSpec
  | .iaddImm o => some (i64 o addR)
  | .imulImm o => some (i64 o mulR)
  | .iminImm o => some (i64 o minR)
  | .imaxImm o => some (i64 o maxR)
  | .iandImm o => some (i64 o andR)
  | .iorImm o => some (i64 o orR)
  | .ixorImm o => some (i64 o xorR)
  | .ishlImm o => some (i64 o shlR)
  | .ishrImm o => some (i64 o shrR)
  | .isarImm o => some (i64 o sarR)
  | .irotImm o => some (i64 o rotR)
  | .movImm o => some { i64 o (fun _ _ _ _ b _ r => r = b) with src := [] }
  | _ => none

/-- R73, R76, R79: condition codes 0 to 5 by signedness, and 6 to 9 (lt, le, gt, ge) unsigned. -/
def Cond (n : Nat) (signed : Bool) (c a b : Nat) (r : Bool) : Prop :=
  match c with
  | 0 => r = true ↔ asInt n signed a = asInt n signed b
  | 1 => r = true ↔ asInt n signed a ≠ asInt n signed b
  | 2 => r = true ↔ asInt n signed a < asInt n signed b
  | 3 => r = true ↔ asInt n signed a ≤ asInt n signed b
  | 4 => r = true ↔ asInt n signed a > asInt n signed b
  | 5 => r = true ↔ asInt n signed a ≥ asInt n signed b
  | 6 => r = true ↔ a < b
  | 7 => r = true ↔ a ≤ b
  | 8 => r = true ↔ a > b
  | 9 => r = true ↔ a ≥ b
  | _ => True

/-- R76, R79: ICMP. -/
def cmpInt : Instr → Option PredSpec
  | .icmp o => some ⟨8, sub o.vd 0 3, [(o.va.toNat, wordsD o), (o.vb.toNat, wordsD o)], fun t l => On t o.n o.g l,
      fun t l r => sub o.vc 0 4 ≤ 5 → Cond (32 * wordsD o) (!o.m.getLsbD 6) (sub o.vc 0 4)
        (vgetW t (permLane o.pa l) o.va.toNat (wordsD o)) (vgetW t (permLane o.pb l) o.vb.toNat (wordsD o)) r,
      PermReads o (wordsD o) (wordsD o) 0⟩
  | .icmpImm o => some ⟨8, sub o.vd 0 3, [(o.va.toNat, if o.m.getLsbD 5 then 2 else 1)], fun t l => On t o.n o.g l,
      fun t l r => Cond (if o.m.getLsbD 5 then 64 else 32) true (sub o.vd 3 4)
        (vgetW t l o.va.toNat (if o.m.getLsbD 5 then 2 else 1))
        (if o.m.getLsbD 5 then (o.imm.signExtend 64).toNat else o.imm.toNat) r, onMask⟩
  | _ => none

end Sys2Proof.Spec

open Sys2Proof Sys2Proof.Machine Sys2Proof.Spec

/-- R69, R72, R96, R97, R100: every C16, L3 and RI integer form completes with the result of R100 in each lane that acts; every
other register, flag and field is unchanged. -/
def Sys2Proof.Spec.ShortIntegerForms : Prop :=
  ∀ i L s t, shortInt i = some L → Current s t → Operands t [(L.vd, L.wd)] L.src [] [] (L.reads t) → LaneRuns s t i L

/-- R40, R68, R76, R97, R100: every integer form of major 0x01 but ICMP. -/
def Sys2Proof.Spec.LongIntegerForms : Prop :=
  ∀ i L s t, longInt i = some L → Current s t → Operands t [(L.vd, L.wd)] L.src [] [] (L.reads t) → LaneRuns s t i L

/-- R79, R96, R97, R100: every integer form of major 0x08 but ICMP. -/
def Sys2Proof.Spec.ImmediateIntegerForms : Prop :=
  ∀ i L s t, immInt i = some L → Current s t → Operands t [(L.vd, L.wd)] L.src [] [] (L.reads t) → LaneRuns s t i L

/-- R40, R69, R72, R76, R79, R96, R97, R100: every integer form that writes a lane group. -/
def Obligations.IntegerForms : Prop := Spec.ShortIntegerForms ∧ Spec.LongIntegerForms ∧ Spec.ImmediateIntegerForms

/-- R76, R79, R97, R100: ICMP writes its predicate in the lanes that act. -/
def Obligations.IntegerCompares : Prop :=
  ∀ i L s t, cmpInt i = some L → Current s t → Operands t [] L.src [] [] (L.reads t) → PredRuns s t i L

namespace Sys2Proof.Spec

/-! ### Floats (R41 to R48, R102 to R105) -/

/-- What the manual says of a float instruction: as `LaneSpec`, with each lane's result and flags. -/
structure FloatSpec where
  len : Nat
  vd : Nat
  wd : Nat
  src : List (Nat × Nat)
  on : Team → Nat → Prop
  val : Team → Nat → Nat × FFlags
  reads : Team → Nat → Nat → Prop := onMask

structure FloatPredSpec where
  len : Nat
  pd : Nat
  src : List (Nat × Nat)
  on : Team → Nat → Prop
  val : Team → Nat → Bool × FFlags
  reads : Team → Nat → Nat → Prop := onMask

/-- R45: `fl` is the union of the flags of the lanes an instruction executes for. -/
def Union (on : Nat → Prop) (flags : Nat → FFlags) (fl : FFlags) : Prop :=
  ∀ b, b < 5 → (fl.getLsbD b = true ↔ ∃ l, on l ∧ (flags l).getLsbD b = true)

/-- R46: no lane raises a flag that `%fptrap` enables. -/
def Untrapped (t : Team) (on : Nat → Prop) (flags : Nat → FFlags) : Prop :=
  ∀ l b, on l → b < 5 → (flags l).getLsbD b = true → t.fptrap.getLsbD b = false

/-- R45: the instruction writes its results and ORs its flags into `%fpflags`; nothing else changes but the program counter. -/
def FloatRuns (s : State) (t : Team) (i : Instr) (L : FloatSpec) : Prop :=
  ∃ (t' : Team) (fl : FFlags), Gives s i t' ∧ Union (L.on t) (fun l => (L.val t l).2) fl ∧
    WroteLanes t t' L.vd L.wd (L.on t) (fun l => (L.val t l).1) ∧
    t' = { next t L.len with v := t'.v, bad := t'.bad, fpflags := t.fpflags ||| fl.setWidth 32 }

def FloatPredRuns (s : State) (t : Team) (i : Instr) (L : FloatPredSpec) : Prop :=
  ∃ (t' : Team) (fl : FFlags), Gives s i t' ∧ Union (L.on t) (fun l => (L.val t l).2) fl ∧
    WrotePreds t t' L.pd (L.on t) (fun l => (L.val t l).1) ∧
    t' = { next t L.len with p := t'.p, badP := t'.badP, fpflags := t.fpflags ||| fl.setWidth 32 }

/-- R69: a C16 float form: f32, rn. -/
def c16f (o : C16F) (g : FloatFn) : FloatSpec :=
  ⟨2, o.d.toNat, 1, [(o.d.toNat, 1), (o.s.toNat, 1)], fun t l => On t false 0 l,
    fun t l => g f32 .rn (vget t l o.d.toNat).toNat (vget t l o.s.toNat).toNat 0, onMask⟩

/-- R72: an L3 float form: f32, rn. -/
def l3f (o : L3) (g : FloatFn) : FloatSpec :=
  ⟨4, o.d.toNat, 1, [(o.a.toNat, 1), (o.b.toNat, 1)], fun t l => On t false o.g l,
    fun t l => g f32 .rn (vget t l o.a.toNat).toNat (vget t l o.b.toNat).toNat 0, onMask⟩

/-- R79: a form of major 0x09: imm32 is the f32 second source; minor bits 14 and 15 of the instruction are the mode. -/
def i64f (o : I64) (g : FloatFn) : FloatSpec :=
  ⟨8, o.vd.toNat, 1, [(o.va.toNat, 1)], fun t l => On t o.n o.g l,
    fun t l => g f32 (rmode (sub o.m 4 2)) (vget t l o.va.toNat).toNat o.imm.toNat 0, onMask⟩

/-- R77: a form of major 0x02: type in minor bits 13:12 of the word, mode in its bits 15:14. -/
def a64f (o : A64) (useB useC : Bool) (g : FloatFn) : FloatSpec :=
  ⟨8, o.vd.toNat, 1,
    (o.va.toNat, 1) :: ((if useB then [(o.vb.toNat, 1)] else []) ++ (if useC then [(o.vc.toNat, 1)] else [])),
    fun t l => On t o.n o.g l,
    fun t l => packed (sub o.m 4 2) g (rmode (sub o.m 6 2)) (vgetW t (permLane o.pa l) o.va.toNat 1)
      (if useB then vgetW t (permLane o.pb l) o.vb.toNat 1 else 0) (if useC then vgetW t l o.vc.toNat 1 else 0),
    PermReads o 1 (if useB then 1 else 0) (if useC then 1 else 0)⟩

/-- R110: the operands a reduction covers for lane `l`, in increasing lane number: those of the participants of its segment
that `covers` admits. -/
def covered (t : Team) (o : A64) (covers : Nat → Nat → Bool) (l : Nat) : List Nat :=
  ((activeLanes t o.n o.g).filter fun j => decide (j / 2 ^ sub o.vc 0 4 = l / 2 ^ sub o.vc 0 4) && covers l j).map
    fun j => vgetW t (permLane o.pa j) o.va.toNat 1

def reduction (o : A64) (covers : Nat → Nat → Bool) : FloatSpec :=
  ⟨8, o.vd.toNat, 1, [(o.va.toNat, 1)], fun t l => On t o.n o.g l,
    fun t l => redValue (sub o.m 2 4) (covered t o covers l), PermReads o 1 0 0⟩

/-- R102, R103, R69, R72, R79: the float instructions that write a lane register. -/
def floatArith : Instr → Option FloatSpec
  | .faddC16 o => some (c16f o flAdd)
  | .fsubC16 o => some (c16f o flSub)
  | .fmulC16 o => some (c16f o flMul)
  | .fmaxC16 o => some (c16f o flMax)
  | .faddL3 o => some (l3f o flAdd)
  | .fsubL3 o => some (l3f o flSub)
  | .fmulL3 o => some (l3f o flMul)
  | .fadd o => some (a64f o true false flAdd)
  | .fsub o => some (a64f o true false flSub)
  | .fmul o => some (a64f o true false flMul)
  | .ffma o => some (a64f o true true flFma)
  | .fmin o => some (a64f o true false flMin)
  | .fmax o => some (a64f o true false flMax)
  | .frcp o => some (a64f o false false flRcp)
  | .frsq o => some (a64f o false false flRsq)
  | .fexp2 o => some (a64f o false false flExp2)
  | .flog2 o => some (a64f o false false flLog2)
  | .fclass o => some (a64f o false false flClass)
  | .faddImm o => some (i64f o flAdd)
  | .fsubImm o => some (i64f o flSub)
  | .fmulImm o => some (i64f o flMul)
  | .fminImm o => some (i64f o flMin)
  | .fmaxImm o => some (i64f o flMax)
  | _ => none

/-- R104, R105, R110: conversions and reductions. -/
def floatMove : Instr → Option FloatSpec
  | .fcvt o => some ⟨8, o.vd.toNat, 1, (o.va.toNat, 1) :: (if cvtMode o = 4 then [(o.vb.toNat, 1)] else []),
      fun t l => On t o.n o.g l, fun t l =>
        perSlot (cvtFmt (cvtS o)).width (cvtFmt (cvtD o)).width (fun i a =>
          rounded (cvtFmt (cvtD o)) (cvtRound o (if cvtMode o = 4 then (vget t l o.vb.toNat).toNat else 0) i)
            (fdecode (cvtFmt (cvtS o)) a, snan [fdecode (cvtFmt (cvtS o)) a])) (vgetW t (permLane o.pa l) o.va.toNat 1),
      PermReads { o with pb := 0 } 1 (if cvtMode o = 4 then 1 else 0) 0⟩
  | .i2f o => some ⟨8, o.vd.toNat, 1, [(o.va.toNat, if cvtS o < 2 then 1 else 2)], fun t l => On t o.n o.g l, fun t l =>
      fround (cvtFmt (cvtD o)) (rmode (cvtMode o))
        (ofInt (asInt (if cvtS o < 2 then 32 else 64) (decide (cvtS o % 2 = 0))
          (vgetW t (permLane o.pa l) o.va.toNat (if cvtS o < 2 then 1 else 2)))),
      PermReads o (if cvtS o < 2 then 1 else 2) 0 0⟩
  | .f2i o => some ⟨8, o.vd.toNat, if cvtD o < 2 then 1 else 2, [(o.va.toNat, 1)], fun t l => On t o.n o.g l, fun t l =>
      toInt (if cvtD o < 2 then 32 else 64) (decide (cvtD o % 2 = 0)) (rmode (cvtMode o))
        (fdecode (cvtFmt (cvtS o)) (vgetW t (permLane o.pa l) o.va.toNat 1 % 2 ^ (cvtFmt (cvtS o)).width)),
      PermReads o 1 0 0⟩
  | .frnd o => some ⟨8, o.vd.toNat, 1, [(o.va.toNat, 1)], fun t l => On t o.n o.g l, fun t l =>
      perSlot (cvtFmt (cvtS o)).width (cvtFmt (cvtS o)).width (fun _ a => frnd (cvtFmt (cvtS o)) (rmode (cvtMode o)) a)
        (vgetW t (permLane o.pa l) o.va.toNat 1), PermReads o 1 0 0⟩
  | .redux o => some (reduction o fun _ _ => true)
  | .scan o => some (reduction o fun l j => if o.m.getLsbD 6 then decide (j < l) else decide (j ≤ l))
  | _ => none

/-- R77, R79, R103: FCMP. -/
def floatCompare : Instr → Option FloatPredSpec
  | .fcmp o => some ⟨8, sub o.vd 0 3, [(o.va.toNat, 1), (o.vb.toNat, 1)], fun t l => On t o.n o.g l, fun t l =>
      (fcond (sub o.vc 0 4) (fdecode f32 (vgetW t (permLane o.pa l) o.va.toNat 1))
        (fdecode f32 (vgetW t (permLane o.pb l) o.vb.toNat 1)),
        snan [fdecode f32 (vgetW t (permLane o.pa l) o.va.toNat 1), fdecode f32 (vgetW t (permLane o.pb l) o.vb.toNat 1)]),
      PermReads o 1 1 0⟩
  | .fcmpImm o => some ⟨8, sub o.vd 0 3, [(o.va.toNat, 1)], fun t l => On t o.n o.g l, fun t l =>
      (fcond (sub o.vd 3 3) (fdecode f32 (vget t l o.va.toNat).toNat) (fdecode f32 o.imm.toNat),
        snan [fdecode f32 (vget t l o.va.toNat).toNat, fdecode f32 o.imm.toNat]), onMask⟩
  | _ => none

/-- R126, R276: the team `t` after the cause has moved it to the handler at `entry`, with `%trappc` at `pc`. -/
def trapped (t : Team) (entry : Dbl) (cause : Nat) (info : Word) (pc : Dbl) : Team :=
  { t with trapcause := BitVec.ofNat 32 cause, trappc := pc, trapinfo := info, handler := true, pc := entry, wait := .none,
           served := 0, watch := [], swept := 0, stopAt := none }

/-- R126, R271, R276: the current team can take a trap now: a handler is declared, `entry` is its address, the handler flag is
clear and the block is not provisional. -/
structure Trappable (s : State) (t : Team) (entry : Dbl) : Prop where
  current : Current s t
  clear : t.handler = false
  resident : ∃ b c n off, tget s.blocks t.block = some b ∧ tget s.ctxs b.ctx = some c ∧ tget s.nodes b.node = some n ∧
    b.provisional = false ∧ n.desc.handler = some off ∧ entry = n.desc.kernel + BitVec.ofNat 64 off

/-- R46: the trap of a float instruction: `fl` is every flag it would have raised, and the cause is 0x1C0 + the lowest of them
that `%fptrap` enables. -/
def FloatTraps (s : State) (t : Team) (i : Instr) (entry : Dbl) (on : Nat → Prop) (flags : Nat → FFlags) : Prop :=
  ∃ (fl : FFlags) (b : Nat), Union on flags fl ∧ b < 5 ∧ fl.getLsbD b = true ∧ t.fptrap.getLsbD b = true ∧
    (∀ j, j < b → ¬(fl.getLsbD j = true ∧ t.fptrap.getLsbD j = true)) ∧
    Gives s i (trapped t entry (0x1C0 + b) (fl.setWidth 32) t.pc)

/-- Powers of two, as rational numbers. -/
def pow2 (e : Int) : Rat := if 0 ≤ e then ((2 ^ e.toNat : Nat) : Rat) else 1 / ((2 ^ (-e).toNat : Nat) : Rat)

/-- The number a finite value stands for. -/
def valueOf : FVal → Rat
  | .num neg m e => (if neg then -1 else 1) * (m : Rat) * pow2 e
  | _ => 0

/-- R48: the magnitude of the magnitude code `k` of a format, with the exponent unbounded above. -/
def magValue (f : Fmt) (k : Nat) : Rat :=
  if k < 2 ^ f.mb then (k : Rat) * pow2 f.qmin
  else ((2 ^ f.mb + k % 2 ^ f.mb : Nat) : Rat) * pow2 (f.qmin + (k / 2 ^ f.mb : Nat) - 1)

end Sys2Proof.Spec

/-- R41, R45, R77, R102, R103 (and R69, R72, R79 for the short and immediate forms): a float instruction none of whose lanes
raises an enabled flag writes its rounded results and ORs its flags into `%fpflags`; nothing else changes. -/
def Obligations.FloatArithmetic : Prop :=
  ∀ i L s t, floatArith i = some L → Current s t → Operands t [(L.vd, L.wd)] L.src [] [] (L.reads t) →
    Untrapped t (L.on t) (fun l => (L.val t l).2) → FloatRuns s t i L

/-- R104, R105, R110: the conversions, REDUX and SCAN. -/
def Obligations.FloatConversionsAndReductions : Prop :=
  ∀ i L s t, floatMove i = some L → Current s t → Operands t [(L.vd, L.wd)] L.src [] [] (L.reads t) →
    Untrapped t (L.on t) (fun l => (L.val t l).2) → FloatRuns s t i L

/-- R77, R79, R103: FCMP. -/
def Obligations.FloatCompares : Prop :=
  ∀ i L s t, floatCompare i = some L → Current s t → Operands t [] L.src [] [] (L.reads t) →
    Untrapped t (L.on t) (fun l => (L.val t l).2) → FloatPredRuns s t i L

/-- R46: an instruction that would set an enabled flag in any lane raises 0x1C0 + the lowest such flag instead, leaves
registers, predicates and `%fpflags` unchanged, and `%trapinfo` holds every flag it would have raised. -/
def Obligations.FloatTrap : Prop :=
  (∀ i L s t entry, (floatArith i = some L ∨ floatMove i = some L) → Trappable s t entry →
    Operands t [(L.vd, L.wd)] L.src [] [] (L.reads t) → ¬Untrapped t (L.on t) (fun l => (L.val t l).2) →
    FloatTraps s t i entry (L.on t) fun l => (L.val t l).2) ∧
  (∀ i L s t entry, floatCompare i = some L → Trappable s t entry → Operands t [] L.src [] [] (L.reads t) →
    ¬Untrapped t (L.on t) (fun l => (L.val t l).2) → FloatTraps s t i entry (L.on t) fun l => (L.val t l).2)

/-- R41, R102: sums and products are exact before they are rounded, and FFMA forms the whole of va × vb + vc. -/
def Obligations.ExactBeforeRounding : Prop :=
  ∀ mode a m e b n d c k q,
    (∃ x, fadd mode (.num a m e) (.num b n d) = (x, 0) ∧ valueOf x = valueOf (.num a m e) + valueOf (.num b n d)) ∧
    (∃ x, fmul (.num a m e) (.num b n d) = (x, 0) ∧ valueOf x = valueOf (.num a m e) * valueOf (.num b n d)) ∧
    (∃ x, ffma mode (.num a m e) (.num b n d) (.num c k q) = (x, 0) ∧
      valueOf x = valueOf (.num a m e) * valueOf (.num b n d) + valueOf (.num c k q))

/-- R42, R43, R47, R48: in each of the eleven float formats of R48, a finite nonzero value that does not overflow is rounded to a
neighbour: rz takes the greatest magnitude not above it, ru and rd the neighbour on their side, rn the nearer one and on a tie the even
one, and rs goes up exactly when its 24 random bits, added to the first 24 bits of the discarded part, carry; NX tells whether it was
inexact. -/
def Obligations.RoundingIsToANeighbour : Prop :=
  ∀ code f, fmtOf code = some f → ∀ (mode : RMode) (neg : Bool) (m : Nat) (e : Int), m ≠ 0 → (∀ q, mode = .rs q → q < 2 ^ 24) →
    (fround f mode (.num neg m e)).2 &&& fOF = 0 →
    ∃ k, (fround f mode (.num neg m e)).1 = f.code neg k ∧ k ≤ f.maxMag ∧
      ((fround f mode (.num neg m e)).2 &&& fNX ≠ 0 ↔ magValue f k ≠ (m : Rat) * pow2 e) ∧
      (mode = .rz ∨ mode = .ru ∧ neg = true ∨ mode = .rd ∧ neg = false →
        magValue f k ≤ (m : Rat) * pow2 e ∧ (m : Rat) * pow2 e < magValue f (k + 1)) ∧
      (mode = .ru ∧ neg = false ∨ mode = .rd ∧ neg = true →
        (m : Rat) * pow2 e ≤ magValue f k ∧ (k = 0 ∨ magValue f (k - 1) < (m : Rat) * pow2 e)) ∧
      (mode = .rn →
        2 * ((m : Rat) * pow2 e) ≤ magValue f k + magValue f (k + 1) ∧
        (2 * ((m : Rat) * pow2 e) = magValue f k + magValue f (k + 1) → k % 2 = 0) ∧
        (k = 0 ∨ magValue f (k - 1) + magValue f k ≤ 2 * ((m : Rat) * pow2 e) ∧
          (magValue f (k - 1) + magValue f k = 2 * ((m : Rat) * pow2 e) → k % 2 = 0))) ∧
      (∀ r, mode = .rs r → ∃ (j d : Nat), magValue f j ≤ (m : Rat) * pow2 e ∧ (m : Rat) * pow2 e < magValue f (j + 1) ∧
        (d : Rat) * (magValue f (j + 1) - magValue f j) ≤ 2 ^ 24 * ((m : Rat) * pow2 e - magValue f j) ∧
        2 ^ 24 * ((m : Rat) * pow2 e - magValue f j) < ((d : Rat) + 1) * (magValue f (j + 1) - magValue f j) ∧
        k = if 2 ^ 24 ≤ d + r then j + 1 else j)

namespace Sys2Proof.Spec

/-! ### Across lanes, pointers, moves between register files (R106 to R112) -/

/-- R107: the segment size of major 0x04. -/
def segment (o : A64) : Nat := 2 ^ sub o.vc 0 4

/-- R108: the position j that SHFL reads in its segment, before the range is checked. -/
def shflIndex (mode i b : Nat) : Int :=
  match mode with
  | 0 => b
  | 1 => (i : Int) - b
  | 2 => (i : Int) + b
  | _ => Nat.xor i b

/-- R108: the lane that lane `l` of a SHFL reads: at the position named, or its own where that lies outside the segment. -/
def shflSource (t : Team) (o : A64) (l : Nat) : Nat :=
  let i := l % segment o
  let j := shflIndex (sub o.m 2 2) i (vgetW t (permLane o.pb l) o.vb.toNat 1)
  if 0 ≤ j ∧ j < segment o then l - i + j.toNat else l

/-- R68, R108: where SHFL reads its sources: va in the lane it exchanges with, through va's permutation there. -/
def ShflReads (o : A64) (w : Nat) (t : Team) (l n : Nat) : Prop :=
  ∃ i, On t o.n o.g i ∧ ((o.va.toNat ≤ n ∧ n < o.va.toNat + w ∧ l = permLane o.pa (shflSource t o i)) ∨
    (n = o.vb.toNat ∧ l = permLane o.pb i))

/-- R109: lane `j` is a participant whose read predicate is true. -/
def Votes (t : Team) (o : A64) (j : Nat) : Prop := On t o.n o.g j ∧ pget t j (sub o.va 0 3) ≠ o.va.getLsbD 3

/-- R106, R107 to R109, R112: the instructions across lanes, on pointers and PMOV.get. -/
def crossLane : Instr → Option LaneSpec
  | .shfl o => some ⟨8, o.vd.toNat, if o.m.getLsbD 4 then 2 else 1,
      [(o.va.toNat, if o.m.getLsbD 4 then 2 else 1), (o.vb.toNat, 1)], fun t l => On t o.n o.g l, fun t l r =>
        r = vgetW t (permLane o.pa (shflSource t o l)) o.va.toNat (if o.m.getLsbD 4 then 2 else 1),
      ShflReads o (if o.m.getLsbD 4 then 2 else 1)⟩
  | .voteBallot o => some ⟨8, o.vd.toNat, 1, [], fun t l => On t o.n o.g l, fun t l r =>
      r < 2 ^ 32 ∧ ∀ j, r.testBit j = true ↔ j < segment o ∧ Votes t o (l / segment o * segment o + j), onMask⟩
  | .voteFfs o => some ⟨8, o.vd.toNat, 1, [], fun t l => On t o.n o.g l, fun t l r =>
      r ≤ segment o ∧ (∀ j, j < r → ¬Votes t o (l / segment o * segment o + j)) ∧
        (r < segment o → Votes t o (l / segment o * segment o + r)), onMask⟩
  | .padd o => some ⟨8, o.vd.toNat, 2, [(o.va.toNat, 2), (o.vb.toNat, 2)], fun t l => On t o.n o.g l, fun t l r =>
      let p := vgetW t (permLane o.pa l) o.va.toNat 2
      let d := asInt 64 true (vgetW t (permLane o.pb l) o.vb.toNat 2)
      let w := if 2 ^ 63 ≤ p then 34 else 60
      r / 2 ^ w = p / 2 ^ w ∧ ∃ k : Int, (r : Int) = p + d + k * 2 ^ w, PermReads o 2 2 0⟩
  | .pmake o => some ⟨8, o.vd.toNat, 2, [(o.va.toNat, 1), (o.vb.toNat, 2)], fun t l => On t o.n o.g l, fun t l r =>
      r = 2 ^ 63 + vgetW t (permLane o.pa l) o.va.toNat 1 % 2 ^ 29 * 2 ^ 34 + vgetW t (permLane o.pb l) o.vb.toNat 2 % 2 ^ 34,
      PermReads o 1 2 0⟩
  | .pgoid o => some ⟨8, o.vd.toNat, 1, [(o.va.toNat, 2)], fun t l => On t o.n o.g l, fun t l r =>
      let p := vgetW t (permLane o.pa l) o.va.toNat 2
      r = if p.testBit 63 then p / 2 ^ 34 % 2 ^ 29 else 0xFFFFFFFF, PermReads o 2 0 0⟩
  | .poff o => some ⟨8, o.vd.toNat, 2, [(o.va.toNat, 2)], fun t l => On t o.n o.g l, fun t l r =>
      let p := vgetW t (permLane o.pa l) o.va.toNat 2
      r = if p.testBit 63 then p % 2 ^ 34 else p % 2 ^ 60, PermReads o 2 0 0⟩
  | .pmovGet o => some ⟨8, o.vd.toNat, 1, [], fun t l => On t o.n o.g l, fun t l r => Bits 8 r fun n => pget t l n, onMask⟩
  | _ => none

/-- R109, R112: the predicates that VOTE.any, VOTE.all and PLOP write. -/
def crossPred : Instr → Option PredSpec
  | .voteAny o => some ⟨8, sub o.vd 0 3, [], fun t l => On t o.n o.g l, fun t l r =>
      r = true ↔ ∃ j, j / segment o = l / segment o ∧ Votes t o j, onMask⟩
  | .voteAll o => some ⟨8, sub o.vd 0 3, [], fun t l => On t o.n o.g l, fun t l r =>
      r = true ↔ ∀ j, j / segment o = l / segment o → On t o.n o.g j → Votes t o j, onMask⟩
  | .plop o => some ⟨8, sub o.vd 0 3, [], fun t l => On t o.n o.g l, fun t l r =>
      r = o.pb.getLsbD (4 * (pget t l (sub o.va 0 3)).toNat + 2 * (pget t l (sub o.vb 0 3)).toNat +
        (pget t l (sub o.vc 0 3)).toNat), onMask⟩
  | _ => none

/-! ### Uniform instructions (R73, R79, R113) -/

/-- An instruction that writes one uniform register: length, destination, uniform sources, value. -/
structure UniSpec where
  len : Nat
  kd : Nat
  ks : List Nat
  val : Team → Word

def UniRuns (s : State) (t : Team) (i : Instr) (L : UniSpec) : Prop :=
  ∃ t', Gives s i t' ∧ WroteUniform t t' L.kd (L.val t) ∧ t' = { next t L.len with k := t'.k, badK := t'.badK }

/-- A word operation of the uniform unit. -/
abbrev WordOp := Word → Word → Word

def smin : WordOp := fun a b => if a.slt b then a else b
def smax : WordOp := fun a b => if a.slt b then b else a
def umin : WordOp := fun a b => if a.ult b then a else b
def umax : WordOp := fun a b => if a.ult b then b else a
def shl : WordOp := fun a b => a <<< b.toNat
def shr : WordOp := fun a b => a >>> b.toNat
def sar : WordOp := fun a b => a.sshiftRight b.toNat
/-- R73: KCMP: conditions 0 to 5 eq, ne, lt, le, gt, ge signed; 6 to 9 lt, le, gt, ge unsigned. -/
def kcond (c : Nat) (a b : Word) : Bool :=
  match c with
  | 0 => a == b
  | 1 => a != b
  | 2 => a.slt b
  | 3 => a.sle b
  | 4 => b.slt a
  | 5 => b.sle a
  | 6 => a.ult b
  | 7 => a.ule b
  | 8 => b.ult a
  | _ => b.ule a

def rk (o : RK) (f : WordOp) : UniSpec :=
  ⟨4, o.d.toNat, [o.a.toNat, o.b.toNat], fun t => f (kget t o.a.toNat) (kget t o.b.toNat)⟩
def rkImm (o : I64) (f : WordOp) : UniSpec :=
  ⟨8, sub o.vd 0 6, [sub o.va 0 6], fun t => f (kget t (sub o.va 0 6)) o.imm⟩

/-- R73, R79, R113: the uniform ALU, KCMP and their immediate forms. -/
def uniform : Instr → Option UniSpec
  | .kmov o => some ⟨4, o.d.toNat, [o.a.toNat], fun t => kget t o.a.toNat⟩
  | .kadd o => some (rk o (· + ·))
  | .ksub o => some (rk o (· - ·))
  | .kmul o => some (rk o (· * ·))
  | .kand o => some (rk o (· &&& ·))
  | .kor o => some (rk o (· ||| ·))
  | .kxor o => some (rk o (· ^^^ ·))
  | .kshl o => some (rk o shl)
  | .kshr o => some (rk o shr)
  | .ksar o => some (rk o sar)
  | .kmin o => some (rk o smin)
  | .kmax o => some (rk o smax)
  | .kminN o => some (rk o umin)
  | .kmaxN o => some (rk o umax)
  | .kcmp o => some ⟨4, o.d.toNat, [o.a.toNat, o.b.toNat], fun t =>
      if kcond o.c.toNat (kget t o.a.toNat) (kget t o.b.toNat) then 1 else 0⟩
  | .kmovImm o => some ⟨8, sub o.vd 0 6, [], fun _ => o.imm⟩
  | .kaddImm o => some (rkImm o (· + ·))
  | .ksubImm o => some (rkImm o (· - ·))
  | .kmulImm o => some (rkImm o (· * ·))
  | .kandImm o => some (rkImm o (· &&& ·))
  | .korImm o => some (rkImm o (· ||| ·))
  | .kxorImm o => some (rkImm o (· ^^^ ·))
  | .kshlImm o => some (rkImm o shl)
  | .kshrImm o => some (rkImm o shr)
  | .ksarImm o => some (rkImm o sar)
  | .kminImm o => some (rkImm o smin)
  | .kmaxImm o => some (rkImm o smax)
  | .kminNImm o => some (rkImm o umin)
  | .kmaxNImm o => some (rkImm o umax)
  | .kcmpImm o => some ⟨8, sub o.vd 0 6, [sub o.va 0 6], fun t =>
      if kcond (o.m.toNat - 16) (kget t (sub o.va 0 6)) o.imm then 1 else 0⟩
  | _ => none

/-! ### Special registers (R115, R116) -/

/-- R116: what a special register reads as, in a team `t` of block `b`, context `c` and node `n`; index `idx`, lane `lane`. -/
def SpecialReads (s : State) (t : Team) (b : Block) (c : Ctx) (n : Node) (num idx lane : Nat) (r : Nat) : Prop :=
  match num with
  | 0x000 => r = lane
  | 0x001 => r = t.num
  | 0x002 => r = t.size
  | 0x003 => r = b.ordinal
  | 0x004 => if n.desc.x = 0 ∨ n.desc.y = 0 then r = b.ordinal else r = b.ordinal % n.desc.x
  | 0x005 => if n.desc.x = 0 ∨ n.desc.y = 0 then r = 0 else r = b.ordinal / n.desc.x % n.desc.y
  | 0x006 => if n.desc.x = 0 ∨ n.desc.y = 0 then r = 0 else r = b.ordinal / (n.desc.x * n.desc.y)
  | 0x007 => r = if n.desc.cluster = 0 then 0xFFFFFFFF else b.ordinal / n.desc.cluster
  | 0x009 => r = n.ident
  | 0x00A => r = n.entry
  | 0x010 => r = 2 * c.dev + c.die
  | 0x011 => r = c.dev
  | 0x012 => r = c.core
  | 0x013 => (c.slot = .a → r = 0) ∧ (c.slot = .b → r = 1) ∧ (c.slot = .wide → r = 2)
  | 0x020 => ∀ j, r.testBit j = true ↔ j < 32 ∧ t.mask.getLsbD (32 * idx + j) = true
  | 0x021 => ∀ j, r.testBit j = true ↔ j < 32 ∧ ∃ k, k < 32 ∧ t.mask.getLsbD (32 * j + k) = true
  | 0x030 => ∀ j, r.testBit j = true ↔ j < 64 ∧ (tgetD b.tags j {}).ready = true
  | 0x031 => r = b.copy.count
  | 0x032 => r = b.mat.count
  | 0x033 => r = b.gath.count
  | 0x034 => r = c.coll.count
  | 0x040 => r = n.p.toNat
  | 0x041 => (∀ x, n.t = some x → r = x.toNat) ∧ (n.t = none → r = 2 ^ 64 - 1)
  | 0x050 => r = clock s c.dev % 2 ^ 64
  | 0x060 => r = t.fpflags.toNat
  | 0x061 => r = t.fptrap.toNat
  | 0x062 => r = b.qsat.toNat
  | 0x070 => r = t.trapcause.toNat
  | 0x071 => r = t.trappc.toNat / 2 * 2
  | 0x072 => r = t.trapinfo.toNat
  | 0x078 => ∀ j, r.testBit j = true ↔ j < 32 ∧ t.lfmask.getLsbD (32 * idx + j) = true
  | 0x079 => r = (tgetD t.lfcause lane 0).toNat
  | 0x07A => r = t.lfmode.toNat
  | 0x080 => (∀ g, tget c.groups idx = some g → g.valid = true → r = g.rank) ∧
      ((∀ g, tget c.groups idx = some g → g.valid = false) → r = 0xFFFFFFFF)
  | 0x081 => r = n.desc.seed.toNat
  | _ => True

/-- R116: the team after SWR of a register of its own: reserved bits are ignored, bit 0 of `%trappc` reads 0. -/
def specialWritten (t : Team) (num : Nat) (x : Dbl) : Team :=
  if num = 0x060 then { t with fpflags := x.setWidth 32 &&& 0x1F }
  else if num = 0x061 then { t with fptrap := x.setWidth 32 &&& 0x1F }
  else if num = 0x070 then { t with trapcause := x.setWidth 32 &&& 0x3FF }
  else if num = 0x071 then { t with trappc := x &&& ~~~1#64 }
  else if num = 0x072 then { t with trapinfo := x.setWidth 32 }
  else if num = 0x07A then { t with lfmode := x.setWidth 32 &&& 1 }
  else t

end Sys2Proof.Spec

/-- R106, R107, R108, R109, R112: SHFL, VOTE.ballot, VOTE.ffs, the pointer operations and PMOV.get complete with their results
in each lane that acts; nothing else changes. -/
def Sys2Proof.Spec.CrossLaneResults : Prop :=
  ∀ i L s t, crossLane i = some L → i.legal = true → Current s t → Operands t [(L.vd, L.wd)] L.src [] [] (L.reads t) → LaneRuns s t i L

/-- R109, R112: VOTE.any, VOTE.all and PLOP write their predicate in each lane that acts; nothing else changes. -/
def Sys2Proof.Spec.CrossLanePredicates : Prop :=
  ∀ i L s t, crossPred i = some L → Current s t → PredRuns s t i L

/-- R106 to R109, R112: the instructions across lanes, on pointers and predicates. -/
def Obligations.AcrossLanes : Prop := Spec.CrossLaneResults ∧ Spec.CrossLanePredicates

/-- R112: PMOV.set, K2V and V2K, and what they leave alone. That the permutation byte on va of PMOV.set and V2K acts as R68 says is the
model's reading (log 35, DEDUCED). -/
def Obligations.MovesBetweenFiles : Prop :=
  (∀ o s t, Current s t → Operands t [] [(o.va.toNat, 1)] [] [] (PermReads o 1 0 0 t) →
    ∃ t', Gives s (.pmovSet o) t' ∧
    (∀ l n, n < 8 → On t o.n o.g l → n ≠ 0 → pget t' l n = (vgetW t (permLane o.pa l) o.va.toNat 1).testBit n) ∧
    (∀ l n, n < 8 → ¬(On t o.n o.g l ∧ n ≠ 0) → pget t' l n = pget t l n) ∧
    (∀ key, key ∈ t'.badP ↔ key ∈ t.badP ∧ ¬On t o.n o.g (key / 8)) ∧ t' = { next t 8 with p := t'.p, badP := t'.badP }) ∧
  (∀ o s t w, w = (if o.m.getLsbD 5 then 2 else 1) → Current s t → Operands t [(o.vd.toNat, w)] [] [(sub o.va 0 6, w)] →
    ∃ t', Gives s (.k2v o) t' ∧
      WroteLanes t t' o.vd.toNat w (fun l => On t o.n o.g l)
        (fun _ => if w = 2 then (kgetD t (sub o.va 0 6)).toNat else (kget t (sub o.va 0 6)).toNat) ∧
      t' = { next t 8 with v := t'.v, bad := t'.bad }) ∧
  (∀ o s t w, w = (if o.m.getLsbD 5 then 2 else 1) → Current s t → Operands t [] [(o.va.toNat, w)] [] [(sub o.vd 0 6, w)] (PermReads o w 0 0 t) →
    ∃ t', Gives s (.v2k o) t' ∧ t' = { next t 8 with k := t'.k, badK := t'.badK } ∧
      ((∀ l, ¬On t o.n o.g l) → t'.k = t.k ∧ t'.badK = t.badK) ∧
      (∀ l, On t o.n o.g l → (∀ j, j < l → ¬On t o.n o.g j) →
        (∀ n, InGroup (sub o.vd 0 6) w n → kget t' n =
          BitVec.ofNat 32 (vgetW t (permLane o.pa l) o.va.toNat w / 2 ^ (32 * (n - sub o.vd 0 6)))) ∧
        (∀ n, ¬InGroup (sub o.vd 0 6) w n → kget t' n = kget t n) ∧
        (∀ n, n ∈ t'.badK ↔ n ∈ t.badK ∧ ¬InGroup (sub o.vd 0 6) w n)))

/-- R73, R79, R113: the uniform ALU, KCMP and their immediate forms act once per team modulo 2^32, raise no flag, and change
nothing else; k0 reads 0 and discards. -/
def Obligations.UniformOperations : Prop :=
  ∀ i L s t, uniform i = some L → i.legal = true → Current s t → Uniforms t [(L.kd, 1)] (L.ks.map fun n => (n, 1)) → UniRuns s t i L

/-- R115, R116: SRD delivers the register's value, per lane or to a uniform register; SWR writes the register's defined bits. -/
def Obligations.SpecialRegisters : Prop :=
  (∀ o s t b c n wd, wd = (if o.m.getLsbD 2 then 2 else 1) → o.m.getLsbD 3 = false → Resident s t b c n →
    Operands t [(o.vd.toNat, wd)] [] [] → ∃ f t', Gives s (.srd o) t' ∧
      (∀ l, On t o.n o.g l → SpecialReads s t b c n (sub o.imm 0 12) (sub o.imm 12 8) l (f l)) ∧
      WroteLanes t t' o.vd.toNat wd (fun l => On t o.n o.g l) f ∧ t' = { next t 8 with v := t'.v, bad := t'.bad }) ∧
  (∀ o s t b c n wd, wd = (if o.m.getLsbD 2 then 2 else 1) → o.m.getLsbD 3 = true → Resident s t b c n →
    sub o.vd 0 6 % wd = 0 → ∃ r t', Gives s (.srd o) t' ∧ SpecialReads s t b c n (sub o.imm 0 12) (sub o.imm 12 8) 0 r ∧
      (∀ k, InGroup (sub o.vd 0 6) wd k → kget t' k = BitVec.ofNat 32 (r / 2 ^ (32 * (k - sub o.vd 0 6)))) ∧
      (∀ k, ¬InGroup (sub o.vd 0 6) wd k → kget t' k = kget t k) ∧ (∀ k, k ∈ t'.badK ↔ k ∈ t.badK ∧ ¬InGroup (sub o.vd 0 6) wd k) ∧ t' = { next t 8 with k := t'.k, badK := t'.badK }) ∧
  (∀ o s t wd x, wd = (if o.m.getLsbD 2 then 2 else 1) → Current s t → Uniforms t [] [(sub o.va 0 6, wd)] →
    x = (if wd = 2 then kgetD t (sub o.va 0 6) else (kget t (sub o.va 0 6)).setWidth 64) → sub o.imm 0 12 ≠ 0x062 →
    Gives s (.swr o) (next (specialWritten t (sub o.imm 0 12) x) 8)) ∧
  (∀ o s t b c n, Resident s t b c n → Uniforms t [] [(sub o.va 0 6, 1)] → o.m.getLsbD 2 = false → sub o.imm 0 12 = 0x062 →
    exec (.swr o) s = .next (putTeam (putBlock s t.block { b with qsat := kget t (sub o.va 0 6) &&& 3 }) s.cur (next t 8)))

namespace Sys2Proof.Spec

/-! ### Paths, branches, calls and traps (R117 to R129) -/

/-- R72: the address an offset field names. -/
def jump {w : Nat} (pc : Dbl) (off : BitVec w) : Dbl := pc + BitVec.ofInt 64 (2 * off.toInt)

/-- The lanes of `m` are those of the mask for which `p` holds. -/
def Lanes (t : Team) (m : LaneSet) (p : Nat → Prop) : Prop := ∀ l, m.getLsbD l = true ↔ t.mask.getLsbD l = true ∧ p l

/-- R119: a path recorded in a frame joins the pending path of its address, or comes last. -/
def recorded (f : Frame) (pc : Dbl) (lanes : LaneSet) : Frame :=
  if ∃ q ∈ f.pending, q.pc = pc then
    { f with pending := f.pending.map fun q => if q.pc = pc then { q with lanes := q.lanes ||| lanes } else q }
  else { f with pending := f.pending ++ [⟨pc, lanes⟩] }

/-- The team runs the path (pc, lanes) next. -/
def onPath (t : Team) (pc : Dbl) (lanes : LaneSet) (frames : List Frame) : Team :=
  { t with pc := pc, mask := lanes, frames := frames, wait := .none, swept := 0, stopAt := none }

/-- R82: condition nibble c: predicate in its low three bits, inverted by bit 3; !p0 never holds. -/
def condHolds (t : Team) (c : BitVec 4) (l : Nat) : Bool := pget t l (c.setWidth 3 : BitVec 3).toNat != c.getLsbD 3

/-- R120: where BRM sends a lane: the first pair whose condition holds, else the next instruction. -/
def brmDest (t : Team) (o : J64) (l : Nat) : Dbl :=
  if condHolds t o.c0 l then jump t.pc o.o0 else if condHolds t o.c1 l then jump t.pc o.o1
  else if condHolds t o.c2 l then jump t.pc o.o2 else if condHolds t o.c3 l then jump t.pc o.o3 else t.pc + 8

/-- R120: which of the five groups a lane falls into. -/
def brmGroup (t : Team) (o : J64) (l : Nat) : Nat :=
  if condHolds t o.c0 l then 0 else if condHolds t o.c1 l then 1 else if condHolds t o.c2 l then 2
  else if condHolds t o.c3 l then 3 else 4

def brmAddress (t : Team) (o : J64) (g : Nat) : Dbl :=
  match g with
  | 0 => jump t.pc o.o0
  | 1 => jump t.pc o.o1
  | 2 => jump t.pc o.o2
  | 3 => jump t.pc o.o3
  | _ => t.pc + 8

/-- R120: the addresses of the non-empty groups, in the order pair 0, 1, 2, 3, fall-through, each once. -/
def brmAddresses (t : Team) (o : J64) : List Dbl :=
  (((List.range 5).filter fun g => (List.range 1024).any fun l => t.mask.getLsbD l && brmGroup t o l == g).map
    (brmAddress t o)).eraseDups

/-- R123: the call entries that stay when a frame of depth `d` is popped. -/
def keptCalls (calls : List CallEntry) (d : Nat) : List CallEntry := calls.filter fun c => decide (c.depth < d)

/-- R121: the current path has ended with the lanes `a` arriving in the top frame `f`, of which the team continues. -/
def PathEnded (s : State) (t : Team) (i : Instr) (f : Frame) (fs : List Frame) (a : LaneSet) : Prop :=
  (∀ p ps, f.pending = p :: ps → Gives s i (onPath t p.pc p.lanes ({ f with arrived := f.arrived ||| a, pending := ps } :: fs))) ∧
  (f.pending = [] → f.arrived ||| a ≠ 0 →
    Gives s i { onPath t f.join (f.arrived ||| a) fs with calls := keptCalls t.calls (fs.length + 1) })

/-- The instruction raises the cause: the team has entered its handler with everything else as it stood (R84, R126). -/
def Raises (s : State) (t : Team) (i : Instr) (entry : Dbl) (cause : Nat) (info : Word) (pc : Dbl) : Prop :=
  Gives s i (trapped t entry cause info pc)

end Sys2Proof.Spec

/-- R118, R119: DIV pushes a frame; BRA goes where all its lanes agree, or splits: the rest is recorded in the top frame and the
taken lanes run at the target. -/
def Sys2Proof.Spec.FramesAndBranches : Prop :=
  (∀ o s t, Current s t → t.frames.length < 16 →
    Gives s (.div o) { next t 4 with frames := { join := jump t.pc o.off, pending := [], arrived := 0 } :: t.frames }) ∧
  (∀ o s t, Current s t → (∀ l, t.mask.getLsbD l = true → On t o.n o.p l) →
    Gives s (.bra o) { t with pc := jump t.pc o.off, wait := .none, swept := 0, stopAt := none }) ∧
  (∀ o s t, Current s t → (∀ l, t.mask.getLsbD l = true → ¬On t o.n o.p l) → Gives s (.bra o) (next t 4)) ∧
  (∀ o s t f fs taken rest, Current s t → t.frames = f :: fs → Lanes t taken (On t o.n o.p) →
    Lanes t rest (fun l => ¬On t o.n o.p l) → taken ≠ 0 → rest ≠ 0 → (recorded f (t.pc + 4) rest).pending.length ≤ 8 →
    Gives s (.bra o) (onPath t (jump t.pc o.off) taken (recorded f (t.pc + 4) rest :: fs)))

/-- R120: BRM sends each lane to the target of the first pair whose condition holds: one group goes on there; of several the
first runs and the others are recorded in order. That an empty pair drops out before pairs of one address merge, and that a merged group
stands where its first non-empty pair stood, is the model's choice (log 42, DESIGN CHOICE). -/
def Sys2Proof.Spec.MultiwayBranch : Prop :=
  (∀ o s t a, Current s t → (∀ l, t.mask.getLsbD l = true → l < t.size ∧ brmDest t o l = a) →
    Gives s (.brm o) { t with pc := a, wait := .none, swept := 0, stopAt := none }) ∧
  (∀ o s t f fs a as (G : Dbl → LaneSet), Current s t → (∀ l, t.mask.getLsbD l = true → l < t.size) →
    t.frames = f :: fs → brmAddresses t o = a :: as → as ≠ [] →
    (∀ x, Lanes t (G x) fun l => brmDest t o l = x) →
    (as.foldl (fun f x => recorded f x (G x)) f).pending.length ≤ 8 →
    Gives s (.brm o) (onPath t a (G a) (as.foldl (fun f x => recorded f x (G x)) f :: fs)))

/-- R118, R119, R120: DIV, BRA and BRM; what becomes of empty and merged pairs of BRM is the model's choice (log 42). -/
def Obligations.Branches : Prop := Spec.FramesAndBranches ∧ Spec.MultiwayBranch

/-- R121, R122: JOIN and EXIT end the current path: the earliest pending path runs next; without one the frame is popped, with
the call entries recorded at its depth or deeper, and the arrived lanes continue at its join address, or the next frame's
path has ended; a team with no lane left has ended. -/
def Obligations.PathEnds : Prop :=
  (∀ s t f fs, Current s t → t.frames = f :: fs → (∀ c, t.calls.head? = some c → c.depth < t.frames.length) →
    PathEnded s t .join f fs t.mask) ∧
  (∀ s t f fs, Current s t → t.frames = f :: fs → PathEnded s t .exit f fs 0) ∧
  (∀ s t f g fs, Current s t → t.frames = f :: g :: fs → f.pending = [] → f.arrived = 0 →
    exec .exit s =
      exec .exit (putTeam s s.cur { t with frames := g :: fs, calls := keptCalls t.calls (fs.length + 2) })) ∧
  (∀ s t, Current s t → t.wait = .none → t.detach = none →
    (t.frames = [] ∨ ∃ f, t.frames = [f] ∧ f.pending = [] ∧ f.arrived = 0) →
    ∃ s' t', exec .exit s = .next s' ∧ tget s'.teams s.cur = some t' ∧ t'.ended = true ∧ t'.mask = 0 ∧ t'.frames = [] ∧
      t'.calls = [] ∧ t'.e1 = false ∧ t'.e2 = false ∧ s'.mem = s.mem)

/-- R123, R124, R125: CALL, RET, KLOOP, NOP.w and YIELD. -/
def Obligations.CallsAndLoops : Prop :=
  (∀ o s t, Current s t → t.calls.length < 16 →
    Gives s (.call o) { t with pc := jump t.pc o.off, calls := ⟨t.pc + 4, t.frames.length⟩ :: t.calls, wait := .none, swept := 0, stopAt := none }) ∧
  (∀ s t c cs, Current s t → t.calls = c :: cs → c.depth = t.frames.length →
    Gives s .ret { t with pc := c.ret, calls := cs, wait := .none, swept := 0, stopAt := none }) ∧
  (∀ o s t, Current s t → Instr.legal (.kloop o) = true → Uniforms t [] [(sub o.vd 0 6, 1)] →
    ∃ t', Gives s (.kloop o) t' ∧ WroteUniform t t' (sub o.vd 0 6) (kget t (sub o.vd 0 6) - 1) ∧
      t' = { t with k := t'.k, badK := t'.badK, wait := .none, swept := 0, stopAt := none,
                    pc := if kget t (sub o.vd 0 6) = 1 then t.pc + 8 else jump t.pc o.imm }) ∧
  (∀ s t, Current s t → Gives s .nopW (next t 4)) ∧
  (∀ s t, Current s t → Gives s .yield { next t 4 with yielded := some s.issues })

/-- R118, R119, R121, R123, R126, R130: the causes of control flow, each raised precisely, with nothing else done. -/
def Obligations.ControlFaults : Prop :=
  ∀ s t entry, Trappable s t entry →
    (∀ o, 16 ≤ t.frames.length → Raises s t (.div o) entry 0x007 0 t.pc) ∧
    (∀ o taken rest, Lanes t taken (On t o.n o.p) → Lanes t rest (fun l => ¬On t o.n o.p l) → taken ≠ 0 → rest ≠ 0 →
      (t.frames = [] → Raises s t (.bra o) entry 0x006 0 t.pc) ∧
      (∀ f fs, t.frames = f :: fs → 8 ≤ f.pending.length → (∀ q ∈ f.pending, q.pc ≠ t.pc + 4) →
        Raises s t (.bra o) entry 0x007 0 t.pc)) ∧
    (t.frames = [] → Raises s t .join entry 0x008 0 t.pc) ∧
    (t.frames ≠ [] → (∃ c, t.calls.head? = some c ∧ t.frames.length ≤ c.depth) → Raises s t .join entry 0x00E 0 t.pc) ∧
    (∀ o, 16 ≤ t.calls.length → Raises s t (.call o) entry 0x00C 0 t.pc) ∧
    (t.calls = [] → Raises s t .ret entry 0x00D 0 t.pc) ∧
    (∀ c cs, t.calls = c :: cs → c.depth ≠ t.frames.length → Raises s t .ret entry 0x00E 0 t.pc) ∧
    Raises s t .eret entry 0x00F 0 t.pc

/-- R125, R126: TRAP n raises 0x340 + n with `%trappc` at the next instruction; BKPT raises 0x303, or halts the team for an
attached debugger; ERET continues at `%trappc` and clears the handler flag. -/
def Obligations.TrapsAndReturn : Prop :=
  (∀ num s t entry, Trappable s t entry → Raises s t (.trap num) entry (0x340 + num.toNat) 0 (t.pc + 4)) ∧
  (∀ imm s t b c n entry, Trappable s t entry → Resident s t b c n → c.attached = false →
    Raises s t (.bkpt imm) entry 0x303 (imm.setWidth 32) t.pc) ∧
  (∀ imm s t b c n, Resident s t b c n → c.attached = true →
    Gives s (.bkpt imm) { t with pc := t.pc + 4, halt := some (0x303, imm.setWidth 32), wait := .none, swept := 0, stopAt := none }) ∧
  (∀ s t, Current s t → t.handler = true →
    Gives s .eret { t with pc := t.trappc &&& ~~~1#64, handler := false, skipBreak := true, wait := .none, swept := 0, stopAt := none })

namespace Sys2Proof.Spec

/-- R22: whether a lane register belongs to the chunks that a mask names (bit 0 E1, bit 1 E2). -/
def InChunk (mask n : Nat) : Prop := (mask.testBit 0 = true ∧ 64 ≤ n ∧ n < 96) ∨ (mask.testBit 1 = true ∧ 96 ≤ n)

/-- R23: the chunks held after a grant keep the budget: E2 only with E1, and no more chunks than the budget. -/
def KeepsBudget (t : Team) (mask : Nat) : Prop :=
  ((t.e2 || mask.testBit 1) = true → (t.e1 || mask.testBit 0) = true) ∧
  (t.e1 || mask.testBit 0).toNat + (t.e2 || mask.testBit 1).toNat ≤ t.budget

/-- R22, R128: the bytes that the missing chunks of a mask take. -/
def missingBytes (t : Team) (mask : Nat) : Nat :=
  (mask.testBit 0 && !t.e1).toNat * (t.size * 128) + (mask.testBit 1 && !t.e2).toNat * (t.size * 128)

/-- R128: the chunks are held; the registers of a new one read 0, every other register is as it was. -/
structure Granted (t t' : Team) (mask : Nat) : Prop where
  e1 : t'.e1 = (t.e1 || mask.testBit 0)
  e2 : t'.e2 = (t.e2 || mask.testBit 1)
  fresh : ∀ l n, n < 128 → InChunk mask n → (n < 96 → t.e1 = false) → (96 ≤ n → t.e2 = false) → vget t' l n = 0
  kept : ∀ l n, n < 128 → ¬InChunk mask n ∨ (n < 96 ∧ t.e1 = true) ∨ (96 ≤ n ∧ t.e2 = true) → vget t' l n = vget t l n

end Sys2Proof.Spec

/-- R22, R23, R127, R128, R129: RACQ takes the missing chunks or none; RACQ.try tells which; a request that does not fit blocks the
team; RREL returns chunks, E2 with E1. -/
def Obligations.RegisterAcquisition : Prop :=
  (∀ o s t b c n mask, Resident s t b c n → mask = o.imm.toNat → KeepsBudget t mask →
    poolUsed s c + missingBytes t mask ≤ poolBytes c →
    ∃ t', Gives s (.racq o) t' ∧ Granted t t' mask ∧
      (o.m.getLsbD 1 = true → WroteUniform t t' (sub o.vd 0 6) 1) ∧ (o.m.getLsbD 1 = false → t'.k = t.k) ∧
      t' = { next t 8 with v := t'.v, bad := t'.bad, e1 := t'.e1, e2 := t'.e2, k := t'.k, badK := t'.badK }) ∧
  (∀ o s t b c n mask, Resident s t b c n → mask = o.imm.toNat → KeepsBudget t mask →
    poolBytes c < poolUsed s c + missingBytes t mask → o.m.getLsbD 1 = true →
    ∃ t', Gives s (.racq o) t' ∧ WroteUniform t t' (sub o.vd 0 6) 0 ∧
      t' = { next t 8 with k := t'.k, badK := t'.badK }) ∧
  (∀ o s t b c n mask, Resident s t b c n → mask = o.imm.toNat → KeepsBudget t mask →
    poolBytes c < poolUsed s c + missingBytes t mask → o.m.getLsbD 1 = false → s.cur ∉ c.racq →
    (∃ id u, id ≠ s.cur ∧ id ∉ c.racq ∧ (id, u) ∈ ctxTeams s c ∧ u.ended = false) →
    exec (.racq o) s = .next (putCtx (putTeam s s.cur { t with wait := .racq mask }) b.ctx { c with racq := c.racq ++ [s.cur] })) ∧
  (∀ o s t entry mask, Trappable s t entry → mask = o.imm.toNat → ¬KeepsBudget t mask →
    Raises s t (.racq o) entry 0x009 0 t.pc) ∧
  (∀ o s t b c n mask, Resident s t b c n → mask = o.imm.toNat → c.racq = [] →
    ∃ t', Gives s (.rrel o) t' ∧ t'.e1 = (t.e1 && !mask.testBit 0) ∧
      t'.e2 = (t.e2 && !(mask.testBit 0 || mask.testBit 1)) ∧
      (∀ l n, n < 64 ∨ (n < 96 ∧ mask.testBit 0 = false) ∨ (mask.testBit 0 = false ∧ mask.testBit 1 = false) →
        n < 128 → vget t' l n = vget t l n) ∧
      t' = { next t 8 with v := t'.v, bad := t'.bad, e1 := t'.e1, e2 := t'.e2 })

namespace Sys2Proof.Spec

/-! ### Memory instructions (R133 to R153) -/

/-- R72, R80, R133: the fields of a load or store: length, size code (1, 2, 4, 8, 16 bytes), base and index, register, byte
offset, sign extension, guard, and the scope of its `.acq` or `.rel`. -/
structure Access where
  len : Nat
  code : Nat
  kbase : Bool
  va : Nat
  vi : Nat
  reg : Nat
  imm : Int
  sext : Bool
  neg : Bool
  g : BitVec 3
  order : Option Nat

/-- R66, R138: registers of a size code. -/
def wordsOf (code : Nat) : Nat := if code = 4 then 4 else if code = 3 then 2 else 1

def m32 (o : Mem32) (code : Nat) : Access :=
  ⟨4, code, false, o.a.toNat, 0, o.d.toNat, o.imm.toInt * 2 ^ code, false, false, o.g, none⟩
def m64 (o : M64) : Access :=
  ⟨8, sub o.m 0 3, o.m.getLsbD 6, o.va.toNat, o.vi.toNat, o.vd.toNat, o.imm.toInt, o.m.getLsbD 3, o.n, o.g,
    if o.m.getLsbD 5 then some o.sc.toNat else none⟩

/-- R138: the loads. -/
def loadForm : Instr → Option Access
  | .ldBM o => some (m32 o 0)
  | .ldHM o => some (m32 o 1)
  | .ldWM o => some (m32 o 2)
  | .ldDM o => some (m32 o 3)
  | .ldQM o => some (m32 o 4)
  | .ld o => some (m64 o)
  | _ => none

/-- R138: the stores. -/
def storeForm : Instr → Option Access
  | .stBM o => some (m32 o 0)
  | .stHM o => some (m32 o 1)
  | .stWM o => some (m32 o 2)
  | .stDM o => some (m32 o 3)
  | .stQM o => some (m32 o 4)
  | .st o => some (m64 o)
  | _ => none

/-- R133: the registers an address is formed from: lane groups and uniform groups. -/
def addressRegs (kbase : Bool) (va vi : Nat) : List (Nat × Nat) := (if kbase then [] else [(va, 2)]) ++ [(vi, 1)]
def addressUni (kbase : Bool) (va : Nat) : List (Nat × Nat) := if kbase then [(va % 64, 2)] else []

/-- R133: the effective address of a lane. -/
def Access.ea (a : Access) (t : Team) (l : Nat) : Dbl := eaOf t a.kbase a.va a.vi a.imm l

/-- R38, R134: a pointer to `size` aligned bytes of the own scratchpad: region 2, member 0, inside the allocation. -/
structure OwnBytes (b : Block) (ea : Dbl) (size : Nat) : Prop where
  flat : ea.getLsbD 63 = false
  region : sub ea 60 3 = 2
  member : sub ea 57 3 = 0
  aligned : sub ea 0 57 % size = 0
  inside : sub ea 0 57 + size ≤ b.spad

/-- The memory key of a byte of the own scratchpad. -/
def ownKey (t : Team) (ea : Dbl) : Nat := spadKey t.block (sub ea 0 57)

/-- R137: the load-store unit holds no access of the context for a full Flume queue. -/
def Free (s : State) (t : Team) : Prop :=
  ∀ b x, tget s.blocks t.block = some b → x ∈ s.reqs → x.2.ctx = b.ctx → x.2.phase ≠ .held

/-- R281: the instruction is issued whole: none of its lanes has been served, and the context does not stop in it. -/
structure Whole (s : State) (t : Team) : Prop where
  served : t.served = 0
  unstopped : t.stopAt = none
  watch : t.watch = []
  free : Free s t

/-- What an access does at its place: it reads, it writes, copies of its line may serve it (R141), its request could combine in the fabric
(R147); its size in bytes. -/
structure Want where
  reads : Bool
  writes : Bool
  copies : Bool
  combines : Bool
  size : Nat

/-- R304: a multicast store of the context is on its way. -/
def Multicasts (s : State) (ctx : Nat) : Prop :=
  ∃ x ∈ s.fabric.msgs, ∃ team entry gid plane set data pending failed sent,
    x.2 = .mcast team ctx entry gid plane set data pending failed sent

/-- R303: a device can be reached: it is the own one, or it is in the pod and some plane is up. -/
def Reach (s : State) (c : Ctx) (dev : Nat) : Prop :=
  dev = c.dev ∨ (dev ∉ s.fabric.absent ∧ dev < s.fabric.devices ∧ ∃ p, p < 32 ∧ p ∉ s.fabric.down)

/-- R134, R178: an aligned object pointer that names a site of the pod, with nothing of the context on its way to its line; a write
comes from a block that is not provisional (R136). -/
structure ObjectPointer (s : State) (b : Block) (c : Ctx) (w : Want) (ea : Dbl) : Prop where
  object : ea.getLsbD 63 = true
  aligned : ea.toNat % w.size = 0
  pod : goidSite (ptrGoid ea) < 2 * s.fabric.devices
  die : c.die < 2
  still : ∀ x ∈ s.moves, x.2.goid ≠ ptrGoid ea
  quiet : ∀ x ∈ s.reqs, x.2.ctx = b.ctx → ∀ i ∈ x.2.items, i.ptr.toNat / 64 ≠ ea.toNat / 64
  silent : ¬Multicasts s b.ctx
  firm : w.writes = true → b.provisional = false

/-- R172, R178: the locator of the issuing site (8 ways in a set) names the object's home, which can be reached; the registry names it
too. A request that could combine (R298) goes to the own device. -/
structure HomeServed (s : State) (b : Block) (c : Ctx) (w : Want) (ea : Dbl) (home : Nat) (e : ObjEntry) : Prop where
  pointer : ObjectPointer s b c w ea
  located : ∃ l, locate s (2 * c.dev + c.die) (ptrGoid ea) = some l ∧ l.site = home
  ways : (tgetD (siteOf s (2 * c.dev + c.die)).locator (Config.locatorHash (ptrGoid ea) % 8192) []).length ≤ 8
  registered : homeSite s (ptrGoid ea) = home
  reached : Reach s c (home / 2)
  near : w.combines = true → home / 2 = c.dev
  entry : objAt s home (ptrGoid ea) = some e
  state : e.state = .home

/-- R184, R185: the virtual address of byte `i` of an access of a thread to region `reg`. -/
def byteVa (s : State) (t : Team) (b : Block) (c : Ctx) (n : Node) (reg lane : Nat) (ea : Dbl) (i : Nat) : Nat :=
  if reg = 1 then privVa s ⟨t, b, c, n⟩ s.cur lane (sub ea 0 60 + i) else sub ea 0 60 + i

/-- R184, R187, R189: the page that maps a virtual address of a context: present, in device bias, and open to the access; `k` is the
memory key of the byte. A write needs the W bit, a translation that it cannot itself change (one that is cached, or the only access of
the instruction), and a line that its key slot holds already. -/
structure Page (s : State) (c : Ctx) (w : Want) (alone : Prop) (reg va k : Nat) (x : Xlat) : Prop where
  mapped : xlate s c reg va = .page x
  bias : x.host = false
  whole : x.pa % 4096 = 0 ∧ x.pa < 2 ^ 52 ∧ x.key < 64
  place : k = physKey s c.dev x.key (x.pa + va % 4096)
  writable : w.writes = true → x.w = true
  settled : w.writes = true → alone ∨ tget c.tlb (reg * 2 ^ 48 + va / 4096) = some x
  held : w.writes = true → k < 2 ^ 64 ∨
    (slotOf s.mem c.dev (x.pa + va % 4096) = x.key ∧ frameOwner s c.dev (x.pa + va % 4096) = none)

/-- R37, R134, R185: an aligned flat pointer into region 0, 1 or 3 each of whose bytes lies on such a page. -/
structure Mapped (s : State) (t : Team) (b : Block) (c : Ctx) (n : Node) (w : Want) (alone : Prop) (lane : Nat) (ea : Dbl)
    (key : Nat → Nat) : Prop where
  flat : ea.getLsbD 63 = false
  region : sub ea 60 3 = 0 ∨ sub ea 60 3 = 1 ∨ sub ea 60 3 = 3
  aligned : ea.toNat % w.size = 0
  own : sub ea 60 3 = 1 → n.desc.private_ % 4 = 0 ∧ sub ea 0 60 + w.size ≤ n.desc.private_
  pages : ∀ i, i < w.size → ∃ x, Page s c w alone (sub ea 60 3) (byteVa s t b c n (sub ea 60 3) lane ea i) (key i) x
  silent : ¬Multicasts s b.ctx
  firm : w.writes = true → b.provisional = false

/-- The places where an access is served at once: the own scratchpad, an object at its home, flat memory. `key i` is the memory key of
byte `i`. -/
def AtHand (s : State) (t : Team) (b : Block) (c : Ctx) (n : Node) (w : Want) (alone : Prop) (lane : Nat) (ea : Dbl)
    (key : Nat → Nat) : Prop :=
  (OwnBytes b ea w.size ∧ ∀ i, i < w.size → key i = ownKey t ea + i) ∨
  (∃ home e, HomeServed s b c w ea home e ∧ sub ea 0 34 + w.size ≤ e.size ∧ ∀ i, i < w.size → key i = ea.toNat + i) ∨
  Mapped s t b c n w alone lane ea key

/-- R141, R196: what the slot's L1 and the die's L2 hold of a byte is what memory holds, and no bad copy. -/
structure Coherent (s : State) (c : Ctx) (k : Nat) : Prop where
  near : ∀ copy x, tget c.l1 (k / 64) = some copy → copy[k % 64]? = some x → x = readByte s.mem k
  die : ∀ copy, tget (siteOf s (2 * c.dev + c.die)).l2 (k / 64) = some copy →
    k / 64 ∉ (siteOf s (2 * c.dev + c.die)).l2bad ∧ ∀ x, copy[k % 64]? = some x → x = readByte s.mem k

/-- R134: an instruction whose accesses in the lanes `on` are all served at once, with no watchpoint, no stored error in what it reads
(R280), coherent copies of what it only loads, and nothing of an earlier issue pending. -/
structure OnMemory (s : State) (t : Team) (b : Block) (c : Ctx) (n : Node) (w : Want) (on : Nat → Prop) (ea : Nat → Dbl)
    (key : Nat → Nat → Nat) : Prop where
  resident : Resident s t b c n
  whole : Whole s t
  quiet : ∀ x ∈ s.reqs, x.2.team ≠ s.cur
  unwatched : c.attached = false
  place : ∀ l, on l → AtHand s t b c n w (∀ j, on j → j = l) l (ea l) (key l)
  sound : w.reads = true → ∀ l i, on l → i < w.size → tget s.errors (errLine (key l i)) = none
  coherent : w.copies = true → ∀ l i, on l → i < w.size → Coherent s c (key l i)

/-- The number that the bytes at `n` keys make, the first the lowest (R3). -/
def gathered (m : Memory) (key : Nat → Nat) : Nat → Nat
  | 0 => 0
  | n + 1 => gathered m key n + (readByte m (key n)).toNat * 256 ^ n

/-- Every byte of memory that no lane's access covers reads as before. -/
def KeptBut (s s' : State) (on : Nat → Prop) (size : Nat) (key : Nat → Nat → Nat) : Prop :=
  ∀ k, (∀ l i, on l → i < size → key l i ≠ k) → readByte s'.mem k = readByte s.mem k

/-- Two lanes' accesses are one location, or share no byte. -/
def OneOrApart (on : Nat → Prop) (size : Nat) (key : Nat → Nat → Nat) : Prop :=
  ∀ l j, on l → on j → (∀ i, i < size → key l i = key j i) ∨ ∀ i i', i < size → i' < size → key l i ≠ key j i'

/-- R141, R153: a release of this scope need not wait: from cluster scope on nothing of the context is outstanding, and from pod
scope on no multicast failure is to be reported. -/
def Released (t : Team) (c : Ctx) (order : Option Nat) : Prop :=
  ∀ sc, order = some sc → (2 ≤ sc → c.out = 0 ∧ ∀ p ∈ c.parked, p.count = 0) ∧ (4 ≤ sc → t.mcfail = [])

/-- Everything a memory instruction leaves alone: the other teams, blocks, nodes, devices, requests, moves. -/
structure Elsewhere (s s' : State) : Prop where
  teams : ∀ id, id ≠ s.cur → tget s'.teams id = tget s.teams id
  blocks : s'.blocks = s.blocks
  nodes : s'.nodes = s.nodes
  devs : s'.devs = s.devs
  reqs : s'.reqs = s.reqs
  moves : s'.moves = s.moves
  cur : s'.cur = s.cur

/-- R138: what a load of a size code delivers of the bytes' value. -/
def loaded (code : Nat) (sext : Bool) (x : Nat) : Nat :=
  if sext && decide (code < 2) then (asInt (8 * 2 ^ code) true x % 2 ^ 32).toNat else x

/-- R145: the value an atomic leaves, of n bits. -/
def atomValue (op : AtomOp) (n old x compare : Nat) : Nat :=
  match op with
  | .add => (old + x) % 2 ^ n
  | .min => if asInt n true old ≤ asInt n true x then old else x
  | .max => if asInt n true x ≤ asInt n true old then old else x
  | .minN => if old ≤ x then old else x
  | .maxN => if x ≤ old then old else x
  | .and => Nat.land old x
  | .or => Nat.lor old x
  | .xor => Nat.xor old x
  | .exch => x
  | .cas => if old = compare then x else old
  | .fadd => (rounded f32 .rn (fadd .rn (fdecode f32 old) (fdecode f32 x))).1

/-- R143: the atomics with their operation. -/
def atomForm : Instr → Option (AtomOp × M64)
  | .atomAdd o => some (.add, o)
  | .atomAddCmb o => some (.add, o)
  | .atomAddNoc o => some (.add, o)
  | .atomAddCmbNoc o => some (.add, o)
  | .atomMin o => some (.min, o)
  | .atomMax o => some (.max, o)
  | .atomMinN o => some (.minN, o)
  | .atomMaxN o => some (.maxN, o)
  | .atomAnd o => some (.and, o)
  | .atomOr o => some (.or, o)
  | .atomXor o => some (.xor, o)
  | .atomExch o => some (.exch, o)
  | .atomCas o => some (.cas, o)
  | .atomFadd o => some (.fadd, o)
  | _ => none

/-- R143: the reductions. -/
def redForm : Instr → Option (AtomOp × M64)
  | .redAdd o => some (.add, o)
  | .redAddNoc o => some (.add, o)
  | .redMin o => some (.min, o)
  | .redMax o => some (.max, o)
  | .redMinN o => some (.minN, o)
  | .redMaxN o => some (.maxN, o)
  | .redAnd o => some (.and, o)
  | .redOr o => some (.or, o)
  | .redXor o => some (.xor, o)
  | _ => none

/-- R147: the forms whose requests may combine in the fabric. -/
def combining : Instr → Bool
  | .atomAdd _ => true
  | .atomAddCmb _ => true
  | .redAdd _ => true
  | _ => false

/-- R144: words of an atomic's value, and of its operand group. -/
def atomWords (o : M64) : Nat := if o.m.getLsbD 7 then 2 else 1
def operandWords (op : AtomOp) (o : M64) : Nat := if op = .cas then 2 * atomWords o else atomWords o

/-- R144: the operand and the comparand of a lane. -/
def operandOf (t : Team) (op : AtomOp) (o : M64) (l : Nat) : Nat :=
  if op = .cas then vgetW t l o.vi.toNat (operandWords op o) / 2 ^ (32 * atomWords o) else vgetW t l o.vi.toNat (operandWords op o)
def comparandOf (t : Team) (op : AtomOp) (o : M64) (l : Nat) : Nat :=
  if op = .cas then vgetW t l o.vi.toNat (operandWords op o) % 2 ^ (32 * atomWords o) else 0

/-- R146: the value at a location after the lanes of `ls` whose location it is have taken effect, in the order of `ls`. -/
def afterLanes (op : AtomOp) (n : Nat) (key : Nat → Nat) (x compare : Nat → Nat) (k : Nat) (old : Nat) (ls : List Nat) : Nat :=
  (ls.filter fun l => decide (key l = k)).foldl (fun v l => atomValue op n v (x l) (compare l)) old

end Sys2Proof.Spec

/-- R133, R138, R139, R141, R66: a load whose lanes are served at once, each from the own scratchpad, from an object at its home or from
flat memory, delivers the bytes at each lane's address, extended; memory and every other register stay as they are. A load to v0 is a
prefetch (R135) and writes nothing. -/
def Obligations.LaneLoads : Prop :=
  ∀ i a s t b c n key, loadForm i = some a → a.code < 5 →
    Operands t [(a.reg, wordsOf a.code)] (addressRegs a.kbase a.va a.vi) (addressUni a.kbase a.va) →
    OnMemory s t b c n ⟨true, false, true, false, 2 ^ a.code⟩ (On t a.neg a.g) (a.ea t) key →
    ∃ s' t', exec i s = .next s' ∧ tget s'.teams s.cur = some t' ∧ Elsewhere s s' ∧
      WroteLanes t t' a.reg (wordsOf a.code) (On t a.neg a.g)
        (fun l => loaded a.code a.sext (gathered s.mem (key l) (2 ^ a.code))) ∧
      (∀ k, readByte s'.mem k = readByte s.mem k) ∧ t' = { next t a.len with v := t'.v, bad := t'.bad }

/-- R133, R138, R139: a store whose lanes are served at once writes the low bytes of each lane's source at its address, the highest
lane last; every other byte of memory and every register stays as it is. -/
def Obligations.LaneStores : Prop :=
  ∀ i a s t b c n key, storeForm i = some a → a.code < 5 →
    Operands t [] (addressRegs a.kbase a.va a.vi ++ [(a.reg, wordsOf a.code)]) (addressUni a.kbase a.va) →
    OnMemory s t b c n ⟨false, true, false, false, 2 ^ a.code⟩ (On t a.neg a.g) (a.ea t) key → Released t c a.order →
    ∃ s', exec i s = .next s' ∧ tget s'.teams s.cur = some (next t a.len) ∧ Elsewhere s s' ∧
      (∀ l i, On t a.neg a.g l → i < 2 ^ a.code →
        (∀ j i', On t a.neg a.g j → i' < 2 ^ a.code → (l < j ∨ l = j ∧ i < i') → key j i' ≠ key l i) →
        readByte s'.mem (key l i) = BitVec.ofNat 8 (vgetW t l a.reg (wordsOf a.code) / 256 ^ i)) ∧
      KeptBut s s' (On t a.neg a.g) (2 ^ a.code) key

/-- R143 to R146: an atomic whose lanes are served at once: lanes of one location take effect in increasing order, each receives the
value it found, and the location ends with the last one's; every other byte and register stays as it is. -/
def Sys2Proof.Spec.LaneAtomics : Prop :=
  ∀ i op o s t b c n on ea key, atomForm i = some (op, o) → i.legal = true → on = On t o.n o.g →
    ea = eaOf t (o.m.getLsbD 6) o.va.toNat 0 o.imm.toInt →
    Operands t [(o.vd.toNat, atomWords o)] ((if o.m.getLsbD 6 then [] else [(o.va.toNat, 2)]) ++
      [(o.vi.toNat, operandWords op o)]) (if o.m.getLsbD 6 then [(sub o.va 0 6, 2)] else []) →
    OnMemory s t b c n ⟨true, true, false, combining i, 4 * atomWords o⟩ on ea key → OneOrApart on (4 * atomWords o) key →
    Released t c (if 2 ≤ sub o.m 4 2 then some o.sc.toNat else none) →
    ∃ s' t', exec i s = .next s' ∧ tget s'.teams s.cur = some t' ∧ Elsewhere s s' ∧
      (let seen := fun l ls => afterLanes op (32 * atomWords o) (fun j => key j 0) (operandOf t op o) (comparandOf t op o)
         (key l 0) (gathered s.mem (key l) (4 * atomWords o)) ls
       WroteLanes t t' o.vd.toNat (atomWords o) on
         (fun l => seen l ((activeLanes t o.n o.g).filter fun j => decide (j < l))) ∧
       (∀ l, on l → gathered s'.mem (key l) (4 * atomWords o) = seen l (activeLanes t o.n o.g)) ∧
       KeptBut s s' on (4 * atomWords o) key) ∧
      t' = { next t 8 with v := t'.v, bad := t'.bad }

/-- R143, R145, R146: a reduction whose lanes are served at once leaves at each location what its lanes leave in increasing order;
every other byte and every register stays as it is. -/
def Sys2Proof.Spec.LaneReductions : Prop :=
  ∀ i op o s t b c n on ea key, redForm i = some (op, o) → i.legal = true → on = On t o.n o.g →
    ea = eaOf t (o.m.getLsbD 6) o.va.toNat o.vi.toNat o.imm.toInt →
    Operands t [] (addressRegs (o.m.getLsbD 6) o.va.toNat o.vi.toNat ++ [(o.vd.toNat, atomWords o)])
      (addressUni (o.m.getLsbD 6) o.va.toNat) →
    OnMemory s t b c n ⟨true, true, false, combining i, 4 * atomWords o⟩ on ea key → OneOrApart on (4 * atomWords o) key →
    Released t c (if sub o.m 4 2 = 2 then some o.sc.toNat else none) →
    ∃ s', exec i s = .next s' ∧ tget s'.teams s.cur = some (next t 8) ∧ Elsewhere s s' ∧
      (∀ l, on l → gathered s'.mem (key l) (4 * atomWords o) =
        afterLanes op (32 * atomWords o) (fun j => key j 0) (fun j => vgetW t j o.vd.toNat (atomWords o)) (fun _ => 0) (key l 0)
          (gathered s.mem (key l) (4 * atomWords o)) (activeLanes t o.n o.g)) ∧
      KeptBut s s' on (4 * atomWords o) key

/-- R143 to R146: ATOM and RED in the own scratchpad, on objects at home and in flat memory. -/
def Obligations.LaneReadModifyWrite : Prop := Spec.LaneAtomics ∧ Spec.LaneReductions

namespace Sys2Proof.Spec

/-- R142: the one access of KLD and KST: address, size code, register. -/
def kAddress (t : Team) (o : M64) : Dbl := advance (kgetD t (sub o.va 0 6)) o.imm.toInt

/-- R178, R190, R298: an access that no copy serves leaves as a request: to the site that the locator names where the object is not
served, to a combining table where it may combine on another device, or to the registry where the locator names no site. -/
structure Leaves (s : State) (b : Block) (c : Ctx) (w : Want) (ea : Dbl) (site : Nat) (phase : ReqPhase) : Prop where
  pointer : ObjectPointer s b c w ea
  target : (∃ l, locate s (2 * c.dev + c.die) (ptrGoid ea) = some l ∧ l.site = site ∧
      (phase = .egress ∧ w.combines = true ∧ site / 2 ≠ c.dev ∨
       phase = .toSite ∧ (w.combines = true → site / 2 = c.dev) ∧
        ∀ e, objAt s site (ptrGoid ea) = some e → e.state = .stub ∨ e.state = .collected)) ∨
    (locate s (2 * c.dev + c.die) (ptrGoid ea) = none ∧ site = goidSite (ptrGoid ea) ∧ phase = .registry)
  reached : Reach s c (site / 2)
  uncopied : w.copies = true → tget c.l1 (ea.toNat / 64) = none ∧ tget (siteOf s (2 * c.dev + c.die)).l2 (ea.toNat / 64) = none

/-- The instruction's one access has left as the request that `like` describes, whose number is the next free one, and the team waits for
its answer. -/
def SendsOne (s : State) (t : Team) (b : Block) (c : Ctx) (i : Instr) (ea : Dbl) (site : Nat) (phase : ReqPhase) (lane : Option Nat)
    (like : Req → Prop) (data compare : Nat) : Prop :=
  ∃ s' q, exec i s = .next s' ∧ s'.mem = s.mem ∧ tget s'.reqs s.fresh = some q ∧ q.team = s.cur ∧ q.ctx = b.ctx ∧
    q.from_ = 2 * c.dev + c.die ∧ q.site = site ∧ q.phase = phase ∧ q.hops = 0 ∧
    q.items = [⟨lane, ea, [(ea.toNat, q.size)], data, compare⟩] ∧ like q ∧
    tget s'.teams s.cur = some { t with wait := .queued, served := 1#1024 <<< lane.getD 0 }

/-- A memory instruction may issue now, and `l` is the one lane it acts in. -/
structure OneLane (s : State) (t : Team) (b : Block) (c : Ctx) (n : Node) (neg : Bool) (g : BitVec 3) (l : Nat) : Prop where
  resident : Resident s t b c n
  whole : Whole s t
  quiet : ∀ x ∈ s.reqs, x.2.team ≠ s.cur
  unwatched : c.attached = false
  acts : On t neg g l
  only : ∀ j, On t neg g j → j = l

end Sys2Proof.Spec

/-- R142, R138, R172, R184: KLD of a place served at once delivers the bytes at its address to its uniform registers, and KST writes the
low bytes of its source there and nowhere else. A KLD to k0 is a prefetch (R135). That region 1 is thread 0's is the model's choice
(log 20, DESIGN CHOICE). -/
def Sys2Proof.Spec.UniformAtHand : Prop :=
  (∀ o s t b c n code key, code = sub o.m 1 3 → code < 4 → Uniforms t [(sub o.vd 0 6, wordsOf code)] [(sub o.va 0 6, 2)] →
    OnMemory s t b c n ⟨true, false, true, false, 2 ^ code⟩ (fun l => l = 0) (fun _ => kAddress t o) key →
    ∃ s' t', exec (.kld o) s = .next s' ∧ tget s'.teams s.cur = some t' ∧
      (∀ k, InGroup (sub o.vd 0 6) (wordsOf code) k → kget t' k = BitVec.ofNat 32
        (loaded code (o.m.getLsbD 4) (gathered s.mem (key 0) (2 ^ code)) / 2 ^ (32 * (k - sub o.vd 0 6)))) ∧
      (∀ k, ¬InGroup (sub o.vd 0 6) (wordsOf code) k → kget t' k = kget t k) ∧
      (∀ k, k ∈ t'.badK ↔ k ∈ t.badK ∧ ¬InGroup (sub o.vd 0 6) (wordsOf code) k) ∧
      (∀ k, readByte s'.mem k = readByte s.mem k) ∧ t' = { next t 8 with k := t'.k, badK := t'.badK }) ∧
  (∀ o s t b c n code key, code = sub o.m 1 3 → code < 4 → Uniforms t [] [(sub o.va 0 6, 2), (sub o.vd 0 6, wordsOf code)] →
    OnMemory s t b c n ⟨false, true, false, false, 2 ^ code⟩ (fun l => l = 0) (fun _ => kAddress t o) key →
    Released t c (if o.m.getLsbD 5 then some o.sc.toNat else none) →
    ∃ s', exec (.kst o) s = .next s' ∧ tget s'.teams s.cur = some (next t 8) ∧
      gathered s'.mem (key 0) (2 ^ code) =
        (if code = 3 then (kgetD t (sub o.vd 0 6)).toNat else (kget t (sub o.vd 0 6)).toNat) % 256 ^ 2 ^ code ∧
      KeptBut s s' (fun l => l = 0) (2 ^ code) key)

/-- R142, R178, R190: a KLD or KST whose object is not served where the locator points, and an LD, ST, ATOM or RED of one lane there,
leaves as a request that carries its operation, and the team waits for the answer. -/
def Sys2Proof.Spec.AccessesLeave : Prop :=
  (∀ o s t b c n code site phase, code = sub o.m 1 3 → code < 4 → sub o.vd 0 6 ≠ 0 → Resident s t b c n → Whole s t →
    (∀ x ∈ s.reqs, x.2.team ≠ s.cur) → c.attached = false → Uniforms t [(sub o.vd 0 6, wordsOf code)] [(sub o.va 0 6, 2)] →
    Leaves s b c ⟨true, false, true, false, 2 ^ code⟩ (kAddress t o) site phase →
    SendsOne s t b c (.kld o) (kAddress t o) site phase none (fun q => q.kind = .load (o.m.getLsbD 4) (o.m.getLsbD 6) ∧
      q.size = 2 ^ code ∧ q.dest = sub o.vd 0 6 ∧ q.combine = false) 0 0) ∧
  (∀ o s t b c n code site phase, code = sub o.m 1 3 → code < 4 → Resident s t b c n → Whole s t →
    (∀ x ∈ s.reqs, x.2.team ≠ s.cur) → c.attached = false →
    Uniforms t [] [(sub o.va 0 6, 2), (sub o.vd 0 6, wordsOf code)] →
    Leaves s b c ⟨false, true, false, false, 2 ^ code⟩ (kAddress t o) site phase →
    Released t c (if o.m.getLsbD 5 then some o.sc.toNat else none) →
    SendsOne s t b c (.kst o) (kAddress t o) site phase none (fun q => q.kind = .store ∧ q.size = 2 ^ code ∧ q.combine = false)
      (if code = 3 then (kgetD t (sub o.vd 0 6)).toNat else (kget t (sub o.vd 0 6)).toNat) 0) ∧
  (∀ i a s t b c n l site phase, loadForm i = some a → a.code < 5 → a.reg ≠ 0 →
    Operands t [(a.reg, wordsOf a.code)] (addressRegs a.kbase a.va a.vi) (addressUni a.kbase a.va) →
    OneLane s t b c n a.neg a.g l → Leaves s b c ⟨true, false, true, false, 2 ^ a.code⟩ (a.ea t l) site phase →
    SendsOne s t b c i (a.ea t l) site phase (some l) (fun q => (∃ nc, q.kind = .load a.sext nc) ∧ q.size = 2 ^ a.code ∧
      q.dest = a.reg ∧ q.combine = false) 0 0) ∧
  (∀ i a s t b c n l site phase, storeForm i = some a → a.code < 5 →
    Operands t [] (addressRegs a.kbase a.va a.vi ++ [(a.reg, wordsOf a.code)]) (addressUni a.kbase a.va) →
    OneLane s t b c n a.neg a.g l → Leaves s b c ⟨false, true, false, false, 2 ^ a.code⟩ (a.ea t l) site phase → Released t c a.order →
    SendsOne s t b c i (a.ea t l) site phase (some l) (fun q => q.kind = .store ∧ q.size = 2 ^ a.code ∧ q.combine = false)
      (vgetW t l a.reg (wordsOf a.code)) 0) ∧
  (∀ i op o s t b c n l ea site phase, atomForm i = some (op, o) → i.legal = true →
    ea = eaOf t (o.m.getLsbD 6) o.va.toNat 0 o.imm.toInt l →
    Operands t [(o.vd.toNat, atomWords o)] ((if o.m.getLsbD 6 then [] else [(o.va.toNat, 2)]) ++
      [(o.vi.toNat, operandWords op o)]) (if o.m.getLsbD 6 then [(sub o.va 0 6, 2)] else []) →
    OneLane s t b c n o.n o.g l → Leaves s b c ⟨true, true, false, combining i, 4 * atomWords o⟩ ea site phase →
    Released t c (if 2 ≤ sub o.m 4 2 then some o.sc.toNat else none) →
    SendsOne s t b c i ea site phase (some l) (fun q => q.kind = .atom op ∧ q.size = 4 * atomWords o ∧ q.dest = o.vd.toNat ∧
      q.combine = combining i ∧ q.sum = asInt (32 * atomWords o) true (operandOf t op o l)) (operandOf t op o l) (comparandOf t op o l)) ∧
  (∀ i op o s t b c n l ea site phase, redForm i = some (op, o) → i.legal = true →
    ea = eaOf t (o.m.getLsbD 6) o.va.toNat o.vi.toNat o.imm.toInt l →
    Operands t [] (addressRegs (o.m.getLsbD 6) o.va.toNat o.vi.toNat ++ [(o.vd.toNat, atomWords o)])
      (addressUni (o.m.getLsbD 6) o.va.toNat) →
    OneLane s t b c n o.n o.g l → Leaves s b c ⟨true, true, false, combining i, 4 * atomWords o⟩ ea site phase →
    Released t c (if sub o.m 4 2 = 2 then some o.sc.toNat else none) →
    SendsOne s t b c i ea site phase (some l) (fun q => q.kind = .red op ∧ q.size = 4 * atomWords o ∧ q.combine = combining i ∧
      q.sum = asInt (32 * atomWords o) true (vgetW t l o.vd.toNat (atomWords o))) (vgetW t l o.vd.toNat (atomWords o)) 0)

/-- R142, R178, R190: KLD and KST at every place, and the accesses that leave as requests. -/
def Obligations.UniformAndSentAccesses : Prop := Spec.UniformAtHand ∧ Spec.AccessesLeave

namespace Sys2Proof.Spec

/-- A load or a store with its operands. -/
def LoadOrStore (t : Team) (i : Instr) (a : Access) : Prop :=
  loadForm i = some a ∧ a.reg ≠ 0 ∧ Operands t [(a.reg, wordsOf a.code)] (addressRegs a.kbase a.va a.vi) (addressUni a.kbase a.va) ∨
  storeForm i = some a ∧ Operands t [] (addressRegs a.kbase a.va a.vi ++ [(a.reg, wordsOf a.code)]) (addressUni a.kbase a.va)

/-- R134: the first check that the one address `ea` of an access of `size` bytes fails. -/
def FailsCheck (s : State) (b : Block) (c : Ctx) (n : Node) (store : Bool) (ea : Dbl) (size cause : Nat) : Prop :=
  (ea.getLsbD 63 = false ∧
    (4 ≤ sub ea 60 3 ∧ cause = 0x042 ∨
     sub ea 60 3 = 2 ∧ sub ea 57 3 ≠ 0 ∧ n.desc.cluster ≤ (b.rank + sub ea 57 3) % 8 ∧ cause = 0x043 ∨
     sub ea 60 3 = 2 ∧ sub ea 57 3 = 0 ∧ sub ea 0 57 % size ≠ 0 ∧ cause = 0x041 ∨
     sub ea 60 3 = 2 ∧ sub ea 57 3 = 0 ∧ sub ea 0 57 % size = 0 ∧ b.spad < sub ea 0 57 + size ∧ cause = 0x040 ∨
     ea.toNat % size = 0 ∧ sub ea 60 3 = 1 ∧ n.desc.private_ < sub ea 0 60 + size ∧ cause = 0x080 ∨
     ea.toNat % size = 0 ∧ (sub ea 60 3 = 0 ∨ sub ea 60 3 = 3) ∧ xlate s c (sub ea 60 3) (sub ea 0 60) = .none ∧ cause = 0x080 ∨
     ea.toNat % size = 0 ∧ (sub ea 60 3 = 0 ∨ sub ea 60 3 = 3) ∧ store = true ∧ cause = 0x081 ∧
      (xlate s c (sub ea 60 3) (sub ea 0 60) = .absent true ∨ ∃ x, xlate s c (sub ea 60 3) (sub ea 0 60) = .page x ∧ x.w = false))) ∨
  ((ea.getLsbD 63 = true ∨ sub ea 60 3 < 2 ∨ sub ea 60 3 = 3) ∧ ea.toNat % size ≠ 0 ∧ cause = 0x044) ∨
  (ea.getLsbD 63 = true ∧ ea.toNat % size = 0 ∧ 2 * s.fabric.devices ≤ goidSite (ptrGoid ea) ∧ ¬Multicasts s b.ctx ∧ cause = 0x0C3) ∨
  (∃ home e, HomeServed s b c ⟨!store, store, !store, false, size⟩ ea home e ∧ e.size < sub ea 0 34 + size ∧ cause = 0x0C1 ∧
    tget c.l1 (ea.toNat / 64) = none ∧ tget (siteOf s (2 * c.dev + c.die)).l2 (ea.toNat / 64) = none)

/-- R184: a reserved field of a table entry is not zero. -/
def Reserved (e : Nat) : Prop := ∃ i, e.testBit i = true ∧ (i = 1 ∨ 6 ≤ i ∧ i < 12 ∨ 52 ≤ i ∧ i < 56 ∨ 62 ≤ i)

end Sys2Proof.Spec

/-- R9, R131, R134: the checks of a load or store in their order: a lane that fails one is switched off, its fault recorded, and its
registers and memory stay as they are; the instruction completes with the lanes that are left. -/
def Sys2Proof.Spec.IssueFaults : Prop :=
  ∀ i a s t b c n l cause, a.code < 5 → LoadOrStore t i a → OneLane s t b c n a.neg a.g l → t.handler = false → t.detach = none →
    a.order = none → b.provisional = false → (∃ j, j ≠ l ∧ t.mask.getLsbD j = true) →
    FailsCheck s b c n (storeForm i).isSome (a.ea t l) (2 ^ a.code) cause →
    ∃ s' t', exec i s = .next s' ∧ tget s'.teams s.cur = some t' ∧ (∀ k, readByte s'.mem k = readByte s.mem k) ∧
      (∀ j, t'.mask.getLsbD j = true ↔ t.mask.getLsbD j = true ∧ j ≠ l) ∧
      (∀ j, t'.lfmask.getLsbD j = true ↔ t.lfmask.getLsbD j = true ∨ j = l) ∧
      (tget t.lfcause l = none → tget t'.lfcause l = some (BitVec.ofNat 32 cause)) ∧
      t' = { next t a.len with mask := t'.mask, lfmask := t'.lfmask, lfcause := t'.lfcause, lfnew := t'.lfnew }

/-- R134, R184, R186, R187: an access to a page that is not present, or in host bias, posts its address to the VF firmware core and
stalls; memory stays as it is. -/
def Sys2Proof.Spec.PageStalls : Prop :=
  ∀ i a s t b c n l reg va, a.code < 5 → LoadOrStore t i a → OneLane s t b c n a.neg a.g l → a.order = none → b.provisional = false →
    (a.ea t l).getLsbD 63 = false → (a.ea t l).toNat % 2 ^ a.code = 0 → reg = sub (a.ea t l) 60 3 → reg = 0 ∨ reg = 3 →
    va = sub (a.ea t l) 0 60 →
    xlate s c reg va = .absent false ∨ (∃ x, xlate s c reg va = .page x ∧ x.w = true ∧ x.host = true) →
    ∃ s', exec i s = .next s' ∧ s'.mem = s.mem ∧ tget s'.teams s.cur = some { t with wait := .page } ∧
      ⟨b.ctx, reg, va, (storeForm i).isSome⟩ ∈ (vfOf s' c.dev c.vf).posts

/-- R184: translation: bits [59:48] that are not zero map nothing; a cached translation stands; otherwise a walk of four levels from the
region's root. A level reads the entry that its nine bits index: V = 0 or a reserved field maps nothing; P = 0 is not present; the fourth
level, and L at the third, give the page. That the tables' lines are read under the slot they were last written with, that PA bits [20:12]
of a 2 MiB page that are not zero map nothing, and that L elsewhere is ignored is the model's choice (log 39). -/
def Sys2Proof.Spec.PageWalk : Prop :=
  (∀ s c reg va, 2 ^ 48 ≤ va → xlate s c reg va = .none) ∧
  (∀ s (c : Ctx) reg va x, va < 2 ^ 48 → tget c.tlb (reg * 2 ^ 48 + va / 4096) = some x → xlate s c reg va = .page x) ∧
  (∀ s (c : Ctx) reg va, va < 2 ^ 48 → tget c.tlb (reg * 2 ^ 48 + va / 4096) = none →
    (∀ root, tget c.roots reg = some root → xlate s c reg va = walkLevel s.mem c.dev reg va 3 root) ∧
    (tget c.roots reg = none → xlate s c reg va = .none)) ∧
  (∀ (m : Memory) dev reg va n table at_ e pa, at_ = table + 8 * (va / 2 ^ (12 + 9 * n) % 512) →
    e = readNat m (slotKey dev (slotOf m dev at_) at_) 8 → pa = e / 4096 % 2 ^ 40 * 4096 →
    (e.testBit 0 = false ∨ Reserved e → walkLevel m dev reg va n table = .none) ∧
    (e.testBit 0 = true → ¬Reserved e →
      (n = 1 → e.testBit 4 = true → reg = 3 ∨ pa % 2 ^ 21 ≠ 0 → walkLevel m dev reg va n table = .none) ∧
      (n = 1 → e.testBit 4 = true → reg ≠ 3 → pa % 2 ^ 21 = 0 →
        (e.testBit 2 = false → walkLevel m dev reg va n table = .absent (!e.testBit 3)) ∧
        (e.testBit 2 = true → walkLevel m dev reg va n table =
          .page ⟨pa + va / 4096 % 512 * 4096, e.testBit 3, false, e / 2 ^ 56 % 64⟩)) ∧
      (n = 0 → (e.testBit 2 = false → walkLevel m dev reg va n table = .absent (!e.testBit 3)) ∧
        (e.testBit 2 = true → walkLevel m dev reg va n table =
          .page ⟨pa, e.testBit 3, decide (reg = 3) && e.testBit 5, e / 2 ^ 56 % 64⟩)) ∧
      (n ≠ 0 → (n = 1 → e.testBit 4 = false) → (e.testBit 2 = false → walkLevel m dev reg va n table = .absent false) ∧
        (e.testBit 2 = true → walkLevel m dev reg va n table = walkLevel m dev reg va (n - 1) pa))))

/-- R9, R131, R134, R184, R186: the faults of an access, translation, and the stall on a page. -/
def Obligations.FaultsAndTranslation : Prop := Spec.IssueFaults ∧ Spec.PageStalls ∧ Spec.PageWalk

/-- R149: a WAITA whose words, each at hand in the own scratchpad, at an object's home or in flat memory, differ from what it expects in
some lane, or that has been woken, loads every lane's word; one whose words are all as expected blocks the team, and watches every
byte of every word. -/
def Sys2Proof.Spec.WaitOnAddress : Prop :=
  ∀ o s t b c n w on ea key, w = (if o.m.getLsbD 2 then 2 else 1) → on = On t o.n o.g →
    ea = eaOf t (o.m.getLsbD 6) o.va.toNat 0 o.imm.toInt →
    Operands t [(o.vd.toNat, w)] ((if o.m.getLsbD 6 then [] else [(o.va.toNat, 2)]) ++ [(o.vi.toNat, w)])
      (if o.m.getLsbD 6 then [(sub o.va 0 6, 2)] else []) →
    OnMemory s t b c n ⟨true, false, false, false, 4 * w⟩ on ea key →
    (let value := fun l => gathered s.mem (key l) (4 * w)
     ((t.wait = .none ∧ ∃ l, on l ∧ value l ≠ vgetW t l o.vi.toNat w) ∨ (∃ since watch, t.wait = .waita true since watch) →
       ∃ s' t', exec (.waita o) s = .next s' ∧ tget s'.teams s.cur = some t' ∧ Elsewhere s s' ∧
         WroteLanes t t' o.vd.toNat w on value ∧ (∀ k, readByte s'.mem k = readByte s.mem k) ∧
         t' = { next t 8 with v := t'.v, bad := t'.bad }) ∧
     (t.wait = .none → (∃ l, on l) → (∀ l, on l → value l = vgetW t l o.vi.toNat w) →
       ∃ s' since watch, exec (.waita o) s = .next s' ∧ s'.mem = s.mem ∧ Elsewhere s s' ∧
         tget s'.teams s.cur = some { t with wait := .waita false since watch } ∧
         (∀ l i, on l → i < 4 * w → ∃ y ∈ watch, y.key ≤ key l i ∧ key l i < y.key + y.bytes ∧ y.value = readNat s.mem y.key y.bytes)) ∧
     (t.wait = .none → (∀ l, ¬on l) → ∃ s', exec (.waita o) s = .next s' ∧ s'.mem = s.mem ∧
       tget s'.teams s.cur = some (next t 8)))

/-- R304: a multicast store of the team is on its way. -/
def Multicasting (s : State) (team : Nat) : Prop :=
  ∃ x ∈ s.fabric.msgs, ∃ ctx entry gid plane set data pending failed sent,
    x.2 = .mcast team ctx entry gid plane set data pending failed sent

/-- R141, R151, R153: FENCE.acq drops the L1 lines of the slot from cluster scope on and the remote lines of the die's L2 from pod
scope on; FENCE.rel and FENCE.ar wait for the context's outstanding stores and report a failed multicast; FENCE.rec
waits for the team's multicasts and empties the record cache. -/
def Sys2Proof.Spec.Fences : Prop :=
  (∀ o s t b c n, Resident s t b c n → t.served = 0 → t.watch = [] → ∃ s' c', exec (.fenceAcq o) s = .next s' ∧
    tget s'.teams s.cur = some (next t 8) ∧ s'.mem = s.mem ∧ tget s'.ctxs b.ctx = some c' ∧ Elsewhere s s' ∧
    c' = { c with l1 := if 2 ≤ o.sc.toNat then [] else c.l1 } ∧
    (siteOf s' (2 * c.dev + c.die)).l2 = if 4 ≤ o.sc.toNat then [] else (siteOf s (2 * c.dev + c.die)).l2) ∧
  (∀ o s t b c n, Resident s t b c n → t.served = 0 → t.watch = [] → Released t c (some o.sc.toNat) →
    Gives s (.fenceRel o) (next t 8)) ∧
  (∀ o s t b c n, Resident s t b c n → t.served = 0 → t.watch = [] → Released t c (some o.sc.toNat) →
    ∃ s' c', exec (.fenceAr o) s = .next s' ∧ tget s'.teams s.cur = some (next t 8) ∧ s'.mem = s.mem ∧
      tget s'.ctxs b.ctx = some c' ∧ Elsewhere s s' ∧ c' = { c with l1 := if 2 ≤ o.sc.toNat then [] else c.l1 }) ∧
  (∀ o s t b c n i, i = .fenceRel o ∨ i = .fenceAr o → Resident s t b c n → 2 ≤ o.sc.toNat →
    (c.out ≠ 0 ∨ ∃ p ∈ c.parked, p.count ≠ 0) →
    exec i s = .next (putTeam s s.cur { t with wait := .release })) ∧
  (∀ s t b c n, Resident s t b c n → ¬Multicasting s s.cur →
    exec .fenceRec s = .next (putTeam (putCtx s b.ctx { c with records := [] }) s.cur (next t 8))) ∧
  (∀ s t b c n, Resident s t b c n → Multicasting s s.cur →
    exec .fenceRec s = .next (putTeam s s.cur { t with wait := .release }))

/-- R141, R149, R151, R153: WAITA and the fences. -/
def Obligations.WaitsAndFences : Prop := Spec.WaitOnAddress ∧ Spec.Fences

namespace Sys2Proof.Spec

/-- R304: the lines of the window that some lanes write, in the order of their lowest lanes. -/
def lineOrder (off : Nat → Nat) (ls : List Nat) : List Nat := (ls.map fun l => off l / 64).eraseDups

end Sys2Proof.Spec

/-- R152, R304: ST.mc sends, for each line of the window that the lanes that act write, one request with the bytes of its lanes in
increasing order to the window of every member of a valid group entry, on the plane of the group and the line (R295), and counts
each as outstanding until its merged acknowledgement; that the plane is hashed from the group and the offset of the request's first byte
is the model's choice (log 15). One that meets an unanswered request of its context to a line it writes waits (R195, R210). -/
def Obligations.MulticastStores : Prop :=
  (∀ o s t b c n g e w size off lines, g = o.imm.toNat → w = wordsOf (sub o.m 2 3) → size = 2 ^ sub o.m 2 3 → sub o.m 2 3 < 5 →
    Resident s t b c n → Operands t [] [(o.va.toNat, 2), (o.vd.toNat, w)] [] → b.provisional = false → c.attached = false →
    Whole s t → (∀ x ∈ s.reqs, x.2.ctx ≠ b.ctx) → tget c.groups g = some e → e.valid = true → (∃ p, p < 32 ∧ p ∉ s.fabric.down) →
    (o.m.getLsbD 5 = true → 2 ≤ o.sc.toNat → c.out = 0 ∧ ∀ p ∈ c.parked, p.count = 0) →
    off = (fun l => vgetW t l o.va.toNat 2) → lines = lineOrder off (activeLanes t o.n o.g) →
    (∀ l, On t o.n o.g l → off l % size = 0 ∧ off l + size ≤ e.bytes.toNat) →
    ∃ s' c', exec (.stMc o) s = .next s' ∧ tget s'.teams s.cur = some (next t 8) ∧ s'.mem = s.mem ∧
      tget s'.ctxs b.ctx = some c' ∧ c' = { c with out := c.out + lines.length } ∧
      (∀ k line, lines[k]? = some line → ∃ plane data first, tget s'.fabric.msgs (s.fresh + k) = some
        (.mcast s.cur b.ctx g e.gid plane c.set data (setLanes e.members 1024) 0 false) ∧
        data = ((activeLanes t o.n o.g).filter fun l => decide (off l / 64 = line)).map
          (fun l => (off l, natBytes size (vgetW t l o.vd.toNat w))) ∧
        data.head? = some first ∧ plane = planeOf s e.gid first.1)) ∧
  (∀ o s t entry b, Trappable s t entry → Operands t [] [(o.va.toNat, 2), (o.vd.toNat, wordsOf (sub o.m 2 3))] [] → Free s t →
    tget s.blocks t.block = some b → (∀ c e, tget s.ctxs b.ctx = some c → tget c.groups o.imm.toNat = some e → e.valid = false) →
    Raises s t (.stMc o) entry 0x240 (BitVec.ofNat 32 o.imm.toNat) t.pc)

namespace Sys2Proof.Spec

/-! ### Barriers, tags and timelines (R154 to R162) -/

/-- R154: barrier number `num` names the barrier `r` for a team that is a member. -/
def Names (t : Team) (b : Block) (n : Node) (num : Nat) (r : BarRef) : Prop :=
  (num < 16 ∧ (∃ m, tget b.barMask num = some m ∧ m.testBit t.num = true) ∧ r = .block t.block num) ∨
  (16 ≤ num ∧ num < 24 ∧ n.desc.cluster ≠ 0 ∧ r = .node b.node (b.ordinal / n.desc.cluster * 32 + num) num) ∨
  (24 ≤ num ∧ num < 28 ∧ n.desc.coop = true ∧ r = .node b.node num num)

/-- R157: the byte counter of the current phase; a grid barrier has none and takes 0. -/
def barBytes (r : BarRef) (x : Bar) : Int :=
  match r with
  | .node _ _ num => if 24 ≤ num then 0 else if x.phase % 2 = 0 then x.c0 else x.c1
  | .block _ _ => if x.phase % 2 = 0 then x.c0 else x.c1

/-- R157: every member of the barrier is present and has its arrival counted. -/
def AllArrived (s : State) (r : BarRef) (x : Bar) : Prop :=
  barPresent s r = true ∧ barMembers s r ≠ [] ∧ ∀ i ∈ barMembers s r, i ∈ x.arrived

/-- R157: the row of the table that a barrier with the record `x` takes, giving `y`. -/
def Tested (s : State) (r : BarRef) (x y : Bar) : Prop :=
  (x.overrun = true → y = x) ∧
  (x.overrun = false → ¬AllArrived s r x → y = x) ∧
  (x.overrun = false → AllArrived s r x → barBytes r x = 0 → y = { x with phase := x.phase + 1, arrived := [] }) ∧
  (x.overrun = false → AllArrived s r x → 0 < barBytes r x → y = x) ∧
  (x.overrun = false → AllArrived s r x → barBytes r x < 0 → y = { x with overrun := true })

/-- R156: an arrival of the team counts in the current phase. -/
def Counts (t : Team) (num : Nat) (x : Bar) : Prop := x.overrun = false ∧ tget t.counted num ≠ some x.phase

/-- R156: the scope of a barrier is block, cluster or device; at block scope a release waits for nothing. -/
def BarReleased (c : Ctx) (num : Nat) : Prop := num < 16 ∨ (c.out = 0 ∧ ∀ p ∈ c.parked, p.count = 0)

/-- R156: the phase of the team's last counted arrival has completed, or it never arrived. -/
def Passed (t : Team) (num : Nat) (x : Bar) : Prop := ∀ p, tget t.counted num = some p → p < x.phase

/-- The barrier of `r` exists to be written: its block or node is there. -/
def Placed (s : State) : BarRef → Prop
  | .block id _ => (tget s.blocks id).isSome = true
  | .node id _ _ => (tget s.nodes id).isSome = true

/-- R159: the mask of a tag instruction: k[ka].d OR zext(imm32). -/
def maskHas (t : Team) (o : I64) (i : Nat) : Prop :=
  i < 64 ∧ (kgetD t (sub o.va 0 6) ||| o.imm.setWidth 64).getLsbD i = true

def tag (b : Block) (i : Nat) : Tag := tgetD b.tags i {}

/-- R159, R161: a timeline by its engine code. -/
def timeline (b : Block) (c : Ctx) (e : Nat) : Timeline :=
  if e = 0 then b.copy else if e = 1 then b.mat else if e = 2 then b.gath else if e = 3 then c.coll else c.flume

end Sys2Proof.Spec

/-- R157: testing a barrier takes the first row of the table that applies, and changes no other part of the machine. -/
def Obligations.BarrierTest : Prop :=
  ∀ s r, Placed s r → Tested s r (barOf s r) (barOf (barTest s r) r) ∧ (barTest s r).mem = s.mem ∧
    (barTest s r).teams = s.teams ∧ (barTest s r).ctxs = s.ctxs ∧ (barTest s r).sites = s.sites ∧
    (∀ q, q ≠ r → (∀ id key num num', ¬(q = .node id key num ∧ r = .node id key num')) → barOf (barTest s r) q = barOf s q)

/-- R154, R156, R157: BAR.arv counts the team's arrival once in a phase and tests the barrier; an arrival that does not count
changes nothing. -/
def Sys2Proof.Spec.BarrierArrival : Prop :=
  ∀ o s t b c n num r, num = sub o.vc 0 5 → Resident s t b c n → Names t b n num r → (24 ≤ num → b.provisional = false) →
    (¬Counts t num (barOf s r) → Gives s (.barArv o) (next t 8)) ∧
    (Counts t num (barOf s r) → BarReleased c num → ∃ s', exec (.barArv o) s = .next s' ∧
      tget s'.teams s.cur = some { next t 8 with counted := tput t.counted num (barOf s r).phase } ∧
      Tested s r { barOf s r with arrived := (barOf s r).arrived ++ [s.cur] } (barOf s' r) ∧ s'.mem = s.mem)

/-- R156, R157: BAR.wait continues when the phase of the team's last counted arrival has completed, and otherwise blocks; BAR.sync
arrives, then waits; in overrun both raise 0x100 + b. -/
def Sys2Proof.Spec.BarrierWait : Prop :=
  ∀ o s t b c n num r, num = sub o.vc 0 5 → Resident s t b c n → Names t b n num r → t.wait = .none →
    ((barOf s r).overrun = false → Passed t num (barOf s r) → ∃ s', exec (.barWait o) s = .next s' ∧
      tget s'.teams s.cur = some (next t 8) ∧ s'.mem = s.mem ∧ s'.blocks = s.blocks ∧ s'.nodes = s.nodes ∧
      (num < 16 → s' = putTeam s s.cur (next t 8))) ∧
    ((barOf s r).overrun = false → ¬Passed t num (barOf s r) →
      exec (.barWait o) s = .next (putTeam s s.cur { t with wait := .barrier })) ∧
    (Counts t num (barOf s r) → BarReleased c num → (24 ≤ num → b.provisional = false) → 0 ≤ barBytes r (barOf s r) →
      ∃ s' t', exec (.barSync o) s = .next s' ∧ tget s'.teams s.cur = some t' ∧ s'.mem = s.mem ∧
        Tested s r { barOf s r with arrived := (barOf s r).arrived ++ [s.cur] } (barOf s' r) ∧
        t' = if (barOf s r).phase < (barOf s' r).phase then { next t 8 with counted := tput t.counted num (barOf s r).phase }
          else { t with wait := .barrier, counted := tput t.counted num (barOf s r).phase }) ∧
    (∀ entry i, i = .barWait o ∨ i = .barSync o → Trappable s t entry → (barOf s r).overrun = true →
      Raises s t i entry (0x100 + num) (BitVec.ofNat 32 num) t.pc)

/-- R154, R156, R157: BAR.arv, BAR.wait and BAR.sync. -/
def Obligations.BarrierInstructions : Prop := Spec.BarrierArrival ∧ Spec.BarrierWait

/-- R155, R156: BAR.exp adds k[ka] + n bytes to the counter of the phase of the team's next counted arrival and tests the barrier;
BAR.test tells whether BAR.wait would continue. -/
def Sys2Proof.Spec.BarrierBytesAndTest : Prop :=
  ∀ o s t b c n num r, num = sub o.vc 0 5 → Resident s t b c n → Names t b n num r →
    (∀ bytes, Uniforms t [] [(sub o.va 0 6, 1)] → bytes = (kget t (sub o.va 0 6)).toNat + o.pb.toNat * 256 + o.pa.toNat →
      (let x := barOf s r
       let next := decide (tget t.counted num = some x.phase)
       let odd := decide (x.phase % 2 = 1) != next
       let sum := (if odd then x.c1 else x.c0) + (bytes : Int)
       (x.overrun = false → bytes < 2 ^ 31 → sum < 2 ^ 31 → ∃ s', exec (.barExp o) s = .next s' ∧
         tget s'.teams s.cur = some (Spec.next t 8) ∧ s'.mem = s.mem ∧
         Tested s r (if odd then { x with c1 := sum } else { x with c0 := sum }) (barOf s' r)) ∧
       (∀ entry, Trappable s t entry → 2 ^ 31 ≤ bytes ∨ 2 ^ 31 ≤ sum →
         Raises s t (.barExp o) entry 0x123 (BitVec.ofNat 32 num) t.pc))) ∧
    ((barOf s r).overrun = false → Passed t num (barOf s r) → ∃ s' t', exec (.barTest o) s = .next s' ∧
      tget s'.teams s.cur = some t' ∧ WroteUniform t t' (sub o.vd 0 6) 1 ∧ t' = { next t 8 with k := t'.k, badK := t'.badK } ∧ s'.mem = s.mem) ∧
    ((barOf s r).overrun = false → ¬Passed t num (barOf s r) → ∃ t', Gives s (.barTest o) t' ∧
      WroteUniform t t' (sub o.vd 0 6) 0 ∧ t' = { next t 8 with k := t'.k, badK := t'.badK })

/-- R154, R169: a barrier that is not declared or not present raises 0x121, and one whose mask leaves the team out 0x122, with its
number in `%trapinfo`. -/
def Sys2Proof.Spec.BarrierFaults : Prop :=
  ∀ o s t b c n entry num i, num = sub o.vc 0 5 → Resident s t b c n → Trappable s t entry →
    i = .barArv o ∨ i = .barWait o ∨ i = .barSync o ∨ i = .barTest o ∨ i = .barExp o ∧ Uniforms t [] [(sub o.va 0 6, 1)] →
    (num < 16 → tget b.barMask num = none → Raises s t i entry 0x121 (BitVec.ofNat 32 num) t.pc) ∧
    (16 ≤ num → num < 24 → n.desc.cluster = 0 → Raises s t i entry 0x121 (BitVec.ofNat 32 num) t.pc) ∧
    (24 ≤ num → n.desc.coop = false → Raises s t i entry 0x121 (BitVec.ofNat 32 num) t.pc) ∧
    (∀ m, num < 16 → tget b.barMask num = some m → m.testBit t.num = false →
      Raises s t i entry 0x122 (BitVec.ofNat 32 num) t.pc)

/-- R154 to R156, R169: BAR.exp, BAR.test, and the faults of every barrier instruction. -/
def Obligations.BarrierBytesTestAndFaults : Prop := Spec.BarrierBytesAndTest ∧ Spec.BarrierFaults

namespace Sys2Proof.Spec

/-- R160: a TAG.wait is about to return: every tag of its mask is set, or for `.any` some tag is; an empty mask always. -/
def Returns (t : Team) (b : Block) (o : I64) : Prop :=
  (∀ i, maskHas t o i → (tag b i).ready = true) ∨ (o.m.getLsbD 3 = true ∧ ∃ i, maskHas t o i ∧ (tag b i).ready = true)

/-- R160: a tag of the mask that no operation can set any more. -/
def Dead (t : Team) (b : Block) (o : I64) (i : Nat) : Prop := maskHas t o i ∧ (tag b i).ready = false ∧ (tag b i).count = 0

/-- R160: the TAG.wait could never return. -/
def Hopeless (t : Team) (b : Block) (o : I64) : Prop :=
  (∃ i, Dead t b o i) ∧ (o.m.getLsbD 3 = true → ∀ i, maskHas t o i → Dead t b o i)

/-- `i` is the lowest number of which `p` holds. -/
def Lowest (p : Nat → Prop) (i : Nat) : Prop := p i ∧ ∀ j, j < i → ¬p j

end Sys2Proof.Spec

/-- R159, R160, R162: TAG.wait returns, blocks, raises 0x124 for the lowest dead tag where it could never return, and 0x181 for the
lowest failed tag where it would return, and clears the error flags of the tags that are set; TAG.ffs and TAG.clr. -/
def Sys2Proof.Spec.Tags : Prop :=
  ∀ o s t b c n, Resident s t b c n → Uniforms t [] [(sub o.va 0 6, 2)] →
    (Returns t b o → (∀ i, maskHas t o i → (tag b i).ready = true → (tag b i).err = false) → Gives s (.tagWait o) (next t 8)) ∧
    (¬Returns t b o → ¬Hopeless t b o → exec (.tagWait o) s = .next (putTeam s s.cur { t with wait := .tag })) ∧
    (∀ entry i, Trappable s t entry → Hopeless t b o → Lowest (Dead t b o) i →
      Raises s t (.tagWait o) entry 0x124 (BitVec.ofNat 32 i) t.pc) ∧
    (∀ entry i, Trappable s t entry → Returns t b o →
      Lowest (fun j => maskHas t o j ∧ (tag b j).ready = true ∧ (tag b j).err = true) i →
      ∃ b', exec (.tagWait o) s = .next (putTeam (putBlock s t.block b') s.cur (trapped t entry 0x181 (BitVec.ofNat 32 i) t.pc)) ∧
        b' = { b with tags := b'.tags } ∧
        (∀ j, maskHas t o j → (tag b j).ready = true → tag b' j = { tag b j with err := false }) ∧
        (∀ j, ¬(maskHas t o j ∧ (tag b j).ready = true) → tag b' j = tag b j)) ∧
    (∃ t', Gives s (.tagFfs o) t' ∧ t' = { next t 8 with k := t'.k, badK := t'.badK } ∧ ∃ r, WroteUniform t t' (sub o.vd 0 6) r ∧
      r.toNat ≤ 64 ∧ (∀ i, i < r.toNat → maskHas t o i → (tag b i).ready = false) ∧
      (r.toNat < 64 → maskHas t o r.toNat ∧ (tag b r.toNat).ready = true)) ∧
    (∃ b', exec (.tagClr o) s = .next (putTeam (putBlock s t.block b') s.cur (next t 8)) ∧ b' = { b with tags := b'.tags } ∧
      (∀ i, maskHas t o i → (tag b i).count = 0 → tag b' i = { tag b i with ready := false }) ∧
      (∀ i, ¬(maskHas t o i ∧ (tag b i).count = 0) → tag b' i = tag b i))

/-- R159, R161, R162: TL.wait blocks until the counter has reached its number, raises 0x125 beyond the last number issued and
0x181, with the lowest number, for failed operations it covers, which then count as reported; TL.rd reads the counter or the number last
issued. -/
def Sys2Proof.Spec.Timelines : Prop :=
  ∀ o s t b c n e, e = sub o.m 3 3 → Resident s t b c n →
    (∀ k, k = (kgetD t (sub o.va 0 6) + o.imm.signExtend 64).toNat → Uniforms t [] [(sub o.va 0 6, 2)] →
      (k ≤ (timeline b c e).count → k ≤ (timeline b c e).issued → (∀ f ∈ (timeline b c e).failed, k < f) →
        ∃ s', exec (.tlWait o) s = .next s' ∧ tget s'.teams s.cur = some (next t 8) ∧ s'.mem = s.mem ∧
          (e < 3 → s' = putTeam s s.cur (next t 8))) ∧
      ((timeline b c e).count < k → k ≤ (timeline b c e).issued →
        exec (.tlWait o) s = .next (putTeam s s.cur { t with wait := .timeline })) ∧
      (∀ entry, Trappable s t entry → (timeline b c e).issued < k →
        Raises s t (.tlWait o) entry 0x125 (BitVec.ofNat 32 k) t.pc) ∧
      (∀ entry f, Trappable s t entry → k ≤ (timeline b c e).count → k ≤ (timeline b c e).issued →
        f ∈ (timeline b c e).failed → f ≤ k → (∀ g ∈ (timeline b c e).failed, f ≤ g) →
        ∃ s' b' c', exec (.tlWait o) s = .next s' ∧ s'.mem = s.mem ∧
          tget s'.teams s.cur = some (trapped t entry 0x181 (BitVec.ofNat 32 f) t.pc) ∧
          tget s'.blocks t.block = some b' ∧ tget s'.ctxs b.ctx = some c' ∧ (timeline b' c' e).count = (timeline b c e).count ∧
          (timeline b' c' e).issued = (timeline b c e).issued ∧
          ∀ g, g ∈ (timeline b' c' e).failed ↔ g ∈ (timeline b c e).failed ∧ k < g)) ∧
    (sub o.vd 0 6 % 2 = 0 → ∃ t', Gives s (.tlRd o) t' ∧ t' = { next t 8 with k := t'.k, badK := t'.badK } ∧
      (∀ k, InGroup (sub o.vd 0 6) 2 k → kget t' k = BitVec.ofNat 32
        ((if o.imm.getLsbD 0 then (timeline b c e).issued else (timeline b c e).count) / 2 ^ (32 * (k - sub o.vd 0 6)))) ∧
      (∀ k, ¬InGroup (sub o.vd 0 6) 2 k → kget t' k = kget t k) ∧ (∀ k, k ∈ t'.badK ↔ k ∈ t.badK ∧ ¬InGroup (sub o.vd 0 6) 2 k))

/-- R159 to R162: the tag and timeline instructions. -/
def Obligations.TagsAndTimelines : Prop := Spec.Tags ∧ Spec.Timelines

namespace Sys2Proof.Spec

/-! ### Tile records and the copy and gather engines (R215 to R229) -/

/-- A little-endian number in a list of bytes. -/
def numAt (bs : List Byte) (lo n : Nat) : Nat := bytesNat ((bs.drop lo).take n)

/-- R215: the 32 bytes of a tile record; its reserved bytes are zero. -/
structure RecordOf (bs : List Byte) (r : TileRec) : Prop where
  base : r.base.toNat = numAt bs 0 8
  rows : r.rows = numAt bs 8 2
  cols : r.cols = numAt bs 10 2
  pitch : r.pitch = numAt bs 12 4
  format : r.format = numAt bs 16 1 % 32
  swizzle : r.swizzle = numAt bs 16 1 / 32
  fillMode : r.fillMode = numAt bs 17 1
  vrows : r.vrows = numAt bs 18 2
  vcols : r.vcols = numAt bs 20 2
  fillValue : r.fillValue.toNat = numAt bs 24 4
  zero : numAt bs 22 2 = 0 ∧ numAt bs 28 4 = 0

/-- R216: the conditions of a well-formed record. -/
structure Usable (r : TileRec) : Prop where
  rows : 0 < r.rows ∧ r.vrows ≤ r.rows
  cols : 0 < r.cols ∧ r.vcols ≤ r.cols
  whole : if isBlocked r.format then r.cols % 32 = 0 ∧ r.vcols % 32 = 0 else r.cols * elemBits r.format % 8 = 0
  aligned : r.base.toNat % 16 = 0 ∧ r.pitch % 16 = 0
  pitch : rowBytes r ≤ r.pitch
  swizzle : r.swizzle < 5 ∧ (r.swizzle ≠ 0 → r.pitch % (16 * 2 ^ r.swizzle) = 0)
  fill : r.fillMode < 3 ∧ (r.fillMode = 1 → isBlocked r.format = false) ∧ (r.fillMode = 2 → hasNan r.format = true)
  place : r.base.getLsbD 63 = false → sub r.base 60 3 < 4

/-- R106: q is p advanced by d bytes: only the offset moves. -/
def Advanced (p : Nat) (d : Int) (q : Nat) : Prop :=
  let w := if 2 ^ 63 ≤ p then 34 else 60
  q / 2 ^ w = p / 2 ^ w ∧ ∃ k : Int, (q : Int) = p + d + k * 2 ^ w

/-- The ten fields of a record, in the order of R215. -/
def fieldOf (r : TileRec) (i : Nat) : Nat :=
  match i with
  | 0 => r.base.toNat
  | 1 => r.rows
  | 2 => r.cols
  | 3 => r.pitch
  | 4 => r.format
  | 5 => r.swizzle
  | 6 => r.fillMode
  | 7 => r.vrows
  | 8 => r.vcols
  | _ => r.fillValue.toNat

/-- R221: the fields a selector names: (field, lowest bit, bits). -/
def named (sel : Nat) : List (Nat × Nat × Nat) :=
  match sel with
  | 0 => [(0, 0, 64)]
  | 1 => [(1, 0, 16)]
  | 2 => [(2, 0, 16)]
  | 3 => [(3, 0, 32)]
  | 4 => [(4, 0, 5), (5, 5, 3)]
  | 5 => [(6, 0, 8)]
  | 6 => [(7, 0, 16)]
  | 7 => [(8, 0, 16)]
  | 8 => [(9, 0, 32)]
  | 9 => [(1, 0, 16), (2, 16, 16)]
  | 10 => [(7, 0, 16), (8, 16, 16)]
  | _ => []

/-- R221: the value XQRY reads of a record. -/
def queried (r : TileRec) (sel : Nat) : Nat :=
  if sel = 12 then r.rows * r.pitch else ((named sel).map fun x => fieldOf r x.1 * 2 ^ x.2.1).sum

/-- R221: `r'` is `r` with the fields of the selector taken from the low bits of `v`. -/
def FieldSet (r r' : TileRec) (sel v : Nat) : Prop :=
  ∀ i, i < 10 → (∀ x ∈ named sel, x.1 = i → fieldOf r' i = v / 2 ^ x.2.1 % 2 ^ x.2.2) ∧
    ((∀ x ∈ named sel, x.1 ≠ i) → fieldOf r' i = fieldOf r i)

/-- A tile register is loaded, and holds no error any more (R280). -/
def tileLoaded (t : Team) (n : Nat) (r : TileRec) : Team :=
  { next t 8 with x := tput t.x n r, badX := t.badX.filter (· ≠ n) }

/-- R220, R280: a tile register is loaded with a record, without an error. -/
def HoldsTile (t : Team) (n : Nat) (r : TileRec) : Prop := tget t.x n = some r ∧ n ∉ t.badX

/-- R189: a write at a memory key changes its bytes and no other: its line was last written under the key's own slot, and no frame
of an object stands there. -/
def OwnLine (s : State) (k : Nat) : Prop :=
  k < 2 ^ 64 ∨ 600 * 2 ^ 64 ≤ k ∨ (rekeys s.mem k = false ∧ frameOwner s (k / 2 ^ 64 - 1) (k % 2 ^ 56) = none)

/-- R228: the engine instructions. -/
def engForm : Instr → Option (EngKind × E64)
  | .cpy o => some (.cpy, o)
  | .gath o => some (.gath, o)
  | .scat o => some (.scat, o)
  | _ => none

/-- R219: a record whose base is not in region 2, or whose footprint lies in the block's own scratchpad. -/
def FitsOwn (b : Block) (r : TileRec) : Prop :=
  r.base.getLsbD 63 = false → sub r.base 60 3 = 2 → sub r.base 57 3 = 0 ∧ sub r.base 0 57 + r.rows * r.pitch ≤ b.spad

/-- R222, R223: TG names no tag with 15 operations pending. -/
def TagFree (b : Block) (o : E64) : Prop := o.fl.getLsbD 3 = true → (tag b o.tb.toNat).count < 15

/-- R222, R223: the barrier that BC names: declared, of the block or of its cluster. -/
def creditBar (t : Team) (b : Block) (n : Node) (o : E64) : Option BarRef :=
  let num := (kget t o.kq.toNat).toNat % 32
  if num < 16 then .some (.block t.block num) else .some (.node b.node (b.ordinal / n.desc.cluster * 32 + num) num)
def BarReady (t : Team) (b : Block) (n : Node) (o : E64) : Prop :=
  let num := (kget t o.kq.toNat).toNat % 32
  o.fl.getLsbD 2 = true → num < 24 ∧ (num < 16 → (tget b.barMask num).isSome = true) ∧ (16 ≤ num → n.desc.cluster ≠ 0)

/-- R223 step 8: what TG does to the tags, and what BC captures. -/
def TookTag (b b' : Block) (o : E64) : Prop :=
  ∀ i, tag b' i = if o.fl.getLsbD 3 = true ∧ i = o.tb.toNat then { tag b i with ready := false, count := (tag b i).count + 1 }
    else tag b i
def Captured (s : State) (t : Team) (b : Block) (n : Node) (o : E64) (c : Option Credit) : Prop :=
  (o.fl.getLsbD 2 = false → c = none) ∧
  (o.fl.getLsbD 2 = true → ∀ r, creditBar t b n o = some r →
    c = some ⟨(kget t o.kq.toNat).toNat % 32, (barOf s r).phase % 2⟩)

/-- R229: rows an operation loops over. -/
def rowsOf (kind : EngKind) (d x : TileRec) : Nat := if kind = .scat then x.rows else d.rows

/-- R217: the bits of element `c` in its row's bit string, and those of the header of block `q`. -/
def ElementBit (f c p : Nat) : Prop :=
  if isBlocked f then 8 * (c / 32 * blockBytes f + blockHead f) + elemBits f * (c % 32) ≤ p ∧
    p < 8 * (c / 32 * blockBytes f + blockHead f) + elemBits f * (c % 32) + elemBits f
  else elemBits f * c ≤ p ∧ p < elemBits f * c + elemBits f
def HeaderBit (f q p : Nat) : Prop :=
  isBlocked f = true ∧ 8 * (q * blockBytes f) ≤ p ∧ p < 8 * (q * blockBytes f + blockHead f)

/-- R218: a bit of a row lies in the valid area, below column `lim`; q and z blocks have their headers with them (R229). -/
def ValidBit (r : TileRec) (lim row p : Nat) : Prop :=
  row < r.vrows ∧ ∃ c, c < r.vcols ∧ c < lim ∧ (ElementBit r.format c p ∨ HeaderBit r.format (c / 32) p)

/-- R218: the bit that a read outside the valid area gives. -/
def FillBit (r : TileRec) (p : Nat) (x : Bool) : Prop :=
  if isBlocked r.format then (x = true ↔ r.fillMode = 2 ∧ ∃ q, HeaderBit r.format q p)
  else ∃ c, ElementBit r.format c p ∧ (r.fillMode = 0 → x = false) ∧
    (r.fillMode = 1 → x = r.fillValue.getLsbD (p - elemBits r.format * c)) ∧
    (r.fillMode = 2 → ∀ f, fmtOf r.format = some f → x = (Fmt.nan f).testBit (p - elemBits r.format * c))

/-- R217: where the swizzle moves byte `o` of a row. -/
def movedByte (r : TileRec) (row o : Nat) : Nat :=
  if r.swizzle = 0 then o
  else o / (16 * 2 ^ r.swizzle) * (16 * 2 ^ r.swizzle) +
    Nat.xor (o % (16 * 2 ^ r.swizzle) / 16) (row % 2 ^ r.swizzle) * 16 + o % 16

/-- R219: the record's footprint lies in the block's own scratchpad; where byte `o` of a row then stands. -/
def OwnRecord (b : Block) (r : TileRec) : Prop :=
  Usable r ∧ r.base.getLsbD 63 = false ∧ sub r.base 60 3 = 2 ∧ sub r.base 57 3 = 0 ∧ sub r.base 0 57 + r.rows * r.pitch ≤ b.spad ∧
    b.spad < 2 ^ 57
def rowKeyOf (block : Nat) (r : TileRec) (row o : Nat) : Nat := spadKey block (sub r.base 0 57 + row * r.pitch + movedByte r row o)

/-- R229: the destination row and the source row of the operation's next row; a SCAT leaves out one whose index comes again. -/
def RowPair (x : EngOp) (drow srow : Nat) : Prop :=
  match x.kind with
  | .cpy => drow = x.row ∧ srow = x.row
  | .gath => drow = x.row ∧ srow = x.idx.getD x.row 0
  | .scat => srow = x.row ∧ drow = x.idx.getD x.row 0 ∧ ∀ j, x.row < j → j < x.idx.length → x.idx.getD j 0 ≠ drow

/-- R217, R218, R229: what is to land at byte `o` of the destination row: the bits of valid elements below the columns of the loop (the
mask `m`), each the source row's bit: memory's in the source's valid area, the fill's elsewhere. -/
structure RowByte (s : State) (block : Nat) (x : EngOp) (drow srow o : Nat) (v m : Byte) : Prop where
  some : m ≠ 0
  mask : ∀ i, i < 8 → (m.getLsbD i = true ↔ ValidBit x.dst (if x.kind = .scat then x.src.cols else x.dst.cols) drow (8 * o + i))
  copied : ∀ i, i < 8 → ValidBit x.src x.src.cols srow (8 * o + i) →
    v.getLsbD i = (readByte s.mem (rowKeyOf block x.src srow o)).getLsbD i
  filled : ∀ i, i < 8 → ¬ValidBit x.src x.src.cols srow (8 * o + i) → FillBit x.src (8 * o + i) (v.getLsbD i)

/-- The queue of an engine, and its timeline. -/
def queueOf (b : Block) (gather : Bool) : List EngOp := if gather then b.gathQ else b.copyQ
def engLine (b : Block) (gather : Bool) : Timeline := if gather then b.gath else b.copy

/-- An operation on its engine's queue, with its team's block, context and node. -/
structure Working (s : State) (r : EngRef) (x : EngOp) (t : Team) (b : Block) (c : Ctx) (n : Node) : Prop where
  queued : (queueOf b r.gather).find? (fun y => decide (y.num = r.num)) = some x
  team : tget s.teams x.team = some t
  home : t.block = r.block
  block : tget s.blocks r.block = some b
  ctx : tget s.ctxs b.ctx = some c
  node : tget s.nodes b.node = some n
  placed : c.state = .running

/-- The operation replaced in its queue, or taken out of it, and nothing else of the block. -/
def SwapOp (b b' : Block) (gather : Bool) (num : Nat) (x' : Option EngOp) : Prop :=
  queueOf b' gather = (match x' with
    | some x => (queueOf b gather).map fun y => if y.num = num then x else y
    | none => (queueOf b gather).filter fun y => decide (y.num ≠ num)) ∧
  queueOf b' (!gather) = queueOf b (!gather)

end Sys2Proof.Spec

/-- R106, R208, R215, R216, R220, R221: XLD takes the record from the record cache or the scratchpad, XADD moves its base, XSET
replaces the selected field, XQRY reads it (the footprint, the loaded bit and the error log among them); a record that would be
malformed raises 0x184, a register not loaded 0x182, and one that holds an uncorrectable error 0x2C6 (R280). -/
def Obligations.TileRegisters : Prop :=
  ∀ o s t b c n kp x1 p, kp = o.kp.toNat → x1 = o.x1.toNat → p = kgetD t kp → Resident s t b c n →
    (∀ bs r, Uniforms t [] [(kp, 2)] → OwnBytes b p 32 → RecordOf bs r → Usable r →
      (tget c.records (ownKey t p) = some bs → Gives s (.xld o) (tileLoaded t x1 r)) ∧
      (tget c.records (ownKey t p) = none → tget s.errors (ownKey t p / 64) = none → bs = readBytes s.mem (ownKey t p) 32 →
        exec (.xld o) s = .next (putTeam (putCtx s b.ctx { c with records := tput c.records (ownKey t p) bs }) s.cur
          (tileLoaded t x1 r)))) ∧
    (∀ r q, Uniforms t [] [(kp, 2)] → HoldsTile t o.x2.toNat r → Advanced r.base.toNat p.toInt q →
      (Usable { r with base := BitVec.ofNat 64 q } →
        Gives s (.xadd o) (tileLoaded t x1 { r with base := BitVec.ofNat 64 q })) ∧
      (∀ entry, Trappable s t entry → ¬Usable { r with base := BitVec.ofNat 64 q } →
        Raises s t (.xadd o) entry 0x184 (BitVec.ofNat 32 x1) t.pc)) ∧
    (∀ r r', Instr.legal (.xset o) = true → Uniforms t [] [(kp, if sub o.m 2 6 = 0 then 2 else 1)] → HoldsTile t x1 r →
      FieldSet r r' (sub o.m 2 6) (if sub o.m 2 6 = 0 then p.toNat else (kget t kp).toNat) →
      (Usable r' → Gives s (.xset o) (tileLoaded t x1 r')) ∧
      (∀ entry, Trappable s t entry → ¬Usable r' → Raises s t (.xset o) entry 0x184 (BitVec.ofNat 32 x1) t.pc)) ∧
    (∀ r, Instr.legal (.xqry o) = true → (sub o.m 2 6 = 0 ∨ sub o.m 2 6 = 12 → kp % 2 = 0) → HoldsTile t x1 r →
      sub o.m 2 6 ≠ 11 → sub o.m 2 6 ≠ 16 → ∃ t', Gives s (.xqry o) t' ∧ t' = { next t 8 with k := t'.k, badK := t'.badK } ∧
        (∀ k, InGroup kp (if sub o.m 2 6 = 0 ∨ sub o.m 2 6 = 12 then 2 else 1) k →
          kget t' k = BitVec.ofNat 32 (queried r (sub o.m 2 6) / 2 ^ (32 * (k - kp)))) ∧
        (∀ k, ¬InGroup kp (if sub o.m 2 6 = 0 ∨ sub o.m 2 6 = 12 then 2 else 1) k →
          kget t' k = kget t k ∧ (k ∈ t'.badK ↔ k ∈ t.badK))) ∧
    (sub o.m 2 6 = 11 → ∃ t', Gives s (.xqry o) t' ∧ t' = { next t 8 with k := t'.k, badK := t'.badK } ∧
      WroteUniform t t' kp (if (tget t.x (o.kq.toNat % 16)).isSome then 1 else 0)) ∧
    (sub o.m 2 6 = 16 → ∃ t', exec (.xqry o) s = .next (putTeam (putBlock s t.block { b with errlog := 0 }) s.cur t') ∧
      t' = { next t 8 with k := t'.k, badK := t'.badK } ∧ WroteUniform t t' kp b.errlog) ∧
    (∀ entry, Trappable s t entry → Uniforms t [] [(kp, 2)] →
      (tget t.x o.x2.toNat = none → Raises s t (.xadd o) entry 0x182 (BitVec.ofNat 32 o.x2.toNat) t.pc) ∧
      (tget t.x x1 = none → Raises s t (.xset o) entry 0x182 (BitVec.ofNat 32 x1) t.pc) ∧
      ((tget t.x o.x2.toNat).isSome = true → o.x2.toNat ∈ t.badX →
        Raises s t (.xadd o) entry 0x2C6 (BitVec.ofNat 32 o.x2.toNat) t.pc))

/-- R219, R220, R222, R223, R228: CPY, GATH and SCAT queue one operation with the records as they stand: it takes the next number of
its timeline, TG counts on its tag, BC captures the barrier's parity; nothing else changes. In a provisional block one that writes outside
the own scratchpad holds its team (R227). -/
def Obligations.EngineIssue : Prop :=
  ∀ i kind o s t b c n d x, engForm i = some (kind, o) → Resident s t b c n →
    Uniforms t [] ((if kind = .cpy then [] else [(o.kp.toNat, 1)]) ++ [(o.kq.toNat, 1)]) →
    HoldsTile t o.x1.toNat d → HoldsTile t o.x2.toNat x →
    (d.format = x.format → FitsOwn b d → FitsOwn b x →
      (kind ≠ .cpy → (kget t o.kp.toNat).toNat % 4 = 0 ∧ (kget t o.kp.toNat).toNat + 4 * rowsOf kind d x ≤ b.spad) →
      TagFree b o → BarReady t b n o →
      (b.provisional = true → d.base.getLsbD 63 = false → sub d.base 60 3 ≠ 2 → Holds s t i) ∧
      ((queueOf b (decide (kind ≠ .cpy))).length < 32 →
      (b.provisional = true → d.base.getLsbD 63 = false ∧ sub d.base 60 3 = 2) →
      ∃ b' op, exec i s = .next (putTeam (putBlock s t.block b') s.cur (next t 8)) ∧
        queueOf b' (decide (kind ≠ .cpy)) = queueOf b (decide (kind ≠ .cpy)) ++ [op] ∧
        queueOf b' (decide (kind = .cpy)) = queueOf b (decide (kind = .cpy)) ∧
        engLine b' (decide (kind ≠ .cpy)) =
          { engLine b (decide (kind ≠ .cpy)) with issued := (engLine b (decide (kind ≠ .cpy))).issued + 1 } ∧
        engLine b' (decide (kind = .cpy)) = engLine b (decide (kind = .cpy)) ∧
        op.num = (engLine b (decide (kind ≠ .cpy))).issued + 1 ∧ op.team = s.cur ∧ op.kind = kind ∧ op.dst = d ∧ op.src = x ∧
        (kind ≠ .cpy → op.index = (kget t o.kp.toNat).toNat) ∧ op.started = false ∧ op.row = 0 ∧ op.landing = [] ∧ op.set = none ∧
        op.tag = (if o.fl.getLsbD 3 then some o.tb.toNat else none) ∧ Captured s t b n o op.credit ∧ TookTag b b' o ∧
        b' = { b with copyQ := b'.copyQ, gathQ := b'.gathQ, copy := b'.copy, gath := b'.gath, tags := b'.tags })) ∧
    (∀ entry, Trappable s t entry → d.format ≠ x.format → Raises s t i entry 0x185 0 t.pc) ∧
    (∀ entry, Trappable s t entry → d.format = x.format → kind = .cpy → FitsOwn b d → FitsOwn b x →
      o.fl.getLsbD 3 = true → 15 ≤ (tag b o.tb.toNat).count →
      Raises s t i entry 0x120 (BitVec.ofNat 32 o.tb.toNat) t.pc)

/-- R217, R218, R225, R229: the life of an engine operation: it starts, GATH and SCAT reading their indices; the accesses of its next row
give the chunks that are to land; between tiles of the own scratchpad these hold, byte for byte, the source row's elements and fill at
the places of the destination row's valid elements; a chunk that lands changes just the bits of its elements and is credited; when nothing is left it
leaves its queue, its number completes on the timeline, and its tag counts down. -/
def Obligations.EngineOperations : Prop :=
  ∀ r x s t b c n, Working s r x t b c n →
    (x.started = false →
      (∀ i, x.kind ≠ .cpy → i < rowsOf x.kind x.dst x.src → tget s.errors ((spadKey r.block x.index + 4 * i) / 64) = none) →
      ∃ b' x', exec (.engineStart r) s = .next (putBlock s r.block b') ∧ SwapOp b b' r.gather r.num (some x') ∧
        b' = { b with copyQ := b'.copyQ, gathQ := b'.gathQ } ∧ x' = { x with started := true, idx := x'.idx, total := x'.total } ∧
        x'.idx.length = (if x.kind = .cpy then 0 else rowsOf x.kind x.dst x.src) ∧
        (∀ i, i < x'.idx.length → x'.idx[i]? = some (readNat s.mem (spadKey r.block x.index + 4 * i) 4))) ∧
    (∀ s1 cs, x.started = true → x.stalled = false → x.row < rowsOf x.kind x.dst x.src → engRow s ⟨t, b, c, n⟩ x = .ok s1 cs →
      ∃ s', exec (.engineAccess r) s = .next s' ∧ s'.mem = s.mem ∧ s'.teams = s.teams ∧
        (∃ b', tget s'.blocks r.block = some b' ∧ b' = { b with copyQ := b'.copyQ, gathQ := b'.gathQ } ∧
          SwapOp b b' r.gather r.num (some { x with row := x.row + 1, stalled := false, ticket := none, landing := x.landing ++ cs }))) ∧
    (∀ drow srow, RowPair x drow srow → OwnRecord b x.dst → OwnRecord b x.src → x.dst.format = x.src.format →
      (∀ o, o < x.src.rows * x.src.pitch → tget s.errors (spadKey r.block (sub x.src.base 0 57 + o) / 64) = none) →
      ∃ cs, engRow s ⟨t, b, c, n⟩ x = .ok s cs ∧ ∀ k v m, (∃ ch ∈ cs, (k, v, m) ∈ ch.cells) ↔
        ∃ o, o < rowBytes x.dst ∧ k = rowKeyOf r.block x.dst drow o ∧ RowByte s r.block x drow srow o v m) ∧
    ((∀ drow srow, ¬RowPair x drow srow) → engRow s ⟨t, b, c, n⟩ x = .ok s []) ∧
    (∀ ch chs bytes, x.landing = ch :: chs → bytes ≤ ch.cells.length → x.credit = none →
      (∀ y ∈ ch.cells, ∀ z ∈ ch.cells, y.1 = z.1 → y = z) → (∀ y ∈ ch.cells, OwnLine s y.1) →
      ∃ s' b', exec (.engineBytesLand r bytes) s = .next s' ∧ tget s'.blocks r.block = some b' ∧
        b' = { b with copyQ := b'.copyQ, gathQ := b'.gathQ } ∧
        SwapOp b b' r.gather r.num (some { x with landing := chs, credited := x.credited + ch.cells.length }) ∧
        (∀ k v m, (k, v, m) ∈ ch.cells → readByte s'.mem k = (readByte s.mem k &&& ~~~m) ||| (v &&& m)) ∧
        (∀ k, (∀ y ∈ ch.cells, y.1 ≠ k) → readByte s'.mem k = readByte s.mem k)) ∧
    (x.started = true → rowsOf x.kind x.dst x.src ≤ x.row → x.landing = [] → x.set = none →
      ∃ b', exec (.engineComplete r) s = .next (putBlock s r.block b') ∧ SwapOp b b' r.gather r.num none ∧
        (x.num = (engLine b r.gather).count + 1 → (engLine b r.gather).ahead = [] →
          engLine b' r.gather = { engLine b r.gather with count := x.num }) ∧
        engLine b' (!r.gather) = engLine b (!r.gather) ∧
        (∀ i, tag b' i = if x.tag = some i then
          { tag b i with count := (tag b i).count - 1, ready := (tag b i).ready || decide ((tag b i).count ≤ 1) } else tag b i))

namespace Sys2Proof.Spec

/-! ### Objects (R163 to R183, R190, R191) -/

/-- R171: the registry entry of a GOID at its birth site, and R172: an object-table entry. -/
def reg (s : State) (g : Nat) : Option RegEntry := tget (siteOf s (g / 2 ^ 19)).registry (g % 2 ^ 19)
def objEntry (s : State) (site g : Nat) : Option ObjEntry := tget (siteOf s site).objects g

/-- R172: 2 MiB frames of a size, and the frames of a site's tier. -/
def frameCount (size : Nat) : Nat := (size + 2097151) / 2097152
def tierFrames (s : State) (site : Nat) (tier2 : Bool) : Nat := if tier2 then (siteOf s site).frames2 else (siteOf s site).frames1
/-- R323: a retired frame is in no free list; one that an object holds leaves it later. -/
def spare (s : State) (site : Nat) (tier2 : Bool) : Nat :=
  tierFrames s site tier2 - ((if tier2 then (siteOf s site).retired2 else (siteOf s site).retired1).filter
    fun f => decide (f ∉ heldFrames s site tier2)).length

/-- R172: frames newly given to an object: as many as it needs, no frame twice, none that is in use or retired. -/
def NewFrames (s : State) (site : Nat) (tier2 : Bool) (n : Nat) (fs : List Nat) : Prop :=
  fs.length = n ∧
  ((heldFrames s site tier2).length + (if tier2 then (siteOf s site).retired2 else (siteOf s site).retired1).length + n ≤
      tierSize tier2 →
    fs.Nodup ∧ ∀ f ∈ fs, f < tierSize tier2 ∧ f ∉ heldFrames s site tier2 ∧
      f ∉ (if tier2 then (siteOf s site).retired2 else (siteOf s site).retired1))

/-- R182: the other die of a site's device, and the frames of a twin's second copy there. -/
def otherDie (site : Nat) : Nat := site / 2 * 2 + (1 - site % 2)
def CopyFrames (s : State) (site : Nat) (tier2 twin : Bool) (n : Nat) (cs : List Nat) : Prop :=
  if twin then NewFrames s (otherDie site) tier2 n cs else cs = []

/-- R165, R182: a site, and for a twin the other die too, has so many frames free. -/
def HasFrames (s : State) (site : Nat) (tier2 twin : Bool) (n : Nat) : Prop :=
  n ≤ spare s site tier2 ∧ (twin = true → n ≤ spare s (otherDie site) tier2)

/-- R165, R166, R182: so many frames were taken at a site, and for a twin at the other die too. -/
def Took (s s' : State) (site : Nat) (tier2 twin : Bool) (n : Nat) : Prop :=
  tierFrames s' site tier2 = tierFrames s site tier2 - n ∧
  (twin = true → tierFrames s' (otherDie site) tier2 = tierFrames s (otherDie site) tier2 - n)
def Gave (s s' : State) (site : Nat) (tier2 twin : Bool) (n : Nat) : Prop :=
  tierFrames s' site tier2 = tierFrames s site tier2 + n ∧
  (twin = true → tierFrames s' (otherDie site) tier2 = tierFrames s (otherDie site) tier2 + n)

/-- R181: the record of a group, at the registry of site k mod 1,024. -/
def groupRecord (s : State) (k : Nat) : Option CoGroup := tget (siteOf s (k % 1024)).groups k

/-- R177: an object that a move takes along. -/
def Moves (m : Move) (g : Nat) : Prop := m.goid = g ∨ ∃ r ∈ m.rest, r.1 = g

/-- R164 to R167: an object instruction on the pointer `p` to the object `g` of the registry entry `e`. -/
structure OnObject (s : State) (t : Team) (b : Block) (c : Ctx) (n : Node) (p : Dbl) (g : Nat) (e : RegEntry) : Prop where
  resident : Resident s t b c n
  object : p.getLsbD 63 = true
  goid : g = sub p 34 29
  pod : g / 2 ^ 19 < 2 * s.fabric.devices
  entry : reg s g = some e
  reach : Reach s c (g / 2 ^ 19 / 2)

/-- The object is live and at home at the site its registry entry names. -/
structure AtHome (s : State) (g : Nat) (e : RegEntry) (h : ObjEntry) : Prop where
  live : e.state = .live
  entry : objEntry s e.site g = some h
  home : h.state = .home
  still : ∀ x ∈ s.moves, ¬Moves x.2 g

/-- A pair of uniform registers written. -/
structure WrotePair (t t' : Team) (kd x : Nat) : Prop where
  written : ∀ k, InGroup kd 2 k → kget t' k = BitVec.ofNat 32 (x / 2 ^ (32 * (k - kd)))
  kept : ∀ k, ¬InGroup kd 2 k → kget t' k = kget t k
  errors : ∀ k, k ∈ t'.badK ↔ k ∈ t.badK ∧ ¬InGroup kd 2 k
  rest : t' = { next t 8 with k := t'.k, badK := t'.badK }

/-- R161: a number was issued on a timeline; `done` when it completed at once. -/
def Numbered (x y : Timeline) (done : Bool) : Prop :=
  y.issued = x.issued + 1 ∧ y.failed = x.failed ∧
  (done = false → y.count = x.count ∧ y.ahead = x.ahead) ∧
  (done = true → x.count = x.issued → x.ahead = [] → y.count = y.issued ∧ y.ahead = [])

/-- Every other object of the machine is as it was. -/
def OtherObjects (s s' : State) (g : Nat) : Prop :=
  ∀ x, x ≠ g → reg s' x = reg s x ∧ ∀ site, objEntry s' site x = objEntry s site x

/-- R177: an object without a group may move to another site, in its tier. -/
structure Movable (s : State) (g : Nat) (e : RegEntry) (h : ObjEntry) (target : Nat) : Prop where
  home : AtHome s g e h
  free : e.pinned = false ∧ e.group = none
  single : h.twin = false
  away : target ≠ e.site ∧ target < 2 * s.fabric.devices
  allowed : (siteOf s e.site).osite.getLsbD 1 = true ∧ (siteOf s target).osite.getLsbD 2 = true
  room : tableUse s target < 524288 ∧ frameCount h.size ≤ spare s target h.tier2

/-- R173: the move of the object has started: its first frame is in transfer, frames are taken at the destination, and the
numbers `asked` wait for its end. -/
structure MoveStarts (s s' : State) (g : Nat) (e : RegEntry) (h : ObjEntry) (target : Nat) (asked : List (Nat × Nat)) : Prop where
  registry : reg s' g = some { e with state := .moving }
  source : objEntry s' e.site g = some { h with state := .movingOut, dest := target }
  move : ∃ got, NewFrames s target h.tier2 (frameCount h.size) got ∧ tget s'.moves s.fresh = some
    { goid := g, src := e.site, dst := target, tier2 := h.tier2, frame := 0, frames := frameCount h.size, got := got, asked := asked }
  frames : tierFrames s' target h.tier2 = tierFrames s target h.tier2 - frameCount h.size
  others : OtherObjects s s' g
  mem : s'.mem = s.mem

/-- The fields of an object instruction: destination and operand pairs. -/
def kdI (o : I64) : Nat := sub o.vd 0 6
def kaI (o : I64) : Nat := sub o.va 0 6

/-- R165, R166: the bytes lo to hi of an object's new extent read 0 under `.z`; every byte outside stands. -/
def Fresh (m m' : Memory) (lo hi : Nat) (z : Bool) : Prop :=
  (z = true → ∀ k, lo ≤ k → k < hi → readByte m' k = 0) ∧ ∀ k, ¬(lo ≤ k ∧ k < hi) → readByte m' k = readByte m k

end Sys2Proof.Spec

/-- R164: OQRY completes on every object that its site's registry has ever given a serial, dead ones included, and delivers the
placement word, the size or the cap; only its destination changes (and the model's count of free values, log 12). -/
def Sys2Proof.Spec.ObjectQuery : Prop :=
  ∀ o s t b c n p g e, Instr.legal (.oqry o) = true → p = kgetD t (kaI o) → Uniforms t [(kdI o, 2)] [(kaI o, 2)] →
    OnObject s t b c n p g e → ∃ t' x,
    exec (.oqry o) s = .next (putTeam { s with stamp := s.stamp + 1 } s.cur t') ∧ WrotePair t t' (kdI o) x ∧
    (∀ h, e.state = .live ∨ e.state = .moving → objEntry s e.site g = some h →
      (o.imm = 1 → h.size < 2 ^ 64 → x = h.size) ∧ (o.imm = 2 → h.cap < 2 ^ 64 → x = h.cap) ∧
      (o.imm = 0 → e.site < 1024 → x.testBit 13 = h.tier2 ∧ x.testBit 14 = h.twin ∧ x.testBit 15 = h.retract)) ∧
    (o.imm = 0 → e.site < 1024 → (∀ k, e.group = some k → k < 4096) →
      x % 1024 = e.site ∧
      x / 2 ^ 10 % 8 = (if e.state = .live then 0 else if e.state = .moving then 1 else 2) ∧
      x.testBit 16 = e.pinned ∧ x.testBit 17 = e.group.isSome ∧ x / 2 ^ 18 = e.group.getD 0)

/-- R165, R182: OALLOC gives the new object its serial, its entries and its frames (a twin those of its second copy too), and its
pointer; without room or a serial it gives 0 and does nothing; a size, cap or attribute it does not allow raises 0xC4. Which key slot the
owner has on another device is the device's choice (log 25, DESIGN CHOICE). -/
def Obligations.ObjectAllocation : Prop :=
  ∀ o s t b c n size cap site tier2 twin, Resident s t b c n → b.provisional = false →
    Uniforms t [(kdI o, 2)] [(kaI o, 4)] → size = (kgetD t (kaI o)).toNat → tier2 = o.imm.getLsbD 11 → twin = o.imm.getLsbD 12 →
    cap = (if o.imm.getLsbD 13 then if kaI o = 0 then 0 else (kgetD t (kaI o + 2)).toNat else size) →
    site = (if o.imm.getLsbD 10 then 2 * c.dev + c.die else sub o.imm 0 10) →
    (0 < size → size ≤ cap → cap ≤ 2 ^ 34 → site < 2 * s.fabric.devices → (twin && tier2) = false → Reach s c (site / 2) →
      (∀ num, ((siteOf s site).freed = [] → num = (siteOf s site).unused ∧ num < 524288) →
        (∀ m ms, (siteOf s site).freed = m :: ms → num = m) → num < 2 ^ 19 →
        HasFrames s site tier2 twin (frameCount size) → tableUse s site < 524288 → ∃ s' t' g,
        exec (.oalloc o) s = .next s' ∧ tget s'.teams s.cur = some t' ∧ g = site * 2 ^ 19 + num ∧
        WrotePair t t' (kdI o) (2 ^ 63 + g * 2 ^ 34) ∧
        reg s' g = some { state := .live, site := site, pinned := o.imm.getLsbD 14 } ∧
        (∃ fs cs, NewFrames s site tier2 (frameCount size) fs ∧ CopyFrames s site tier2 twin (frameCount size) cs ∧
          objEntry s' site g = some
          { state := .home, size := size, cap := cap, tier2 := tier2, twin := twin, retract := o.imm.getLsbD 13,
            key := if site / 2 = c.dev then c.key else vfKey (site / 2) c.vf, owner := c.vf, pinned := o.imm.getLsbD 14,
            frames := fs, copy := cs }) ∧
        Took s s' site tier2 twin (frameCount size) ∧ OtherObjects s s' g ∧
        Fresh s.mem s'.mem (2 ^ 63 + g * 2 ^ 34) (2 ^ 63 + g * 2 ^ 34 + size) (o.m.getLsbD 4)) ∧
      (¬HasFrames s site tier2 twin (frameCount size) ∨ 524288 ≤ tableUse s site ∨ ((siteOf s site).freed = [] ∧ 524288 ≤ (siteOf s site).unused) →
        ∃ t', Gives s (.oalloc o) t' ∧ WrotePair t t' (kdI o) 0)) ∧
    (∀ entry, Trappable s t entry → size = 0 ∨ 2 ^ 34 < size ∨ cap < size ∨ 2 ^ 34 < cap ∨ 2 * s.fabric.devices ≤ site ∨
      (twin = true ∧ tier2 = true) → Raises s t (.oalloc o) entry 0xC4 0 t.pc)

/-- R166, R167, R181: OPIN and OUNPIN set the pin; OFREE marks the object dead and frees its frames; OEXT and OTRIM move the end of a
retractable object; a twin's second copy goes with it (R182); each acts on that one object. -/
def Obligations.ObjectChanges : Prop :=
  ∀ o s t b c n p g e h, p = kgetD t (kaI o) → OnObject s t b c n p g e → b.provisional = false → AtHome s g e h →
    (∀ i pin, Uniforms t [] [(kaI o, 2)] → (i = .opin o ∧ pin = true) ∨ (i = .ounpin o ∧ pin = false) → ∃ s', exec i s = .next s' ∧
      tget s'.teams s.cur = some (next t 8) ∧ reg s' g = some { e with pinned := pin } ∧
      objEntry s' e.site g = some { h with pinned := pin } ∧ (∀ site, site ≠ e.site → objEntry s' site g = objEntry s site g) ∧
      OtherObjects s s' g ∧ s'.mem = s.mem ∧ s'.ctxs = s.ctxs) ∧
    (Uniforms t [] [(kaI o, 2)] → c.out = 0 → (∀ x ∈ c.parked, x.count = 0) → ∃ s', exec (.ofree o) s = .next s' ∧
      tget s'.teams s.cur = some (next t 8) ∧ reg s' g = some { e with state := .dead, group := none } ∧
      objEntry s' e.site g = some { state := .dead, moves := h.moves } ∧
      Gave s s' e.site h.tier2 h.twin (frameCount h.size) ∧ OtherObjects s s' g ∧ s'.mem = s.mem) ∧
    (Uniforms t [] [(kaI o, 2)] → c.out ≠ 0 → exec (.ofree o) s = .next (putTeam s s.cur { t with wait := .release })) ∧
    (∀ size, Uniforms t [(kdI o, 1)] [(kaI o, 4)] → size = (kgetD t (kaI o + 2)).toNat →
      (h.retract = true → size ≤ h.cap → h.size < size →
        HasFrames s e.site h.tier2 h.twin (frameCount size - frameCount h.size) → ∃ s' t', exec (.oext o) s = .next s' ∧
        tget s'.teams s.cur = some t' ∧ WroteUniform t t' (kdI o) 1 ∧ t' = { next t 8 with k := t'.k, badK := t'.badK } ∧
        (∃ fs cs, NewFrames s e.site h.tier2 (frameCount size - frameCount h.size) fs ∧
          CopyFrames s e.site h.tier2 h.twin (frameCount size - frameCount h.size) cs ∧
          objEntry s' e.site g = some { h with size := size, frames := h.frames ++ fs, copy := h.copy ++ cs }) ∧ reg s' g = some e ∧
        Took s s' e.site h.tier2 h.twin (frameCount size - frameCount h.size) ∧
        OtherObjects s s' g ∧
        Fresh s.mem s'.mem (2 ^ 63 + g * 2 ^ 34 + h.size) (2 ^ 63 + g * 2 ^ 34 + size) (o.m.getLsbD 4)) ∧
      (h.retract = true → size ≤ h.cap → size ≤ h.size → ∃ t', Gives s (.oext o) t' ∧ WroteUniform t t' (kdI o) 1 ∧
        t' = { next t 8 with k := t'.k, badK := t'.badK }) ∧
      (h.retract = true → size ≤ h.cap → h.size < size → ¬HasFrames s e.site h.tier2 h.twin (frameCount size - frameCount h.size) →
        ∃ t', Gives s (.oext o) t' ∧ WroteUniform t t' (kdI o) 0 ∧ t' = { next t 8 with k := t'.k, badK := t'.badK }) ∧
      (h.retract = true → size < h.size → h.size ≤ h.cap → ∃ s', exec (.otrim o) s = .next s' ∧
        tget s'.teams s.cur = some (next t 8) ∧ objEntry s' e.site g = some
          { h with size := size, frames := h.frames.take (frameCount size), copy := h.copy.take (frameCount size) } ∧ reg s' g = some e ∧
        Gave s s' e.site h.tier2 h.twin (frameCount h.size - frameCount size) ∧
        OtherObjects s s' g ∧ s'.mem = s.mem) ∧
      (∀ entry i, i = .oext o ∨ i = .otrim o → Trappable s t entry → h.retract = false ∨ h.cap < size →
        Raises s t i entry 0xC4 0 t.pc))

/-- R167, R177: OHINT completes on every live or moving object with the next number of the context's flume timeline: the move
starts, or the number completes at once; it waits for nothing. -/
def Sys2Proof.Spec.PlacementHint : Prop :=
  ∀ o s t b c n p g e target, p = kgetD t (kaI o) → Uniforms t [(kdI o, 2)] [(kaI o, 2)] → OnObject s t b c n p g e →
    e.state = .live ∨ e.state = .moving → target = (if o.imm.getLsbD 10 then 2 * c.dev + c.die else sub o.imm 0 10) →
    (∃ s' t' f', exec (.ohint o) s = .next s' ∧ tget s'.teams s.cur = some t' ∧ WrotePair t t' (kdI o) (c.flume.issued + 1) ∧
      tget s'.ctxs b.ctx = some { c with flume := f' } ∧ f'.issued = c.flume.issued + 1 ∧ f'.failed = c.flume.failed ∧
      s'.mem = s.mem) ∧
    (∀ h, AtHome s g e h →
      (Movable s g e h target → ∃ s' t' f', exec (.ohint o) s = .next s' ∧ tget s'.teams s.cur = some t' ∧
        WrotePair t t' (kdI o) (c.flume.issued + 1) ∧ tget s'.ctxs b.ctx = some { c with flume := f' } ∧
        Numbered c.flume f' false ∧ MoveStarts s s' g e h target [(b.ctx, c.flume.issued + 1)]) ∧
      ((e.pinned = true ∨ target = e.site) → e.group = none →
        ∃ t' f', Numbered c.flume f' true ∧ WrotePair t t' (kdI o) (c.flume.issued + 1) ∧
        exec (.ohint o) s = .next (putTeam (putCtx s b.ctx { c with flume := f' }) s.cur t')))

/-- R167, R177, R181, R303: OGRP completes, with the next number of the context's flume timeline, on every live or moving object
while no member of its group, or of the group it joins, is moving, those groups' registries can be reached and no pinned
object joins a group homed elsewhere; where a member moves it waits. That it waits there is the model's reading (log 21, DEDUCED: R177
says so of OFREE, OEXT and OTRIM), and so is which registries it has to reach (log 33, DEDUCED). -/
def Sys2Proof.Spec.GroupChange : Prop :=
  ∀ o s t b c n p g e k leave, p = kgetD t (kaI o) → Uniforms t [(kdI o, 2)] [(kaI o, 2)] → OnObject s t b c n p g e →
    b.provisional = false → e.state = .live ∨ e.state = .moving → k = sub o.imm 0 12 → leave = o.imm.getLsbD 31 →
    (leave = false → Reach s c (k % 1024 / 2)) → (∀ j, e.group = some j → Reach s c (j % 1024 / 2)) →
    ((∀ x ∈ s.moves, ¬Moves x.2 g) →
      (∀ j r, e.group = some j → groupRecord s j = some r → ∀ y ∈ r.members, ∀ x ∈ s.moves, ¬Moves x.2 y) →
      (∀ r, leave = false → groupRecord s k = some r → ∀ y ∈ r.members, ∀ x ∈ s.moves, ¬Moves x.2 y) →
      (leave = true ∨ e.pinned = false ∨ e.group = some k ∨ ∀ r, groupRecord s k = some r → r.home = e.site) →
      ∃ s' t' f', exec (.ogrp o) s = .next s' ∧ tget s'.teams s.cur = some t' ∧ WrotePair t t' (kdI o) (c.flume.issued + 1) ∧
        tget s'.ctxs b.ctx = some { c with flume := f' } ∧ f'.issued = c.flume.issued + 1 ∧ f'.failed = c.flume.failed ∧
        s'.mem = s.mem ∧
        (leave = true → Numbered c.flume f' true ∧ reg s' g = some { e with group := none } ∧ OtherObjects s s' g) ∧
        (leave = false → e.group = none → groupRecord s k = none → Numbered c.flume f' true ∧
          reg s' g = some { e with group := some k } ∧ groupRecord s' k = some ⟨e.site, [g]⟩ ∧ OtherObjects s s' g) ∧
        (∀ r, leave = false → e.group = none → groupRecord s k = some r → r.home = e.site → Numbered c.flume f' true ∧
          reg s' g = some { e with group := some k } ∧ groupRecord s' k = some { r with members := r.members ++ [g] } ∧
          OtherObjects s s' g)) ∧
    (e.group = none → (∃ x ∈ s.moves, Moves x.2 g) → exec (.ogrp o) s = .next (putTeam s s.cur { t with wait := .move })) ∧
    (∀ entry r, Trappable s t entry → s.moves = [] → leave = false → e.pinned = true → e.group ≠ some k → groupRecord s k = some r →
      r.home ≠ e.site → Raises s t (.ogrp o) entry 0xC4 0 t.pc)

/-- R164, R167, R173, R177, R181: OQRY, OHINT and OGRP; that OGRP waits for a moving member, and which registries it reaches, is the
model's reading (logs 21 and 33). -/
def Obligations.ObjectQueryAndPlacement : Prop := Spec.ObjectQuery ∧ Spec.PlacementHint ∧ Spec.GroupChange

namespace Sys2Proof.Spec

/-- R301, R303: the device a request goes to is in the pod, and has not been reset since the request went there. -/
def There (s : State) (q : Req) : Prop := (q.site / 2 ∉ s.fabric.absent ∧ q.lost = false) ∨ q.site / 2 = q.from_ / 2

/-- R210, R303: every earlier request of its context to its lines has been answered, and the device it goes to is there. -/
structure FirstInLine (s : State) (id : Nat) (q : Req) : Prop where
  first : ∀ x ∈ s.reqs, x.1 < id → x.2.ctx = q.ctx → x.2.phase ≠ .replied →
    ∀ i ∈ x.2.items, ∀ j ∈ q.items, i.ptr.toNat / 64 ≠ j.ptr.toNat / 64
  there : There s q

/-- R295: no flit that left the same port before it for the device `to_`, on its plane, is still on the way. -/
def FirstFlit (s : State) (id : Nat) (q : Req) (to_ : Req → Nat) : Prop :=
  q.port = to_ q ∨ ∀ x ∈ s.reqs, x.2.phase = q.phase → x.2.plane = q.plane → x.2.port = q.port → to_ x.2 = to_ q →
    q.left < x.2.left ∨ (q.left = x.2.left ∧ id ≤ x.1)

/-- R172, R178: the answer of a home: its site and the object's move count. -/
def answered (s : State) (q : Req) (moves : Nat) (answers : List Ans) : Req :=
  { q with phase := .replied, home := q.site, moves := moves, answers := answers, applied := true, fromHome := true,
           left := s.now, port := q.site / 2 }

/-- R178, R295, R296: the request sent again by its die towards a site: on the plane of that site, with a tag of its own. -/
def SentAgain (s : State) (q q' : Req) (site : Nat) (phase : ReqPhase) : Prop :=
  ∃ plane tag, plane = planeOf s (site / 2) (reqPtr q) ∧
    q' = { q with phase := phase, site := site, plane := plane, tag := tag, origin := some plane, port := q.from_ / 2, left := s.now }

end Sys2Proof.Spec

/-- R172, R178, R190, R191: a request on its way: the home serves it, a stub forwards it up to eight times and then has it asked, a site
that does not know the object sends it to the registry, whose answer sends every waiting request of the die on, and a reply
reaches its lanes. A request waits for the earlier ones of its context to its line (R210) and for the flits that left its port before it
(R295). What a reply teaches keeps a set of the locator at 8 ways. -/
def Obligations.RequestRoutes : Prop :=
  (∀ s site g home moves k, (tgetD (siteOf s site).locator k []).length ≤ 8 →
    (tgetD (siteOf (learn s site g home moves) site).locator k []).length ≤ 8) ∧
  ∀ s id q, tget s.reqs id = some q →
    (∀ it g h, FirstInLine s id q → FirstFlit s id q (fun x => x.site / 2) → q.phase = .toSite → q.viaMove = false → q.applied = false → q.items = [it] → g = sub it.ptr 34 29 →
      objEntry s q.site g = some h →
      (h.state = .home → sub it.ptr 0 34 + q.size ≤ h.size → it.runs = [(it.ptr.toNat, q.size)] →
        (q.kind = .store → ∃ s', exec (.homeServe id) s = .next s' ∧
          tget s'.reqs id = some (answered s q h.moves [⟨it.lane, 0, 0⟩]) ∧
          readNat s'.mem it.ptr.toNat q.size = it.data % 256 ^ q.size ∧
          (∀ k, ¬(it.ptr.toNat ≤ k ∧ k < it.ptr.toNat + q.size) → readByte s'.mem k = readByte s.mem k)) ∧
        (∀ op, q.kind = .atom op → it.data < 256 ^ q.size → it.compare < 256 ^ q.size →
          tget s.errors (it.ptr.toNat / 64) = none → ∃ s', exec (.homeServe id) s = .next s' ∧
          tget s'.reqs id = some (answered s q h.moves [⟨it.lane, readNat s.mem it.ptr.toNat q.size, 0⟩]) ∧
          readNat s'.mem it.ptr.toNat q.size =
            atomValue op (8 * q.size) (readNat s.mem it.ptr.toNat q.size) it.data it.compare % 256 ^ q.size ∧
          (∀ k, ¬(it.ptr.toNat ≤ k ∧ k < it.ptr.toNat + q.size) → readByte s'.mem k = readByte s.mem k))) ∧
      (h.state = .stub → ∃ s', exec (.homeServe id) s = .next s' ∧ s'.reqs = tput s.reqs id { q with phase := .forwarding } ∧
        objEntry s' q.site g = some { h with forwarded := h.forwarded + 1 } ∧ s'.mem = s.mem) ∧
      (h.state = .collected → exec (.homeServe id) s = .next { s with reqs := tput s.reqs id { q with phase := .notHere } })) ∧
    (∀ h, FirstInLine s id q → q.phase = .forwarding → objEntry s q.site (reqGoid q) = some h → h.state = .stub → ∃ q',
      exec (.stubForward id) s = .next { s with reqs := tput s.reqs id q' } ∧
      (q.hops < 8 → q' = { q with site := h.dest, hops := q.hops + 1, phase := .toSite, port := q.site / 2, left := s.now,
                                   plane := planeOf s (h.dest / 2) (reqPtr q) }) ∧
      (8 ≤ q.hops → q' = { q with phase := .asked })) ∧
    (q.phase = .notHere → ∃ s', exec (.notHereReceive id) s = .next s' ∧ locate s' q.from_ (reqGoid q) = none ∧ s'.mem = s.mem ∧
      ∃ q', tget s'.reqs id = some q' ∧ SentAgain s { q with hops := 0 } q' (reqGoid q / 2 ^ 19) .registry) ∧
    (q.phase = .asked → ∃ s' q', exec (.askReceive id) s = .next s' ∧ s'.mem = s.mem ∧ s'.teams = s.teams ∧
      tget s'.reqs id = some q' ∧ SentAgain s { q with hops := 0 } q' (reqGoid q / 2 ^ 19) .registry) ∧
    (∀ e, There s q → q.phase = .registry → reg s (reqGoid q) = some e → e.state = .live ∨ e.state = .moving →
      reqGoid q / 2 ^ 19 < 2 * s.fabric.devices →
      (∀ x ∈ s.reqs, x.2.phase = .answered → x.2.from_ = q.from_ → reqGoid x.2 ≠ reqGoid q) →
      exec (.registryLookup id) s = .next
        { s with reqs := tput s.reqs id { q with phase := .answered, site := e.site, answers := [] } }) ∧
    (q.phase = .answered → q.answers = [] → q.site / 2 = q.from_ / 2 → twf s.reqs = true →
      ∃ s', exec (.registryAnswer id) s = .next s' ∧ s'.mem = s.mem ∧ s'.teams = s.teams ∧
        (∀ g, reg s' g = reg s g ∧ ∀ site, objEntry s' site g = objEntry s site g) ∧
        ∀ j x, tget s.reqs j = some x → j = id ∨ (x.phase = .registry ∧ x.from_ = q.from_ ∧ reqGoid x = reqGoid q) →
          ∃ q', tget s'.reqs j = some q' ∧ SentAgain s { x with answers := [] } q' q.site .toSite) ∧
    (∀ op t w, FirstFlit s id q (fun x => x.from_ / 2) → q.set = none → q.phase = .replied → q.kind = .atom op → tget s.teams q.team = some t → t.ended = false → q.size = 4 * w →
      w = 1 ∨ w = 2 →
      (∀ a ∈ q.answers, a.fault = 0 ∧ ∃ l, a.lane = some l) → (q.answers.map fun a => a.lane).Nodup → ∃ s' t',
      exec (.replyReceive id) s = .next s' ∧ tget s'.reqs id = none ∧ s'.mem = s.mem ∧ tget s'.teams q.team = some t' ∧
      t' = { t with v := t'.v, bad := t'.bad } ∧
      (∀ a ∈ q.answers, ∀ l k, a.lane = some l → InGroup q.dest w k → q.dest + w ≤ 128 →
        vget t' l k = BitVec.ofNat 32 (a.value / 2 ^ (32 * (k - q.dest)))) ∧
      (∀ l k, q.dest + w ≤ 128 → k < 128 → (∀ a ∈ q.answers, a.lane ≠ some l) ∨ ¬InGroup q.dest w k → vget t' l k = vget t l k))

/-- R173 to R175, R177, R180, R191, R192: a migration request starts a move under the conditions of R177; frames follow one another, and
after the last the object is at home at the destination and a stub where it was; a window that ends clears its counts and ages
the stubs; a purge takes dead serials through every die of the pod. That the new home's sketch, streaks and last counts are empty is the
model's choice (log 21), and which key slot the owner has on another device is the device's (log 25). -/
def Obligations.MovesWindowsPurges : Prop :=
  (∀ s g target tier2 e h, Movable s g e h target →
    h.lastLocal ≤ ((h.lastSketch.filter fun x => decide (x.1 = target)).map (·.2)).sum →
    ∃ s', exec (.migrationRequest g target tier2) s = .next s' ∧ MoveStarts s s' g e h target []) ∧
  (∀ s id m, tget s.moves id = some m → m.queue = [] → m.frame + 1 < m.frames → ∃ s',
    exec (.frameTransferDone id) s = .next s' ∧ tget s'.moves id = some { m with frame := m.frame + 1 } ∧
    s'.sites = s.sites ∧ s'.mem = s.mem ∧ s'.ctxs = s.ctxs) ∧
  (∀ s id m e h, tget s.moves id = some m → m.queue = [] → m.frame + 1 = m.frames → m.rest = [] → m.group = none →
    m.src ≠ m.dst → reg s m.goid = some e → objEntry s m.src m.goid = some h → ∃ s', exec (.frameTransferDone id) s = .next s' ∧
    tget s'.moves id = none ∧ s'.mem = s.mem ∧ s'.teams = s.teams ∧ OtherObjects s s' m.goid ∧
    reg s' m.goid = some { e with state := .live, site := m.dst, moves := (h.moves + 1) % 65536 } ∧
    objEntry s' m.dst m.goid = some { h with
      state := .home, tier2 := m.tier2, frames := m.got, copy := m.copy, pinned := e.pinned, moves := (h.moves + 1) % 65536, forwarded := 0, quiet := 0, local_ := 0, sketch := [],
      streaks := [], lastLocal := 0, lastSketch := [],
      key := if m.dst / 2 = m.src / 2 then h.key else vfKey (m.dst / 2) h.owner } ∧
    objEntry s' m.src m.goid = some
      { state := .stub, dest := m.dst, moves := (h.moves + 1) % 65536, born := clock s (m.src / 2) / 1048576 } ∧
    (m.asked = [] → s'.ctxs = s.ctxs)) ∧
  (∀ s site x, x = siteOf s site → (x.window + 1) * 1048576 ≤ clock s (site / 2) → x.osite.getLsbD 0 = false →
    twf x.objects = true → x.flips = [] → ∃ s', exec (.windowEnd site) s = .next s' ∧ s'.mem = s.mem ∧ s'.teams = s.teams ∧
    (siteOf s' site).window = x.window + 1 ∧ (siteOf s' site).registry = x.registry ∧
    (∀ g e, tget x.objects g = some e →
      (e.state = .stub → e.born = x.window → objEntry s' site g = some { e with forwarded := 0 }) ∧
      (e.state = .stub → x.window < e.born → objEntry s' site g = some e) ∧
      (e.state = .stub → e.born < x.window → e.forwarded ≠ 0 →
        objEntry s' site g = some { e with forwarded := 0, quiet := 0 }) ∧
      (e.state = .stub → e.born < x.window → e.forwarded = 0 → e.quiet + 1 < sub x.osite 12 4 →
        objEntry s' site g = some { e with quiet := e.quiet + 1 }) ∧
      (e.state = .stub → e.born < x.window → e.forwarded = 0 → sub x.osite 12 4 ≤ e.quiet + 1 →
        objEntry s' site g = some { state := .collected, moves := e.moves }) ∧
      (e.state = .home ∨ e.state = .movingOut → ∃ streaks, objEntry s' site g = some { e with
        local_ := 0, sketch := [], lastLocal := e.local_, lastSketch := e.sketch, streaks := streaks }) ∧
      (e.state = .dead ∨ e.state = .collected → objEntry s' site g = some e))) ∧
  (∀ s site n e, (siteOf s site).purging = [] → tget (siteOf s site).registry n = some e → e.state = .dead →
    ∃ s', exec (.purge site [n]) s = .next s' ∧ s'.mem = s.mem ∧
    tget (siteOf s' site).registry n = some { e with state := .purging } ∧ (siteOf s' site).purging = [n] ∧
    (siteOf s' site).purgeAcks = []) ∧
  (∀ s site die n e, (siteOf s site).purging = [n] → n < 524288 → die < 2 * s.fabric.devices → die ∉ (siteOf s site).purgeAcks →
    tget (siteOf s site).registry n = some e → ∃ s', exec (.purgeAck site die) s = .next s' ∧ s'.mem = s.mem ∧
    locate s' die (site * 2 ^ 19 + n) = none ∧
    (∀ h, (site * 2 ^ 19 + n, h) ∈ (siteOf s' die).objects → h.state = .home ∨ h.state = .movingOut) ∧
    ((siteOf s site).purgeAcks.length + 1 < 2 * s.fabric.devices →
      (siteOf s' site).purgeAcks = die :: (siteOf s site).purgeAcks ∧ (siteOf s' site).registry = (siteOf s site).registry) ∧
    (2 * s.fabric.devices ≤ (siteOf s site).purgeAcks.length + 1 →
      tget (siteOf s' site).registry n = some { e with state := .free } ∧ (siteOf s' site).purging = [] ∧
      (siteOf s' site).freed = (siteOf s site).freed ++ [n]))

namespace Sys2Proof.Spec

/-! ### The matrix array (R230 to R237, R252) -/

/-- R234: a record in the own scratchpad, of a format, with at least so many rows and columns, its footprint inside. -/
structure TileArg (b : Block) (r : TileRec) (fmt rows cols : Nat) : Prop where
  format : r.format = fmt
  own : r.base.getLsbD 63 = false ∧ sub r.base 60 3 = 2 ∧ sub r.base 57 3 = 0
  size : rows ≤ r.rows ∧ cols ≤ r.cols
  inside : sub r.base 0 57 + r.rows * r.pitch ≤ b.spad

/-- R232, R280: a codebook number the context has, for a c format; its register holds no uncorrectable error, or a queued MCBL
loads it first. -/
def BookOk (b : Block) (c : Ctx) (f num : Nat) : Prop := isC f = true → num ≤ (if c.slot = .wide then 15 else 7) ∧
  (num ∉ c.badBooks ∨ ∃ q ∈ b.matQ, q.kind = .mcbl ∧ (q.params.getD 0 0).toNat % 16 = num)

/-- R233: an id names a slot of the issued view. -/
def NamesSlot (b : Block) (id : Nat) (q : ISlot) : Prop :=
  id ≠ 255 ∧ b.islots.find? (fun x => decide (x.view = .slot id)) = some q

/-- R233, R252: a first write has a slot to reuse, or the quota allows one more. -/
def CanWrite (b : Block) (id : Nat) : Prop := (id = 255 ∧ b.islots.length < b.quota) ∨ ∃ q, NamesSlot b id q

/-- R280: an accumulator slot that is read holds no uncorrectable error, or a queued operation writes it first. -/
def SlotSound (b : Block) (c : Ctx) (id : Nat) : Prop :=
  (∀ q, tget c.slots id = some q → q.bad = false) ∨ ∃ op ∈ b.matQ, op.dst = .slot id

/-- R54, R234: the destination handle of a product: under OVW writable, otherwise of the product's kind and shape. -/
def DstReady (b : Block) (c : Ctx) (ovw : Bool) (id : Nat) (kind : AccKind) (m n : Nat) : Prop :=
  if ovw = true then CanWrite b id else SlotSound b c id ∧ ∃ q, NamesSlot b id q ∧ q.kind = kind ∧ q.m = m ∧ q.n = n

/-- R233: what the issue does with the destination: an empty handle waits for the slot of this operation. -/
def DstTaken (t t' : Team) (b b' : Block) (ovw : Bool) (h id num : Nat) (kind : AccKind) (m n : Nat) (view : HandleView) : Prop :=
  if id = 255 then view = .alloc num ∧ b'.islots = b.islots ++ [⟨.alloc num, kind, m, n⟩] ∧
    t' = { next t 8 with ia := tput t.ia h (.alloc num) }
  else view = .slot id ∧ t' = next t 8 ∧ b'.islots =
    if ovw = true then b.islots.map fun x => if x.view = .slot id then ⟨.slot id, kind, m, n⟩ else x else b.islots

/-- R223, R230: the instruction completes by queueing one matrix operation: the next number of the timeline, its place among the
operations of the machine, and nothing else but what `P` says. -/
def Queued (s : State) (t t' : Team) (b : Block) (i : Instr) (P : Block → MatOp → Prop) : Prop :=
  ∃ b' op, exec i s = .next (putTeam (putBlock { s with fresh := s.fresh + 1 } t.block b') s.cur t') ∧
    b'.matQ = b.matQ ++ [op] ∧ op.num = b.mat.issued + 1 ∧ op.team = s.cur ∧ op.order = s.fresh ∧ op.loading = false ∧
    b'.mat = { b.mat with issued := b.mat.issued + 1 } ∧ P b' op ∧
    b' = { b with matQ := b'.matQ, mat := b'.mat, islots := b'.islots, iactive := b'.iactive, ishadow := b'.ishadow, tags := b'.tags }

/-- R232: the run of eight uniform registers from k[kp]. -/
def params (t : Team) (o : E64) : List Word := (List.range 8).map fun i => kget t (o.kp.toNat + i)

/-- R232: the parameter words an instruction reads: for a codebook, a loop and the triangle. -/
def wordsRead (book loop tri : Bool) : List Nat :=
  (if book then [0] else []) ++ (if loop then [1, 2, 3] else []) ++ (if tri then [4, 5, 6, 7] else [])

/-- R233: the handles named are not waiting for the slot of an issued operation, they and the uniform registers read (`words` of the
parameter run) hold no error (R280), and the queue has room. -/
structure MatGate (s : State) (t : Team) (b : Block) (c : Ctx) (n : Node) (o : E64) (words handles : List Nat) : Prop where
  resident : Resident s t b c n
  sound : Uniforms t [] ((o.kq.toNat, 1) :: words.map fun i => (o.kp.toNat + i, 1))
  room : b.matQ.length < 8
  known : ∀ h ∈ handles, h ∉ t.badA ∧ ∀ num, tget t.ia h ≠ some (.alloc num)

/-- R219, R236: the footprint of a record moved by `off` bytes stays inside the allocation. -/
def InsideAt (b : Block) (r : TileRec) (off : Int) : Prop :=
  0 ≤ (sub r.base 0 57 : Int) + off ∧ (sub r.base 0 57 : Int) + off + (r.rows * r.pitch : Nat) ≤ b.spad

/-- R230: the queue head of block `i` is the operation that the context's array executes next. -/
structure Next (s : State) (ctx : Nat) (c : Ctx) (i : Nat) (b : Block) (op : MatOp) (rest : List MatOp) : Prop where
  home : b.ctx = ctx
  context : tget s.ctxs ctx = some c
  running : c.state = .running
  member : i ∈ c.blocks
  placed : tget s.blocks i = some b
  head : b.matQ = op :: rest
  ready : op.loading = false ∧ ∀ num, op.dst ≠ .alloc num
  planes : ∀ p, b.active = some p ∨ b.shadow = some p → p.loaded = true
  oldest : ∀ j b' op', j ∈ c.blocks → j ≠ i → tget s.blocks j = some b' → b'.matQ.head? = some op' →
    op.order < op'.order
  once : ∀ x ∈ rest, x.num ≠ op.num

/-- The operation leaves the queue and completes on the timeline and on its tag; `%qsat` only gains bits. -/
structure MatDone (b b' : Block) (op : MatOp) (rest : List MatOp) : Prop where
  queue : b'.matQ = rest
  line : op.num = b.mat.count + 1 → b.mat.ahead = [] → b'.mat = { b.mat with count := op.num }
  tags : ∀ i, op.tag ≠ some i → tag b' i = tag b i
  counted : ∀ i, op.tag = some i → (tag b' i).count = (tag b i).count - 1
  sat : ∀ j, b.qsat.getLsbD j = true → b'.qsat.getLsbD j = true
  others : b' = { b with matQ := b'.matQ, mat := b'.mat, tags := b'.tags, qsat := b'.qsat, active := b'.active, shadow := b'.shadow }

/-- The slots of a context with one changed. -/
def SlotSet (s' : State) (ctx : Nat) (c : Ctx) (id : Nat) (x : Option AccSlot) : Prop :=
  ∃ c', tget s'.ctxs ctx = some c' ∧ c' = { c with slots := c'.slots } ∧ tget c'.slots id = x ∧
    ∀ j, j ≠ id → tget c'.slots j = tget c.slots j

/-- A slot an id of the handle view names. -/
def slotOf (v : HandleView) : Nat := match v with
  | .slot id => id
  | _ => 255

/-- R235: byte `o` of row `r` as MRD and MQNT write it: codes of the slot's values, in MQNT with the predictions that the rows
before have left. -/
def drained (op : MatOp) (q : AccSlot) (r o : Nat) : Byte :=
  let vals (i : Nat) := ((q.data.drop (i * op.n)).take op.n).map (accVal q.kind)
  let p := (op.params.getD 0 0).toNat
  if op.kind = .mrd then (readRow op.fa (vals r)).1.getD o 0
  else
    let preds := (List.range r).foldl (fun ps i => (quantRow op.fa (p / 256 % 16) ps (vals i)).2.2)
      (List.replicate (op.n / 32) (p % 256))
    (quantRow op.fa (p / 256 % 16) preds (vals r)).1.getD o 0

/-- R235: the memory key of byte `o` of a row of a scratchpad record. -/
def tileKey (i : Nat) (x : TileRec) (row o : Nat) : Nat := spadKey i (sub (rowPtr x row o) 0 57)

end Sys2Proof.Spec

/-- R223, R230 to R236, R252: every matrix instruction whose operands pass its checks queues one operation with what it names, and the
issued view of planes, slots and handles follows. That MLDS takes its rate class from format B alone, and where MRD and MQNT check
their handle, is the model's reading (log 22, DEDUCED). -/
def Obligations.MatrixIssue : Prop :=
  ∀ o s t b c nd h id m n fa fb ps, h = o.h.toNat → id = tgetD t.a h 255 → (m, n) = shapeMN o.sh.toNat →
    fa = o.fa.toNat → fb = o.fb.toNat → ps = params t o →
    (∀ x k, MatGate s t b c nd o (wordsRead (isC fb) false false) [] → HoldsTile t o.x2.toNat x → shapeK (rateClass fb) o.sh.toNat = some k →
      TileArg b x fb n k → BookOk b c fb ((kget t o.kp.toNat).toNat / 16 % 16) →
      Queued s t (next t 8) b (.mlds o) fun b' op => op.kind = .mlds ∧ op.x2 = some x ∧ op.fb = fb ∧ op.n = n ∧ op.k = k ∧
        op.dst = .none ∧ b'.ishadow = some { src := x, n := n, k := k, fmt := fb, book := (kget t o.kp.toNat).toNat / 16 % 16 } ∧
        b'.iactive = b.iactive ∧ b'.islots = b.islots ∧ b'.tags = b.tags) ∧
    (MatGate s t b c nd o [] [] → Queued s t (next t 8) b .mswp fun b' op => op.kind = .mswp ∧ op.dst = .none ∧
      b'.iactive = b.ishadow ∧ b'.ishadow = b.iactive ∧ b'.islots = b.islots ∧ b'.tags = b.tags) ∧
    (∀ x k p, MatGate s t b c nd o (wordsRead (isC fa || isC fb) false (o.fl.getLsbD 1)) [h] → HoldsTile t o.x1.toNat x →
      shapeK (min (rateClass fa) (rateClass fb)) o.sh.toNat = some k → TileArg b x fa m k → b.iactive = some p → p.fmt = fb →
      p.n = n → p.k = k → DstReady b c (o.fl.getLsbD 0) id (productKind fa fb) m n →
      BookOk b c fa ((kget t o.kp.toNat).toNat % 16) → BookOk b c fb ((kget t o.kp.toNat).toNat / 16 % 16) →
      ∃ t', Queued s t t' b (.mma o) fun b' op => op.kind = .mma ∧ op.x1 = some x ∧ op.fa = fa ∧ op.fb = fb ∧ op.m = m ∧
        op.n = n ∧ op.k = k ∧ op.ovw = o.fl.getLsbD 0 ∧ op.tri = o.fl.getLsbD 1 ∧ op.params = ps ∧
        DstTaken t t' b b' (o.fl.getLsbD 0) h id op.num (productKind fa fb) m n op.dst ∧ b'.iactive = b.iactive ∧
        b'.ishadow = b.ishadow ∧ b'.tags = b.tags) ∧
    (∀ x y k S da db, MatGate s t b c nd o (wordsRead (isC fa || isC fb) true (o.fl.getLsbD 1)) [h] →
      HoldsTile t o.x1.toNat x → HoldsTile t o.x2.toNat y →
      shapeK (min (rateClass fa) (rateClass fb)) o.sh.toNat = some k → TileArg b x fa m k → TileArg b y fb n k →
      DstReady b c (o.fl.getLsbD 0) id (productKind fa fb) m n →
      BookOk b c fa ((kget t o.kp.toNat).toNat % 16) → BookOk b c fb ((kget t o.kp.toNat).toNat / 16 % 16) →
      S = (kget t (o.kp.toNat + 1)).toNat → da = (kget t (o.kp.toNat + 2)).toInt → db = (kget t (o.kp.toNat + 3)).toInt →
      0 < S → S < 65536 → da % 16 = 0 → db % 16 = 0 → InsideAt b x ((S - 1 : Nat) * da) → InsideAt b y ((S - 1 : Nat) * db) →
      (o.fl.getLsbD 2 = true → ∃ p, b.ishadow = some p ∧ p.fmt = fb ∧ p.n = n ∧ p.k = k) →
      ∃ t', Queued s t t' b (.mloop o) fun b' op => op.kind = .mloop ∧ op.x1 = some x ∧ op.x2 = some y ∧ op.fa = fa ∧ op.fb = fb ∧
        op.m = m ∧ op.n = n ∧ op.k = k ∧ op.ovw = o.fl.getLsbD 0 ∧ op.tri = o.fl.getLsbD 1 ∧ op.pre = o.fl.getLsbD 2 ∧
        op.params = ps ∧ DstTaken t t' b b' (o.fl.getLsbD 0) h id op.num (productKind fa fb) m n op.dst ∧ b'.ishadow = none ∧
        (∃ p, b'.iactive = some p ∧ p.n = n ∧ p.k = k ∧ p.fmt = fb) ∧ b'.tags = b.tags) ∧
    (MatGate s t b c nd o [] [h] → CanWrite b id → ∃ t', Queued s t t' b (.mzero o) fun b' op => op.kind = .mzero ∧ op.m = m ∧ op.n = n ∧
      op.tri = o.fl.getLsbD 0 ∧ DstTaken t t' b b' true h id op.num (if o.fl.getLsbD 0 then .int40 else .a40) m n op.dst ∧
      b'.iactive = b.iactive ∧ b'.ishadow = b.ishadow ∧ b'.tags = b.tags) ∧
    (MatGate s t b c nd o [] [h] → id = 255 ∨ (∃ q, NamesSlot b id q) →
      Queued s t { next t 8 with a := tput t.a h 255 } b (.mrel o) fun b' op => op.kind = .mrel ∧ op.dst = .none ∧
        op.src = (if id = 255 then .none else .slot id) ∧ b'.islots = b.islots.filter (fun x => decide (x.view ≠ .slot id)) ∧
        b'.iactive = b.iactive ∧ b'.ishadow = b.ishadow ∧ b'.tags = b.tags) ∧
    (∀ i kind x q, (i = .mrd o ∧ kind = .mrd) ∨ (i = .mqnt o ∧ kind = .mqnt ∧ (isQ fa = true →
        (kget t o.kp.toNat).toNat % 256 ≠ 0 ∧ (kget t o.kp.toNat).toNat % 256 ≠ 255 ∧ (kget t o.kp.toNat).toNat / 256 % 16 ≠ 0)) →
      MatGate s t b c nd o (wordsRead (decide (kind = .mqnt) && isQ fa) false false) [h] → HoldsTile t o.x1.toNat x →
      NamesSlot b id q → SlotSound b c id → TileArg b x fa q.m q.n → TagFree b o →
      BarReady t b nd o → Queued s t (next t 8) b i fun b' op => op.kind = kind ∧ op.x1 = some x ∧ op.src = .slot id ∧
        op.dst = .none ∧ op.fa = fa ∧ op.m = q.m ∧ op.n = q.n ∧ op.params = ps ∧
        op.tag = (if o.fl.getLsbD 3 then some o.tb.toNat else none) ∧ Captured s t b nd o op.credit ∧ TookTag b b' o ∧
        b'.islots = b.islots ∧ b'.iactive = b.iactive ∧ b'.ishadow = b.ishadow) ∧
    (∀ hs x y q, hs = sub o.m 4 3 → MatGate s t b c nd o [] [hs, h] → HoldsTile t o.x1.toNat x → HoldsTile t o.x2.toNat y →
      NamesSlot b (tgetD t.a hs 255) q → SlotSound b c (tgetD t.a hs 255) → TileArg b x 0 1 q.m → TileArg b y 0 1 q.n →
      DstReady b c (!o.fl.getLsbD 0) id .a40 q.m q.n → ∃ t', Queued s t t' b (.mscac o) fun b' op => op.kind = .mscac ∧
        op.x1 = some x ∧ op.x2 = some y ∧ op.src = .slot (tgetD t.a hs 255) ∧ op.m = q.m ∧ op.n = q.n ∧
        op.ovw = !o.fl.getLsbD 0 ∧ DstTaken t t' b b' (!o.fl.getLsbD 0) h id op.num .a40 q.m q.n op.dst ∧
        b'.iactive = b.iactive ∧ b'.ishadow = b.ishadow ∧ b'.tags = b.tags) ∧
    (∀ x, MatGate s t b c nd o (wordsRead true false false) [] → HoldsTile t o.x1.toNat x → x.format = 2 → FitsOwn b x →
      (kget t o.kp.toNat).toNat % 16 ≤ (if c.slot = .wide then 15 else 7) →
      Queued s t (next t 8) b (.mcbl o) fun b' op => op.kind = .mcbl ∧ op.x1 = some x ∧ op.params = ps ∧ op.dst = .none ∧
        b'.islots = b.islots ∧ b'.iactive = b.iactive ∧ b'.ishadow = b.ishadow ∧ b'.tags = b.tags) ∧
    (Resident s t b c nd → h ∉ t.badA → (∀ num, tget t.ia h ≠ some (.alloc num)) → ∃ t', Gives s (.mhndGet o) t' ∧
      WroteUniform t t' o.kp.toNat (BitVec.ofNat 32 id) ∧ t' = { next t 8 with k := t'.k, badK := t'.badK }) ∧
    (∀ v, v = (kget t o.kp.toNat).toNat % 256 → Resident s t b c nd → Uniforms t [] [(o.kp.toNat, 1)] →
      (v = 255 ∨ (∃ q, NamesSlot b v q) → Gives s (.mhndSet o)
        { next t 8 with a := tput t.a h v, ia := tdel t.ia h, badA := t.badA.filter (· ≠ h) }) ∧
      (∀ entry, Trappable s t entry → v ≠ 255 → (∀ q, ¬NamesSlot b v q) →
        Raises s t (.mhndSet o) entry 0x148 (BitVec.ofNat 32 (h + 256 * o.kp.toNat)) t.pc))

/-- R58, R230, R233, R235, R236, R237: the oldest operation that can execute does: MSWP exchanges the planes, MZERO clears a slot, MREL
frees one, MMA (from the row at which it was stopped, R249) adds its products to the slot's elements or clears it first, MSCAC scales (from its row too), MRD writes codes, MCBL loads a codebook,
MLDS starts to load its plane and the load ends; each leaves its queue and completes. -/
def Sys2Proof.Spec.MatrixExecution : Prop :=
  ∀ s ctx c i b op rest, Next s ctx c i b op rest → ∀ s', exec (.matrixExecute ctx) s = .next s' →
    (op.kind = .mlds → s'.mem = s.mem ∧ s'.ctxs = s.ctxs ∧ tget s'.blocks i = some { b with matQ := { op with loading := true } :: rest }) ∧
    (op.kind = .mswp → ∃ b', tget s'.blocks i = some b' ∧ MatDone b b' op rest ∧ b'.active = b.shadow ∧ b'.shadow = b.active ∧
      s'.mem = s.mem ∧ s'.ctxs = s.ctxs) ∧
    (op.kind = .mzero → ∃ b', tget s'.blocks i = some b' ∧ MatDone b b' op rest ∧ s'.mem = s.mem ∧
      SlotSet s' ctx c (slotOf op.dst) (some ⟨i, if op.tri then .int40 else .a40, op.m, op.n, List.replicate (op.m * op.n) 0, false⟩)) ∧
    (∀ id, op.kind = .mrel → op.src = .slot id → ∃ b', tget s'.blocks i = some b' ∧ MatDone b b' op rest ∧ s'.mem = s.mem ∧
      SlotSet s' ctx c id none) ∧
    (∀ x p old rows, op.kind = .mma → op.x1 = some x → b.active = some p → p.n = op.n → opRows s i x 0 op.m op.k = some rows →
      (op.ovw = true → op.row = 0 → old = List.replicate (op.m * op.n) 0) →
      (op.ovw = false ∨ op.row ≠ 0 →
        ∃ q, tget c.slots (slotOf op.dst) = some q ∧ q.bad = false ∧ q.data = old ∧ old.length = op.m * op.n) →
      ∃ b' d, tget s'.blocks i = some b' ∧ MatDone b b' op rest ∧ s'.mem = s.mem ∧ b'.active = b.active ∧ b'.shadow = b.shadow ∧
        SlotSet s' ctx c (slotOf op.dst) (some ⟨i, productKind op.fa op.fb, op.m, op.n, d, false⟩) ∧ d.length = op.m * op.n ∧
        ∀ r j, r < op.m → j < op.n → d.getD (r * op.n + j) 0 =
          if r < op.row then old.getD (r * op.n + j) 0
          else if op.tri = true ∧ triMasked op.params r j = true then triConst (productKind op.fa op.fb) (op.params.getD 7 0)
          else (dotStep (productKind op.fa op.fb) (old.getD (r * op.n + j) 0)
            ((rowVals op.fa (if isC op.fa then bookEntries c ((op.params.getD 0 0).toNat % 16) else []) op.k (rows.getD r [])).zip
              ((planeVals p).getD j []))).1) ∧
    (∀ x q, op.kind = .mrd ∨ (op.kind = .mqnt ∧ isBlocked op.fa = true) → op.x1 = some x → op.credit = none →
      tget c.slots (slotOf op.src) = some q → q.bad = false → q.data.length = op.m * op.n →
      ∃ b', tget s'.blocks i = some b' ∧ MatDone b b' op rest ∧ s'.ctxs = s.ctxs ∧
        (∀ k, (∀ r o, op.row ≤ r → r < op.m → o < rowLen op.fa op.n → k ≠ tileKey i x r o) → readByte s'.mem k = readByte s.mem k) ∧
        ((∀ r o r' o', r < op.m → o < rowLen op.fa op.n → r' < op.m → o' < rowLen op.fa op.n → tileKey i x r o = tileKey i x r' o' →
            r = r' ∧ o = o') →
          ∀ r o, op.row ≤ r → r < op.m → o < rowLen op.fa op.n → readByte s'.mem (tileKey i x r o) =
            (readByte s.mem (tileKey i x r o) &&& ~~~byteMask x op.n r o) ||| (drained op q r o &&& byteMask x op.n r o))) ∧
    (∀ x y q xs ys old, op.kind = .mscac → op.x1 = some x → op.x2 = some y → tget c.slots (slotOf op.src) = some q → q.bad = false →
      q.data.length = op.m * op.n → opRow s i x 0 (4 * op.m) = some xs → opRow s i y 0 (4 * op.n) = some ys →
      (op.ovw = false ∨ op.row ≠ 0 →
        ∃ e, tget c.slots (slotOf op.dst) = some e ∧ e.bad = false ∧ e.data = old ∧ old.length = op.m * op.n) →
      ∃ b' d, tget s'.blocks i = some b' ∧ MatDone b b' op rest ∧ s'.mem = s.mem ∧
        SlotSet s' ctx c (slotOf op.dst) (some ⟨i, .a40, op.m, op.n, d, false⟩) ∧ d.length = op.m * op.n ∧
        ∀ e, e < op.m * op.n → d.getD e 0 = if e / op.n < op.row then old.getD e 0 else (toA40 (fadd .rn
          (fmul (fmul (accVal q.kind (q.data.getD e 0)) (fdecode f32 (bytesNat ((xs.drop (4 * (e / op.n))).take 4)))).1
            (fdecode f32 (bytesNat ((ys.drop (4 * (e % op.n))).take 4)))).1
          (if op.ovw then .num false 0 0 else accVal .a40 (old.getD e 0))).1).1) ∧
    (∀ x t nd s1 bs, op.kind = .mcbl → op.x1 = some x → tget s.teams op.team = some t → t.block = i → tget s.nodes b.node = some nd →
      bookRead s ⟨t, b, c, nd⟩ op.team x = .ok s1 bs → ∃ b' c1 c', tget s'.blocks i = some b' ∧ MatDone b b' op rest ∧ s'.mem = s.mem ∧
        tget s1.ctxs ctx = some c1 ∧ tget s'.ctxs ctx = some c' ∧
        c' = { c1 with books := c'.books, badBooks := c1.badBooks.filter (· ≠ (op.params.getD 0 0).toNat % 16) } ∧
        ∀ r e, e < 256 → tgetD c'.books (r * 256 + e) 0 =
          if r = (op.params.getD 0 0).toNat % 16 then BitVec.ofNat 16 (numAt bs (2 * e) 2) else tgetD c.books (r * 256 + e) 0)

/-- R230, R233, R235, R238: MATRIX_EXECUTE finds an operation to execute; SLOT_ALLOCATE gives the queue head a free slot of the context and
its handle the slot's id; PLANE_LOAD_DONE fills the shadow plane. -/
def Sys2Proof.Spec.MatrixProgress : Prop :=
  (∀ s ctx c i b op rest, Next s ctx c i b op rest → ∃ s', exec (.matrixExecute ctx) s = .next s') ∧
  (∀ s i b c op rest num t, tget s.blocks i = some b → tget s.ctxs b.ctx = some c → b.matQ = op :: rest → op.dst = .alloc num →
    c.state = .running → tget s.teams op.team = some t → tget t.ia op.handle = some (.alloc num) →
    (∃ id, c.slotBase ≤ id ∧ id < c.slotBase + (if c.slot = .wide then 16 else 8) ∧ tget c.slots id = none) →
    ∃ s' id b' q, exec (.slotAllocate i) s = .next s' ∧ c.slotBase ≤ id ∧ id < c.slotBase + (if c.slot = .wide then 16 else 8) ∧
      tget c.slots id = none ∧ SlotSet s' b.ctx c id (some q) ∧ q.block = i ∧ tget s'.blocks i = some b' ∧
      b'.matQ.head? = some { op with dst := .slot id } ∧ b' = { b with matQ := b'.matQ, islots := b'.islots } ∧ s'.mem = s.mem ∧
      tget s'.teams op.team = some
        { t with a := tput t.a op.handle id, ia := tdel t.ia op.handle, badA := t.badA.filter (· ≠ op.handle) }) ∧
  (∀ s i b c op rest x rows, tget s.blocks i = some b → tget s.ctxs b.ctx = some c → b.matQ = op :: rest → op.loading = true →
    c.state = .running → op.x2 = some x → (∀ y ∈ rest, y.num ≠ op.num) → opRows s i x 0 op.n op.k = some rows → ∃ s' b' p, exec (.planeLoadDone i) s = .next s' ∧
    tget s'.blocks i = some b' ∧ MatDone b b' op rest ∧ b'.active = b.active ∧ b'.shadow = some p ∧ p.src = x ∧ p.n = op.n ∧
    p.k = op.k ∧ p.fmt = op.fb ∧ p.data = rows.flatten ∧ s'.mem = s.mem ∧ s'.ctxs = s.ctxs) ∧
  (∀ o s t b c nd h, h = o.h.toNat → Resident s t b c nd → (∃ num, tget t.ia h = some (.alloc num)) →
    exec (.mhndGet o) s = .next (putTeam s s.cur { t with wait := .handle }))

/-- R58, R230, R233, R235 to R238: what the matrix sequencer does with the queued operations. That MSCAC without ACC adds +0 (a -0
becomes +0), and that a plane keeps the codebook entries it was loaded with, is the model's reading (log 22, DEDUCED). -/
def Obligations.MatrixSequencer : Prop := Spec.MatrixExecution ∧ Spec.MatrixProgress

/-- R58, R59: an accumulation of integers that stays in the range of int40 is exact and does not saturate. -/
def Obligations.IntegerProductsAreExact : Prop :=
  ∀ (d : BitVec 40) (ps : List (FVal × FVal)), d.toInt.natAbs + (ps.map fun p => (asI p.1 * asI p.2).natAbs).sum < 2 ^ 39 →
    (dotStep .int40 d ps).1.toInt = d.toInt + (ps.map fun p => asI p.1 * asI p.2).sum ∧ (dotStep .int40 d ps).2 = false

namespace Sys2Proof.Spec

/-! ### Collectives (R239 to R243) -/

/-- R239: the COLL instructions with their op. -/
def collForm : Instr → Option (Nat × E64)
  | .collAllReduce o => some (0, o)
  | .collReduceScatter o => some (1, o)
  | .collAllGather o => some (2, o)
  | .collAllToAll o => some (3, o)
  | .collBroadcast o => some (4, o)
  | _ => none

/-- R239 step 3: a dense record of the format inside the entry's window. -/
structure InWindow (g : Group) (f : Nat) (r : TileRec) : Prop where
  format : r.format = f
  dense : r.vrows = r.rows ∧ r.vcols = r.cols ∧ r.pitch = rowBytes r ∧ r.swizzle = 0
  inside : g.base.toNat ≤ r.base.toNat ∧ r.base.toNat + r.rows * r.pitch ≤ g.base.toNat + g.bytes.toNat

/-- R239 step 4: the sizes fit the op. -/
def SizesFit (g : Group) (op root : Nat) (x y : TileRec) : Prop :=
  (op = 1 → x.rows * x.cols % g.size = 0 ∧ y.rows * y.cols = x.rows * x.cols / g.size) ∧
  (op = 2 → y.rows * y.cols = g.size * (x.rows * x.cols)) ∧
  (op = 3 → x.rows * x.cols = y.rows * y.cols ∧ x.rows * x.cols % g.size = 0) ∧
  (op = 4 → root < 1024 ∧ g.members.getLsbD root = true)

/-- R241, R242: the group entry of a contribution's member, in the context that issued it (as the contribution keeps it once the
launch has ended). -/
def MemberGroup (s : State) (d : Contribution) (g : Group) : Prop :=
  ∃ t b c n, ((tget s.teams d.team = some t ∧ tget s.blocks t.block = some b ∧ tget s.ctxs b.ctx = some c ∧
      tget s.nodes b.node = some n) ∨ (tget s.teams d.team = none ∧ d.kept = some (t, b, c, n))) ∧ tget c.groups d.entry = some g

/-- A valid entry of the group table. -/
def ValidEntry (c : Ctx) (e : Nat) (g : Group) : Prop := tget c.groups e = some g ∧ g.valid = true

end Sys2Proof.Spec

/-- R222, R223, R239, R241: COLL takes the entry's next sequence number and a number on the coll timeline and stands as its
member's contribution; an invalid entry raises 0x240, a record outside the window or of another format 0x243 (R239; the chapter's
table lists 0x144 for COLL too: log 17); on a device without collective cores it fails at once. In a provisional block it holds its team (R227). -/
def Sys2Proof.Spec.CollectiveIssue : Prop :=
  ∀ i op o s t b c n x y g e root, collForm i = some (op, o) → i.legal = true → Resident s t b c n →
    e = (kget t o.kp.toNat).toNat % 256 → root = (kget t (o.kp.toNat + 1)).toNat → HoldsTile t o.x1.toNat x →
    (1 ≤ op → op ≤ 3 → HoldsTile t o.x2.toNat y) →
    Uniforms t [] ([(o.kp.toNat, 1), (o.kq.toNat, 1)] ++ if op = 4 then [(o.kp.toNat + 1, 1)] else []) →
    (ValidEntry c e g → (op ≤ 1 → o.fa.toNat ∈ [0x00, 0x02, 0x03, 0x04, 0x08, 0x09]) → InWindow g o.fa.toNat x →
      (1 ≤ op → op ≤ 3 → InWindow g o.fa.toNat y ∧ FitsOwn b y) → FitsOwn b x → SizesFit g op root x y → TagFree b o → BarReady t b n o →
      (b.provisional = true → Holds s t i) ∧
      (b.provisional = false → (devOf s c.dev).collCores ≠ 0 → ∃ b' c' cb, exec i s = .next (putTeam { putBlock (putCtx s b.ctx c') t.block b' with
          colls := tput s.colls s.fresh cb, fresh := s.fresh + 1 } s.cur (next t 8)) ∧
        c' = { c with coll := { c.coll with issued := c.coll.issued + 1 }, groups := tput c.groups e { g with seq := g.seq + 1, late := false } } ∧
        TookTag b b' o ∧ b' = { b with tags := b'.tags, errlog := b'.errlog } ∧ (g.late = false → b'.errlog = b.errlog) ∧ cb.gid = g.gid ∧ cb.seq = g.seq ∧ cb.member = g.rank ∧
        cb.ctx = b.ctx ∧ cb.block = t.block ∧ cb.team = s.cur ∧ cb.entry = e ∧ cb.num = c.coll.issued + 1 ∧ cb.op = op ∧
        cb.red = sub o.m 4 2 ∧ cb.fmt = o.fa.toNat ∧ (op = 4 → cb.root = root) ∧ cb.src = x ∧ (1 ≤ op → op ≤ 3 → cb.dst = y) ∧
        cb.tag = (if o.fl.getLsbD 3 then some o.tb.toNat else none) ∧ Captured s t b n o cb.credit) ∧
      (b.provisional = false → (devOf s c.dev).collCores = 0 → c.state = .running → ∃ s' c', exec i s = .next s' ∧ tget s'.teams s.cur = some (next t 8) ∧
        tget s'.ctxs b.ctx = some c' ∧ c.coll.issued + 1 ∈ c'.coll.failed)) ∧
    (∀ entry, Trappable s t entry → (∀ g', ¬ValidEntry c e g') → Raises s t i entry 0x240 (BitVec.ofNat 32 e) t.pc) ∧
    (∀ entry, Trappable s t entry → ValidEntry c e g → 2 ≤ op → ¬InWindow g o.fa.toNat x →
      Raises s t i entry 0x243 (BitVec.ofNat 32 e) t.pc)

/-- R241, R242: the collectives of a sequence number go on only when every member has issued; members that disagree fail with
0x241; an abort before that fails everyone, and no member's sequence number stays at it (R254, R308). -/
def Sys2Proof.Spec.CollectiveSequence : Prop :=
  ∀ s gid seq k0 c0, tget s.colls k0 = some c0 → c0.gid = gid → c0.seq = seq →
    (∀ abort, ∃ s', exec (.collSequenceStart gid seq abort) s = .next s') ∧
    (∀ g, (∀ k d, (k, d) ∈ s.colls → d.gid = gid → d.seq = seq → MemberGroup s d g) →
      ((∃ r, r < 1024 ∧ g.members.getLsbD r = true ∧ ∀ k d, (k, d) ∈ s.colls → d.gid = gid → d.seq = seq → d.member ≠ r) →
        exec (.collSequenceStart gid seq false) s = .next s ∧
        ∃ s', exec (.collSequenceStart gid seq true) s = .next s' ∧ s'.mem = s.mem ∧
          (∀ k d, (k, d) ∈ s'.colls → ¬(d.gid = gid ∧ d.seq = seq)) ∧
          ∀ i c e h, tget s'.ctxs i = some c → tget c.groups e = some h → h.gid = gid → seq < h.seq)) ∧
    (∀ k1 c1, (∀ k d, (k, d) ∈ s.colls ∧ d.gid = gid ∧ d.seq = seq ↔ (k, d) = (k0, c0) ∨ (k, d) = (k1, c1)) → c0.member < c1.member →
      (∀ d g r, d = c0 ∨ d = c1 → MemberGroup s d g → g.members.getLsbD r = true →
        r = c0.member ∨ r = c1.member) → (∀ d, d = c0 ∨ d = c1 → ∃ g, MemberGroup s d g) →
      c0.op ≠ c1.op ∨ c0.red ≠ c1.red ∨ c0.fmt ≠ c1.fmt ∨ c0.root ≠ c1.root →
      ∃ s', exec (.collSequenceStart gid seq false) s = .next s' ∧ s'.mem = s.mem ∧
        ∀ k d, (k, d) ∈ s'.colls → ¬(d.gid = gid ∧ d.seq = seq))

/-- R240: the result of a collective at member j from the members' buffers, and a chunk that is written stands in memory. -/
def Sys2Proof.Spec.CollectiveResults : Prop :=
  (∀ red f root (bufs : List (List (Option Byte))) j,
    collResult 2 red f root bufs j = bufs.flatten ∧
    collResult 4 red f root bufs j = bufs.getD root [] ∧
    (∀ len, bufs.length ∣ len → elemBits f / 8 ∣ len → (∀ b ∈ bufs, b.length = len) → j < bufs.length → 0 < len →
      (∀ k, k < len → (collResult 3 red f root bufs j)[k]? =
        (bufs.getD (k / (len / bufs.length)) [])[j * (len / bufs.length) + k % (len / bufs.length)]?) ∧
      collResult 1 red f root bufs j =
        ((collResult 0 red f root bufs j).drop (j * (len / bufs.length))).take (len / bufs.length))) ∧
  (∀ f (a b : Nat), f = 8 → a < 256 → b < 256 →
    collResult 0 0 f 0 [[some (BitVec.ofNat 8 a)], [some (BitVec.ofNat 8 b)]] 0 =
      [some (BitVec.ofInt 8 (max (-128) (min 127 (asInt 8 true a + asInt 8 true b))))]) ∧
  (∀ s c j bs k used remote spad s', bs.length = 16 → collPiece s c (collDst c) (16 * j) true = .runs [(k, 16)] used remote spad →
    (∀ i, i < 16 → OwnLine s (k + i)) → collChunk s c j (bs.map some) = .ok s' true → readBytes s'.mem k 16 = bs ∧
      ∀ a, ¬(k ≤ a ∧ a < k + 16) → readByte s'.mem a = readByte s.mem a)

/-- R240, R241, R242: when a collective goes on, fails or aborts, and what it computes. -/
def Obligations.Collectives : Prop := Spec.CollectiveSequence ∧ Spec.CollectiveResults

/-- R243: GRPQ delivers the valid bit, rank and size, the sequence number, a word of the members or of the failures (selector 4 then
clears that word), the window's base or its bytes; an invalid entry gives 0 under selector 0 and raises 0x240 otherwise. -/
def Sys2Proof.Spec.GroupQuery : Prop :=
  ∀ o s t b c n e i sel, Resident s t b c n → Uniforms t [(o.kp.toNat, 2)] [(o.kq.toNat, 1)] → e = (kget t o.kq.toNat).toNat % 256 →
    i = (kget t o.kq.toNat).toNat / 256 % 16 → sel = sub o.m 1 3 → sel ≤ 6 →
    (∀ g, ValidEntry c e g → g.rank < 1024 → g.size < 65536 → ∃ s' t' x, exec (.grpq o) s = .next s' ∧
      tget s'.teams s.cur = some t' ∧ WrotePair t t' o.kp.toNat x ∧ s'.mem = s.mem ∧
      (sel = 0 → x / 2 ^ 31 % 2 = 1 ∧ x / 2 ^ 16 % 2 ^ 15 = g.rank ∧ x % 2 ^ 16 = g.size) ∧
      (sel = 1 → x % 2 ^ 64 = g.seq % 2 ^ 64) ∧
      (sel = 2 → ∀ j, x.testBit j = true ↔ j < 64 ∧ g.members.getLsbD (64 * i + j) = true) ∧
      (sel = 3 ∨ sel = 4 → ∀ j, x.testBit j = true ↔ j < 64 ∧ g.failure.getLsbD (64 * i + j) = true) ∧
      (sel = 5 → x = g.base.toNat) ∧ (sel = 6 → x = g.bytes.toNat) ∧
      (sel ≠ 4 → s' = putTeam s s.cur t') ∧
      (sel = 4 → ∃ c' f, tget s'.ctxs b.ctx = some c' ∧ c' = { c with groups := tput c.groups e { g with failure := f } } ∧
        ∀ j, f.getLsbD j = true ↔ g.failure.getLsbD j = true ∧ j / 64 ≠ i)) ∧
    ((∀ g, ¬ValidEntry c e g) → (sel = 0 → ∃ t', Gives s (.grpq o) t' ∧ WrotePair t t' o.kp.toNat 0) ∧
      (∀ entry, Trappable s t entry → sel ≠ 0 → Raises s t (.grpq o) entry 0x240 (BitVec.ofNat 32 e) t.pc))

/-- R239, R243: COLL and GRPQ. -/
def Obligations.CollectiveInstructions : Prop := Spec.CollectiveIssue ∧ Spec.GroupQuery

namespace Sys2Proof.Spec

/-! ### Launches, the dispatcher and contexts (R244 to R273, R281 to R284) -/

/-- R244: fields of the launch instructions. -/
def level (o : I64) : Nat := sub o.m 3 2

/-- R255: a counter unit of a device. -/
def unit (s : State) (dev i : Nat) : Option WorkUnit := tget (devOf s dev).units i

/-- R141: what an acquire at device scope leaves: no L1 line of the slot. -/
def AcquiredL1 (s s' : State) (b : Block) (c : Ctx) : Prop :=
  s'.mem = s.mem ∧ s'.blocks = s.blocks ∧ s'.nodes = s.nodes ∧ s'.devs = s.devs ∧ ∃ c', tget s'.ctxs b.ctx = some c' ∧
    c' = { c with l1 := c'.l1 } ∧ c'.l1 = []

/-- R247: the unit that CANCEL or CTR.rd names: given, of the level and of the owner. -/
structure NamesUnit (s : State) (n : Node) (lvl i : Nat) (u : WorkUnit) : Prop where
  given : i ≠ 0
  level : i / 2 ^ 62 % 4 = lvl
  owner : i / 2 ^ 57 % 32 = n.vf
  exists_ : unit s n.dev i = some u

/-- The slots of a core as they stand. -/
def OnCore (c : Ctx) (dev die core : Nat) : Prop :=
  c.dev = dev ∧ c.die = die ∧ c.core = core ∧ c.state ≠ .saved ∧ c.state ≠ .left

/-- A core by its number in the pod: device × 256 + die × 128 + core. -/
def AtCore (c : Ctx) (core : Nat) : Prop := c.dev * 256 + c.die * 128 + c.core = core

/-- Every context stands on a die and a core that exist. -/
def CoresExist (s : State) : Prop := ∀ x ∈ s.ctxs, x.2.die < 2 ∧ x.2.core < 128

/-- R33: a node that is no cooperative launch. -/
def Single (s : State) (c : Ctx) : Prop := ∃ n, tget s.nodes c.node = some n ∧ n.desc.coop = false

/-- R262: a VF has work for a core, and on a core that is not its alone a quantum. -/
def TakesTurns (s : State) (dev die core v : Nat) : Prop :=
  hasWork s dev die core v = true ∧ (quantumOf s dev v ≠ 0 ∨ soleVf s dev die core v = true)

/-- R149, R281: every team is as it was, or its WAITA has been woken. -/
def TeamsWoken (s s' : State) : Prop :=
  ∀ i t, tget s.teams i = some t → tget s'.teams i = some t ∨ tget s'.teams i = some (wake t)

/-- R256: a descriptor's number of `n` bytes at `lo`; its teams, threads and shape words. -/
def threadsOf (bs : List Byte) : Nat := ((List.range (numAt bs 0x50 1)).map fun i => numAt bs (0x84 + 8 * i) 2).sum

/-- R92, R256, R257: the parts of a descriptor that stand for themselves: ranges, reserved bytes, teams, barriers and totals. -/
structure DescriptorFields (bs : List Byte) : Prop where
  kernel : numAt bs 0 8 % 2 = 0
  grid : 1 ≤ numAt bs 8 8 ∧ numAt bs 8 8 ≤ 2 ^ 32
  xyz : (numAt bs 0x10 4 = 0 ∧ numAt bs 0x14 4 = 0 ∧ numAt bs 0x18 4 = 0) ∨
    numAt bs 0x10 4 * numAt bs 0x14 4 * numAt bs 0x18 4 = numAt bs 8 8
  cluster : numAt bs 0x1C 1 ≤ 8 ∧ (numAt bs 0x1C 1 = 0 ∨ numAt bs 8 8 % numAt bs 0x1C 1 = 0)
  small : numAt bs 0x1D 1 < 32 ∧ numAt bs 0x1E 1 < 48 ∧ numAt bs 0x1F 1 % 16 ≤ 8 ∧ numAt bs 0x1F 1 / 16 ≤ 8
  notify : (numAt bs 0x1D 1).testBit 2 = true → numAt bs 0x30 8 % 64 = 0 ∧ numAt bs 0x38 8 % 64 = 0 ∧ numAt bs 0x40 2 < 1024
  gang : (numAt bs 0x1D 1).testBit 4 = true → numAt bs 0x43 1 ≤ 16
  handler : numAt bs 0x48 4 = 0xFFFFFFFF ∨ numAt bs 0x48 4 % 2 = 0
  block : numAt bs 0x4C 4 % 1024 = 0 ∧ 1 ≤ numAt bs 0x50 1 ∧ numAt bs 0x50 1 ≤ 8 ∧ numAt bs 0x51 1 ≤ 16
  private_ : numAt bs 0x64 4 % 4 = 0 ∧ numAt bs 0x64 4 ≤ 1048576
  reserved : numAt bs 0x68 16 = 0 ∧ numAt bs 0x220 32 = 0 ∧ numAt bs 0x240 4 = 0
  teams : ∀ i, i < 8 → (i < numAt bs 0x50 1 → numAt bs (0x80 + 8 * i) 4 % 2 = 0 ∧ 32 ≤ numAt bs (0x84 + 8 * i) 2 ∧
    numAt bs (0x84 + 8 * i) 2 ≤ 1024 ∧ numAt bs (0x84 + 8 * i) 2 % 32 = 0 ∧ numAt bs (0x86 + 8 * i) 1 ≤ 3 ∧
    numAt bs (0x87 + 8 * i) 1 ≤ 2) ∧ (numAt bs 0x50 1 ≤ i → numAt bs (0x80 + 8 * i) 8 = 0)
  bars : ∀ j, j < 16 → (numAt bs 0x52 2).testBit j = true → numAt bs (0x54 + j) 1 ≠ 0 ∧ numAt bs (0x54 + j) 1 < 2 ^ numAt bs 0x50 1
  totals : threadsOf bs ≤ 4096 ∧ numAt bs 0x4C 4 ≤ 655360
  narrow : (numAt bs 0x1D 1).testBit 1 = true ∨ (numAt bs 0x4C 4 ≤ 327680 ∧ numAt bs 0x51 1 ≤ 8 ∧ threadsOf bs ≤ 2048)

/-- R257: what a SHAPE descriptor needs besides. -/
structure ShapeFields (s : State) (bs : List Byte) : Prop where
  ranges : numAt bs 0x1D8 4 ≠ 0 ∧ numAt bs 0x1DC 1 ≤ 3 ∧ numAt bs 0x1DE 1 ≤ 4 ∧ numAt bs 0x1DF 1 = 0
  bounds : numAt bs 0x1C8 8 ≤ numAt bs 0x1D0 8
  grid : numAt bs 8 8 = (numAt bs 0x1D0 8 + numAt bs 0x1D8 4 - 1) / numAt bs 0x1D8 4
  plain : numAt bs 0x10 4 = 0 ∧ numAt bs 0x1C 1 = 0
  retract : ∀ i p, i < numAt bs 0x1DE 1 → p = BitVec.ofNat 64 (numAt bs (0x1E0 + 16 * i) 8) → isObject p = true ∧
    ∃ site x, homeOf s (ptrGoid p) = some (site, x) ∧ x.retract = true ∧
      numAt bs 0x1D0 8 * numAt bs (0x1E8 + 16 * i) 8 ≤ x.cap

/-- R257: a known unit of an owner. -/
def OwnUnit (s : State) (dev vf i : Nat) : Prop := i / 2 ^ 57 % 32 = vf ∧ ∃ u, unit s dev i = some u

/-- R256, R257: the VF firmware core accepts a descriptor. That a parent must be a known graph of the owner is the model's reading (log
34, DEDUCED), as is which addresses are mapped as code (log 10). -/
structure DescriptorOk (s : State) (dev vf : Nat) (bs : List Byte) : Prop where
  fields : DescriptorFields bs
  shape : (numAt bs 0x1D 1).testBit 3 = true → ShapeFields s bs
  code : codeMapped s dev vf (vf * 2 ^ 57 + (devOf s dev).serial % 2 ^ 57) (BitVec.ofNat 64 (numAt bs 0 8)) = true
  handler : numAt bs 0x48 4 ≠ 0xFFFFFFFF → codeMapped s dev vf (vf * 2 ^ 57 + (devOf s dev).serial % 2 ^ 57)
    (BitVec.ofNat 64 (numAt bs 0 8) + BitVec.ofNat 64 (numAt bs 0x48 4)) = true
  priority : vf = 16 ∨
    (numAt bs 0x1E 1 ≤ sub (tgetD (devOf s dev).vfsch vf 0x0A000A00#32) 6 6 ∧ numAt bs 0x1E 1 ≤ 40)
  parent : numAt bs 0x20 8 = 0 ∨ (numAt bs 0x20 8 / 2 ^ 62 % 4 = 1 ∧ OwnUnit s dev vf (numAt bs 0x20 8))
  edges : ∀ i, i < numAt bs 0x1F 1 % 16 → 1 ≤ numAt bs (0xC8 + 16 * i) 8 ∧ OwnUnit s dev vf (numAt bs (0xC0 + 16 * i) 8)
  operands : ∀ i, i < numAt bs 0x1F 1 / 16 → isObject (BitVec.ofNat 64 (numAt bs (0x140 + 16 * i) 8)) = true
  coop : (numAt bs 0x1D 1).testBit 0 = true → ∀ n, n.dev = dev → n.vf = vf → n.desc = parseDesc bs →
    numAt bs 8 8 ≤ emptyCapacity s n

/-- R258, R261: the ready pool holds 65,536 nodes, and a VF may hold its share of it; 16 is system software, which has no share. -/
def PoolFull (s : State) (dev vf : Nat) : Prop :=
  65536 ≤ (s.nodes.filter fun x => decide (x.2.dev = dev)).length ∨
  (vf = 16 ∧ 65536 ≤ (s.nodes.filter fun x => decide (x.2.dev = dev ∧ x.2.vf = vf)).length) ∨
  (vf ≠ 16 ∧ ((tgetD (devOf s dev).vfsch vf 0x0A000A00#32).getLsbD 31 = false ∨
    16 * sub (tgetD (devOf s dev).vfsch vf 0x0A000A00#32) 12 12 ≤
      (s.nodes.filter fun x => decide (x.2.dev = dev ∧ x.2.vf = vf)).length))

/-- R258: nodes are kept under device × 65,536 + entry. -/
def KeysAgree (s : State) : Prop := ∀ x ∈ s.nodes, x.1 = x.2.dev * 65536 + x.2.entry ∧ x.2.entry < 65536

/-- R269: the prediction of a node from the true shapes that the predictor holds, newest first, and the hint word. -/
def predicted (d : NodeDesc) (hist : List Nat) (hint : Nat) : Nat :=
  let last := hist.headD d.cap
  if d.coop = true then d.cap
  else max d.floor (min d.cap
    (if d.mode = 0 then last
     else if d.mode = 1 then (if hist = [] then d.cap else hist.foldr max 0)
     else if d.mode = 2 then (if hist = [] then d.cap else last + (last * d.margin + 7) / 8)
     else if hint = 2 ^ 64 - 1 then last else hint))

/-- R269: the true shapes kept for the cell of a node. -/
def history (s : State) (n : Node) : List Nat :=
  match tget (tgetD (devOf s n.dev).predictor n.vf []) n.desc.cell.toNat with
  | some x => x.shapes.map fun (y : Dbl) => y.toNat
  | none => []

/-- R136: an address that an instruction of a provisional block may not write yet: outside the own scratchpad and outside what a
retractable object of the node holds beyond extent(F); an atomic may not write there either. -/
def Outside (n : Node) (store : Bool) (ea : Dbl) : Prop :=
  (ea.getLsbD 63 = false ∧ (sub ea 60 3 ≠ 2 ∨ sub ea 57 3 ≠ 0)) ∨
  (ea.getLsbD 63 = true ∧ ¬(store = true ∧ ∃ r ∈ n.desc.retract, ptrGoid r.1 = ptrGoid ea ∧ n.desc.floor * r.2 ≤ sub ea 0 34))

/-- R272: a provisional block that runs, with its teams. -/
structure RunsProvisionally (s : State) (key i : Nat) (b : Block) : Prop where
  placed : tget s.blocks i = some b
  node : b.node = key
  context : ∃ c, tget s.ctxs b.ctx = some c
  provisional : b.provisional = true
  running : b.left = false ∧ b.exited = false ∧ b.squashed = false
  teams : b.teams ≠ [] ∧ b.teams.Nodup ∧ ∀ k ∈ b.teams, ∃ t, tget s.teams k = some t ∧ t.block = i ∧ t.ended = false ∧
    (t.held ≠ none → t.handler = false ∧ t.wait = .hold)

/-- R150, R281: the WAITAs of a context that has stopped have been woken. -/
def StopWoke (s s' : State) (c : Ctx) : Prop := ∀ x ∈ ctxTeams s c, tget s'.teams x.1 = some (wake x.2)

end Sys2Proof.Spec

/-- R245, R269: SHP.rd reads P; SHP.wait reads T once it is known and blocks before; SHP.pub stores the shape and refuses the
unpublished one. -/
def Sys2Proof.Spec.ShapeInstructions : Prop :=
  ∀ o s t b c n, Resident s t b c n →
    (Uniforms t [(kdI o, 2)] [] → ∃ t', Gives s (.shpRd o) t' ∧ WrotePair t t' (kdI o) n.p.toNat) ∧
    (∀ x, Uniforms t [(kdI o, 2)] [] → n.t = some x ∨ (n.t = none ∧ n.desc.shape = false ∧ x = n.p) →
      ∃ s' t', exec (.shpWait o) s = .next s' ∧ tget s'.teams s.cur = some t' ∧ WrotePair t t' (kdI o) x.toNat ∧
        AcquiredL1 s s' b c) ∧
    (Uniforms t [(kdI o, 2)] [] → n.t = none → n.desc.shape = true →
      exec (.shpWait o) s = .next (putTeam s s.cur { t with wait := .shape })) ∧
    (∀ p, Uniforms t [] [(kdI o, 2), (kaI o, 2)] → p = advance (kgetD t (kaI o)) (if o.imm.getLsbD 0 then 8 else 0) →
      b.provisional = false → OwnBytes b p 8 →
      (o.imm.getLsbD 0 = true ∨ kgetD t (kdI o) ≠ 0xFFFFFFFFFFFFFFFF →
        Whole s t → (∀ x ∈ s.reqs, x.2.team ≠ s.cur) → c.attached = false → c.out = 0 → (∀ x ∈ c.parked, x.count = 0) →
        tget s.errors (ownKey t p / 64) = none → ∃ s', exec (.shpPub o) s = .next s' ∧
          tget s'.teams s.cur = some (next t 8) ∧ readNat s'.mem (ownKey t p) 8 = (kgetD t (kdI o)).toNat ∧
          ∀ k, ¬(ownKey t p ≤ k ∧ k < ownKey t p + 8) → readByte s'.mem k = readByte s.mem k) ∧
      (∀ entry, Trappable s t entry → o.imm.getLsbD 0 = false → kgetD t (kdI o) = 0xFFFFFFFFFFFFFFFF →
        Raises s t (.shpPub o) entry 0x203 0 t.pc))

/-- R244, R247, R248: CTR.rd reads a unit's counter; SLEEP blocks until its time and then goes on. -/
def Sys2Proof.Spec.CounterAndSleep : Prop :=
  ∀ o s t b c n, Resident s t b c n →
    (∀ i u, Uniforms t [(kdI o, 2)] [(kaI o, 2)] → i = (kgetD t (kaI o)).toNat → NamesUnit s n (level o) i u →
      ∃ s' t', exec (.ctrRd o) s = .next s' ∧ tget s'.teams s.cur = some t' ∧ WrotePair t t' (kdI o) u.counter ∧
        AcquiredL1 s s' b c) ∧
    (∀ i entry, i = (kgetD t (kaI o)).toNat → Trappable s t entry → i ≠ 0 → unit s n.dev i = none →
      (Uniforms t [(kdI o, 2)] [(kaI o, 2)] → Raises s t (.ctrRd o) entry 0x389 0 t.pc) ∧
      (Uniforms t [] [(kaI o, 2)] → b.provisional = false → Raises s t (.cancel o) entry 0x389 0 t.pc)) ∧
    (Uniforms t [] [(kaI o, 1)] →
      ((∀ u, t.wait ≠ .sleep u) → exec (.sleep o) s = .next (putTeam s s.cur
        { t with wait := .sleep (clock s c.dev + ((kget t (kaI o)).toNat + o.imm.toNat) % 2 ^ 32) })) ∧
      (∀ u, t.wait = .sleep u → u ≤ clock s c.dev → Gives s (.sleep o) (next t 8)))

/-- R136, R227, R271: in a provisional block stores, atomics, ST.mc, arrivals at grid barriers, the object instructions that change
something, SHP.pub, LAUNCH, CANCEL and SYS hold their team before any effect; a precise cause is kept with the team, which waits, whether
or not the kernel has a handler. -/
def Sys2Proof.Spec.ProvisionalHolds : Prop :=
  ∀ s t b c n, Resident s t b c n → b.provisional = true →
    (∀ i a l, storeForm i = some a → a.code < 5 → On t a.neg a.g l → Outside n true (a.ea t l) →
      Operands t [] (addressRegs a.kbase a.va a.vi ++ [(a.reg, wordsOf a.code)]) (addressUni a.kbase a.va) → Holds s t i) ∧
    (∀ i op o l, atomForm i = some (op, o) → i.legal = true → On t o.n o.g l →
      Outside n false (eaOf t (o.m.getLsbD 6) o.va.toNat 0 o.imm.toInt l) →
      Operands t [(o.vd.toNat, atomWords o)] ((if o.m.getLsbD 6 then [] else [(o.va.toNat, 2)]) ++
        [(o.vi.toNat, operandWords op o)]) (if o.m.getLsbD 6 then [(sub o.va 0 6, 2)] else []) → Holds s t i) ∧
    (∀ i op o l, redForm i = some (op, o) → i.legal = true → On t o.n o.g l →
      Outside n false (eaOf t (o.m.getLsbD 6) o.va.toNat o.vi.toNat o.imm.toInt l) →
      Operands t [] (addressRegs (o.m.getLsbD 6) o.va.toNat o.vi.toNat ++ [(o.vd.toNat, atomWords o)])
        (addressUni (o.m.getLsbD 6) o.va.toNat) → Holds s t i) ∧
    (∀ o, sub o.m 1 3 < 4 → Outside n true (kAddress t o) →
      Uniforms t [] [(sub o.va 0 6, 2), (sub o.vd 0 6, wordsOf (sub o.m 1 3))] → Holds s t (.kst o)) ∧
    (∀ o l, sub o.m 2 3 < 5 → On t o.n o.g l → t.served = 0 → Operands t [] [(o.va.toNat, 2), (o.vd.toNat, wordsOf (sub o.m 2 3))] [] →
      Holds s t (.stMc o)) ∧
    (∀ (o : A64) num r, num = sub o.vc 0 5 → Names t b n num r → 24 ≤ num → Holds s t (.barArv o) ∧
      (t.wait = .none → (barOf s r).overrun = false → Holds s t (.barSync o))) ∧
    (∀ o, (Uniforms t [(kdI o, 2)] [(kaI o, 4)] → Holds s t (.oalloc o)) ∧
      (Uniforms t [] [(kaI o, 2)] → Holds s t (.ofree o) ∧ Holds s t (.opin o) ∧ Holds s t (.ounpin o) ∧ Holds s t (.cancel o)) ∧
      (Uniforms t [(kdI o, 1)] [(kaI o, 4)] → Holds s t (.oext o)) ∧ (Uniforms t [] [(kaI o, 4)] → Holds s t (.otrim o)) ∧
      (Uniforms t [(kdI o, 2)] [(kaI o, 2)] → Holds s t (.ogrp o) ∧ (t.wait ≠ .sys → Holds s t (.sys o))) ∧
      (Uniforms t [] [(kdI o, 2), (kaI o, 2)] → Holds s t (.shpPub o)) ∧
      (Uniforms t [(kdI o, 1)] [(kaI o, 2)] → t.wait ≠ .launch → Holds s t (.launch o))) ∧
    (∀ num : BitVec 6, exec (.trap num) s =
      .next (putTeam s s.cur { t with held := some ⟨0x340 + num.toNat, 0, t.pc + 4⟩, wait := .hold }))

/-- R259, R265, R269, R270: a node with SHAPE is dispatched on the true shape when the cell is published, on the prediction otherwise
(its blocks from b(F) on are provisional), and fails with 0x200 or 0x204, which its completion record tells, when the true shape lies
outside F to C. -/
def Sys2Proof.Spec.PredictedDispatch : Prop :=
  ∀ s dev key n T, dispUp s dev = true → nextNode s dev = some (key, n) → n.desc.shape = true → n.desc.retract = [] →
    n.failing = false → n.cancel = none → T = cellWord s n 0 →
    (∀ P, T = 2 ^ 64 - 1 → P = predicted n.desc (history s n) (cellWord s n 8) → n.next < blocksFor n.desc P →
      ∃ s' size, exec (.dispatch dev) s = .next s' ∧ s'.mem = s.mem ∧ tget s'.nodes key = some { n with
        state := .dispatching, code := s.mem, codeSize := size, p := BitVec.ofNat 64 P, t := none, speculating := true
        blocks := blocksFor n.desc P }) ∧
    (T ≠ 2 ^ 64 - 1 → n.desc.floor ≤ T → T ≤ n.desc.cap → n.next < blocksFor n.desc T →
      ∃ s' size, exec (.dispatch dev) s = .next s' ∧ s'.mem = s.mem ∧ tget s'.nodes key = some { n with
        state := .dispatching, code := s.mem, codeSize := size, p := BitVec.ofNat 64 T, t := some (BitVec.ofNat 64 T)
        speculating := false, blocks := blocksFor n.desc T }) ∧
    (T ≠ 2 ^ 64 - 1 → T < n.desc.floor ∨ n.desc.cap < T → (∀ x ∈ s.blocks, x.2.node ≠ key) → (∀ x ∈ s.ctxs, x.2.node ≠ key) →
      n.left = n.next → n.cause = none → (∃ u, unit s n.dev n.ident = some u) → (∀ x ∈ s.nodes, x.2.state ≠ .waiting) →
      ∃ s' u, exec (.dispatch dev) s = .next s' ∧ tget s'.nodes key = none ∧ unit s' n.dev n.ident = some u ∧ u.failed = true ∧
        (n.desc.notify = true → n.desc.record + 64 ≤ n.desc.notifyAt ∨ n.desc.notifyAt + 64 ≤ n.desc.record →
          readNat s'.mem (hostKey (n.desc.record + 10)) 2 = if T < n.desc.floor then 0x200 else 0x204))

/-- R271, R272, R274: when the true shape T of F to C is read, a provisional block below b(T) is confirmed and the causes its teams held
are delivered; one from b(T) on is squashed with its teams, held causes and engine work; memory stays as it is. A shape outside F to C
fails the node and ends every team. -/
def Sys2Proof.Spec.Resolution : Prop :=
  ∀ s key n T i b j c off, tget s.nodes key = some n → n.speculating = true → n.failing = false → n.cancel = none →
    n.state = .running ∨ n.state = .provisional → T = cellWord s n 0 → T ≠ 2 ^ 64 - 1 → n.desc.retract = [] →
    n.desc.handler = some off → i ≠ j → twf s.blocks = true → twf s.teams = true → RunsProvisionally s key i b →
    RunsProvisionally s key j c → (∀ x ∈ s.blocks, x.2.node = key → x = (i, b) ∨ x = (j, c)) →
    (n.desc.floor ≤ T → T ≤ n.desc.cap → b.ordinal < blocksFor n.desc T → blocksFor n.desc T ≤ c.ordinal →
      ∃ s' n' b' c', exec (.shapeResolve key) s = .next s' ∧ s'.mem = s.mem ∧ tget s'.nodes key = some n' ∧
        n'.t = some (BitVec.ofNat 64 T) ∧ n'.speculating = false ∧ n'.blocks = blocksFor n.desc T ∧ n'.state = .running ∧
        n'.left = n.left + 1 ∧ tget s'.blocks i = some b' ∧ b'.provisional = false ∧ b'.exited = false ∧ b'.left = false ∧
        (∀ k ∈ b.teams, ∀ t h, tget s.teams k = some t → t.held = some h → tget s'.teams k =
          some (trapped { t with held := none } (n.desc.kernel + BitVec.ofNat 64 off) h.cause h.info h.pc)) ∧
        tget s'.blocks j = some c' ∧ c'.squashed = true ∧ c'.left = true ∧ c'.copyQ = [] ∧ c'.gathQ = [] ∧ c'.matQ = [] ∧
        ∀ k ∈ c.teams, ∃ t, tget s'.teams k = some t ∧ t.ended = true ∧ t.held = none) ∧
    (n.cause = none → n.left < n.next → T < n.desc.floor ∨ n.desc.cap < T →
      ∃ s' n' ordinal pc, exec (.shapeResolve key) s = .next s' ∧ tget s'.nodes key = some n' ∧ n'.failing = true ∧
        n'.cause = some (if T < n.desc.floor then 0x200 else 0x204, ordinal, pc) ∧
        ∀ k ∈ b.teams ++ c.teams, ∃ t, tget s'.teams k = some t ∧ t.ended = true ∧ t.held = none)

/-- R136, R227, R244, R245, R247, R248, R265, R269 to R272: the shape instructions, CTR.rd and SLEEP, and launches on predicted shapes
with their provisional blocks. -/
def Obligations.ShapesCountersAndSleep : Prop :=
  Spec.ShapeInstructions ∧ Spec.CounterAndSleep ∧ Spec.ProvisionalHolds ∧ Spec.PredictedDispatch ∧ Spec.Resolution

/-- R256 to R258, R261: what the VF firmware core makes of a descriptor: it refuses it, it finds the pool or the VF's share full, or it
makes a node under a free entry of the pool with the next launch identifier, ready when its edges hold and waiting otherwise. -/
def Sys2Proof.Spec.NodeCreation : Prop :=
  ∀ s dev vf bs, KeysAgree s → twf s.nodes = true → vf ≤ 16 →
    (createNode s dev vf bs = .refused ↔ ¬DescriptorOk s dev vf bs) ∧
    (DescriptorOk s dev vf bs → PoolFull s dev vf → createNode s dev vf bs = .full) ∧
    (DescriptorOk s dev vf bs → ¬PoolFull s dev vf → ∃ s' e ident, createNode s dev vf bs = .made s' e ident ∧ e < 65536 ∧
      tget s.nodes (dev * 65536 + e) = none ∧ ident = vf * 2 ^ 57 + (devOf s dev).serial % 2 ^ 57 ∧
      (devOf s' dev).serial = (devOf s dev).serial + 1 ∧
      ((∀ x ∈ s.nodes, x.2.state ≠ .waiting) → numAt bs 0x1F 1 / 16 = 0 → unit s dev ident = none →
        (∀ i u, i < numAt bs 0x1F 1 % 16 → unit s dev (numAt bs (0xC0 + 16 * i) 8) = some u → u.failed = false) →
        s'.mem = s.mem ∧ ∃ n u, tget s'.nodes (dev * 65536 + e) = some n ∧ n.desc = parseDesc bs ∧ n.dev = dev ∧ n.vf = vf ∧
          n.entry = e ∧ n.ident = ident ∧ n.priority = numAt bs 0x1E 1 ∧ n.blocks = numAt bs 8 8 ∧ n.next = 0 ∧
          n.order = (devOf s dev).admitted ∧ (n.state = .ready ∨ n.state = .waiting) ∧
          (n.state = .ready ↔ ∀ i, i < numAt bs 0x1F 1 % 16 → ∃ u, unit s dev (numAt bs (0xC0 + 16 * i) 8) = some u ∧
            numAt bs (0xC8 + 16 * i) 8 ≤ u.counter) ∧
          unit s' dev ident = some u ∧ u.parent = numAt bs 0x20 8 ∧ u.vf = vf ∧ u.counter = 0 ∧ u.final = false))

/-- R246, R247, R266: LAUNCH posts the descriptor and blocks; then firmware's answer: the pool entry with the identifier written into
the descriptor, all ones when the pool is full, 0x388 for a descriptor that is refused. CANCEL marks the unit, and passes the waiting and
ready nodes under it straight to cancelled. That LAUNCH issues twice, its answer being taken at the second issue, and that the cause 0x380
+ level is recorded on the unit, is the model's reading (log 34, DEDUCED). -/
def Sys2Proof.Spec.LaunchAndCancelIssue : Prop :=
  (∀ o s t b c n s1 bytes keys, Resident s t b c n → b.provisional = false → Uniforms t [(kdI o, 1)] [(kaI o, 2)] →
    readBlock s ⟨t, b, c, n⟩ s.cur (kgetD t (kaI o)) 13 = .ok s1 bytes keys →
    (t.wait ≠ .launch → c.out = 0 → (∀ x ∈ c.parked, x.count = 0) →
      ∃ s', exec (.launch o) s = .next s' ∧ tget s'.teams s.cur = some { t with wait := .launch } ∧ s'.mem = s.mem) ∧
    (t.wait = .launch → fwUp s1 c.dev = true →
      (∀ s2 e ident, createNode s1 c.dev c.vf bytes = .made s2 e ident → (keys.drop 0x78).length ≥ 8 → keys.Nodup →
        (∀ k ∈ keys, OwnLine s2 k) →
        ∃ s' t', exec (.launch o) s = .next s' ∧ tget s'.teams s.cur = some t' ∧ WroteUniform t t' (kdI o) (BitVec.ofNat 32 e) ∧
        t' = { next t 8 with k := t'.k, badK := t'.badK } ∧
        (∀ j, j < 8 → readByte s'.mem (keys.getD (0x78 + j) 0) = BitVec.ofNat 8 (ident / 2 ^ (8 * j))) ∧
        (∀ k, k ∉ keys → readByte s'.mem k = readByte s2.mem k)) ∧
      (createNode s1 c.dev c.vf bytes = .full → ∃ s' t', exec (.launch o) s = .next s' ∧ tget s'.teams s.cur = some t' ∧
        WroteUniform t t' (kdI o) 0xFFFFFFFF ∧ t' = { next t 8 with k := t'.k, badK := t'.badK } ∧ s'.mem = s.mem) ∧
      (∀ entry, Trappable s t entry → createNode s1 c.dev c.vf bytes = .refused → ∃ s', exec (.launch o) s = .next s' ∧
        tget s'.teams s.cur = some (trapped t entry 0x388 0 t.pc) ∧ s'.mem = s.mem))) ∧
  (∀ o s t b c n i u, Resident s t b c n → b.provisional = false → Uniforms t [] [(kaI o, 2)] → i = (kgetD t (kaI o)).toNat →
    NamesUnit s n (level o) i u → u.final = false → (∀ x ∈ s.nodes, x.2.state ≠ .waiting) →
    (∀ x ∈ s.nodes, x.2.dev = n.dev → unitUnder 4 s n.dev x.2.ident i = false) →
    ∃ s' u', exec (.cancel o) s = .next s' ∧ tget s'.teams s.cur = some (next t 8) ∧ s'.mem = s.mem ∧ unit s' n.dev i = some u' ∧
      u'.cancelled = true ∧ u'.failed = true ∧ u'.cause = some (0x380 + level o)) ∧
  (∀ o s t b c n i u, Resident s t b c n → b.provisional = false → Uniforms t [] [(kaI o, 2)] → i = (kgetD t (kaI o)).toNat →
    NamesUnit s n (level o) i u → u.final = true → Gives s (.cancel o) (next t 8)) ∧
  (∀ o s t b c n i u key m, Resident s t b c n → b.provisional = false → Uniforms t [] [(kaI o, 2)] → i = (kgetD t (kaI o)).toNat →
    NamesUnit s n (level o) i u → u.final = false → key ≠ b.node → twf s.nodes = true → tget s.nodes key = some m →
    m.state = .waiting ∨ m.state = .ready → m.dev = n.dev → unitUnder 4 s n.dev m.ident i = true → m.byEdge = false → m.mcfail = false →
    fwUp s n.dev = true → m.desc.notify = true → m.desc.record + 64 ≤ m.desc.notifyAt ∨ m.desc.notifyAt + 64 ≤ m.desc.record →
    (∀ x ∈ s.nodes, x.1 ≠ key → x.2.desc.notify = false) → ∃ s', exec (.cancel o) s = .next s' ∧ tget s'.nodes key = none ∧
      readNat s'.mem (hostKey (m.desc.record + 8)) 2 = 3)

/-- R246, R247, R256 to R258, R261, R266: LAUNCH and CANCEL, and the node that a descriptor makes. -/
def Obligations.LaunchAndCancel : Prop := Spec.LaunchAndCancelIssue ∧ Spec.NodeCreation

/-- R258, R260, R261: the dispatcher takes the first of the order of R260 among the ready nodes it can admit (that a node it has no room
for does not keep it from the next is the model's reading, log 34); a node that has been ready longer than the limit of its priority rises
by one. -/
def Sys2Proof.Spec.DispatchOrder : Prop :=
  (∀ s dev key n, nextNode s dev = some (key, n) →
    (key, n) ∈ s.nodes ∧ n.state = .ready ∧ n.dev = dev ∧ ∀ m ∈ s.nodes, m.2.dev = dev → admissible s m = true → before m.2 n = false) ∧
  (∀ s dev key n, dispUp s dev = true → nextNode s dev = some (key, n) → n.desc.shape = false → ∃ size,
    exec (.dispatch dev) s = .next (putNode s key { n with state := .dispatching, code := s.mem, codeSize := size })) ∧
  (∀ s key n age, tget s.nodes key = some n → n.state = .ready → n.priority < 40 →
    age = (tgetD (devOf s n.dev).age n.priority 1000) → age ≠ 0 →
    (700 * age < clock s n.dev - n.waitedAt → exec (.nodeAging key) s =
      .next (putNode s key { n with priority := n.priority + 1, waitedAt := clock s n.dev })) ∧
    (clock s n.dev - n.waitedAt ≤ 700 * age → exec (.nodeAging key) s = .next s))

/-- R26, R51, R253, R256, R263: a block is placed where R263 ranks best, with a context and fresh teams of its own; it starts when its
scratchpad is filled; once exited and drained it leaves, and its slots return. That the nodes whose blocks are being placed come in the
order of R260, and that an event says which of equal places is taken, is log 34; that a context whose private bytes find no room waits is
log 24: the model's choices. -/
def Sys2Proof.Spec.BlocksComeAndGo : Prop :=
  (∀ s key n die core slot r, tget s.nodes key = some n → n.state = .dispatching → n.failing = false → n.cancel = none →
    n.next < n.blocks → die = n.die → die < 2 → core < 128 → placedFirst s key n = false → n.desc.cluster = 0 →
    placeSet s key n die core slot = some (r, [(core, none)]) → bestRank s key n die = some r →
    privateBytes n = 0 ∨ Config.privateRoom s.stamp = true →
    ∃ s' id ctx b c, exec (.blockPlace key die core slot) s = .next s' ∧ tget s'.nodes key = some { n with next := n.next + 1 } ∧
      tget s'.blocks id = some b ∧ tget s'.ctxs ctx = some c ∧ b.ctx = ctx ∧ b.node = key ∧ b.ordinal = n.next ∧
      b.spad = n.desc.spad ∧ b.barMask = n.desc.barMask ∧ b.quota = n.desc.acc ∧ b.filled = false ∧
      b.provisional = (n.speculating && decide (blocksFor n.desc n.desc.floor ≤ n.next)) ∧
      b.teams.length = n.desc.teams.length ∧ c.node = key ∧ c.vf = n.vf ∧ c.dev = n.dev ∧ c.die = die ∧ c.core = core ∧ c.slot = slot ∧
      c.blocks = [id] ∧ c.slots = [] ∧ c.l1 = [] ∧ c.out = 0 ∧ (privateBytes n = 0 → s'.mem = s.mem) ∧
      ∀ i td, n.desc.teams[i]? = some td → ∃ tm, tget s'.teams (b.teams.getD i 0) = some tm ∧ tm.block = id ∧ tm.num = i ∧
        tm.size = td.size ∧ tm.role = td.role ∧ tm.budget = td.budget ∧ tm.pc = n.desc.kernel + BitVec.ofNat 64 td.entry ∧
        (∀ l, l < 1024 → (tm.mask.getLsbD l = true ↔ l < td.size)) ∧ (∀ l k, vget tm l k = 0) ∧
        (∀ l p, p ≠ 0 → pget tm l p = false) ∧ tm.frames = [] ∧ tm.calls = [] ∧ tm.x = [] ∧ tm.a = []) ∧
  (∀ s id b n, tget s.blocks id = some b → tget s.nodes b.node = some n → b.filled = false → b.left = false → b.exited = false →
    exec (.scratchpadFillDone id) s = .next (putNode (putBlock s id { b with filled := true }) b.node
      { n with started := n.started + 1, state := if n.state = .dispatching ∧ b.ordinal = 0 then
        (if n.speculating = true then .provisional else .running) else n.state })) ∧
  (∀ s id b c n, tget s.blocks id = some b → tget s.ctxs b.ctx = some c → tget s.nodes b.node = some n → b.exited = true →
    b.left = false → b.copyQ = [] → b.gathQ = [] → b.matQ = [] → n.failing = false →
    n.cancel = none → n.next < n.blocks → ∃ s' c', exec (.blockLeave id) s = .next s' ∧ s'.mem = s.mem ∧
      tget s'.blocks id = some { b with left := true, islots := [] } ∧ tget s'.nodes b.node = some { n with left := n.left + 1 } ∧
      tget s'.ctxs b.ctx = some c' ∧ ∀ k x, (k, x) ∈ c'.slots → x.block ≠ id)

/-- R265, R267, R269, R272: a resolved shape is kept; a gang reserves slots for its parts and commits once each has all of its own, and
gives them up when its time is over (that it tries again after a quantum of its VF is the model's choice, log 44); a notification window posts its one message when it has run. -/
def Sys2Proof.Spec.ShapesGangsAndWindows : Prop :=
  (∀ s key n T, tget s.nodes key = some n → n.speculating = true → n.failing = false → n.cancel = none →
    T = cellWord s n 0 → T ≠ 2 ^ 64 - 1 → n.desc.floor ≤ T → T ≤ n.desc.cap → T ≤ n.p.toNat → n.desc.retract = [] →
    (∀ x ∈ s.blocks, x.2.node ≠ key) → n.next < blocksFor n.desc T → ∃ s', exec (.shapeResolve key) s = .next s' ∧ s'.mem = s.mem ∧
    tget s'.nodes key = some { n with
      t := some (BitVec.ofNat 64 T), speculating := false, blocks := blocksFor n.desc T
      state := if n.state = .provisional then .running else n.state }) ∧
  (∀ s gang parts, tget s.gangs gang = none →
    exec (.gangRegistration gang parts) s = .next { s with gangs := tput s.gangs gang { parts := parts } }) ∧
  (∀ s gang g key n now, tget s.gangs gang = some g → g.nodes = [key] → g.parts = [(n.dev, n.desc.part)] → tget s.nodes key = some n →
    n.desc.gang = true → n.desc.gangId = gang → n.state = .ready → g.reserved = false → n.reserved = false → now = clock s (key / 65536) →
    (now < g.retry ∨ (∃ limit, g.until_ = some limit ∧ limit ≤ now) → exec (.gangReserve gang) s = .next s) ∧
    (g.retry ≤ now → (∀ limit, g.until_ = some limit → now < limit) → ∃ s' n' g' rs, exec (.gangReserve gang) s = .next s' ∧ tget s'.nodes key = some n' ∧
      tget s'.gangs gang = some g' ∧ n' = { n with resv := n.resv ++ rs, reserved := n'.reserved } ∧ rs.Nodup ∧
      (∀ r ∈ rs, r ∉ n.resv ∧ mayRun s n r.1 (r.2.1 / 8) = true ∧ slotOpen s n.dev key r.1 r.2.1 r.2.2 = true) ∧
      (n'.reserved = true ↔ slotsNeeded n ≤ (n.resv ++ rs).length) ∧
      g' = { g with reserved := n'.reserved, until_ := g'.until_ } ∧ (n'.reserved = true → g'.until_ = none) ∧
      (n'.reserved = false → g'.until_ = some (g.until_.getD (now + 700 * (devOf s (key / 65536)).reservation)))) ∧
    (∀ limit, g.until_ = some limit →
      (now < limit → exec (.gangReserveTimeout gang) s = .next s) ∧
      (limit ≤ now → ∃ g', g' = { g with until_ := none, retry := now + 700000 * quantumOf s (key / 65536) n.vf } ∧
        exec (.gangReserveTimeout gang) s =
          .next (putNode { s with gangs := tput s.gangs gang g' } key { n with resv := [] })))) ∧
  (∀ s dev timer x arm, tget (devOf s dev).timers timer = some x → arm = readNat s.mem (hostKey (x.desc + 8)) 8 →
    (clock s dev < x.due → exec (.notifyWindowExpiry dev timer) s = .next s) ∧
    (x.due ≤ clock s dev → ∃ s', exec (.notifyWindowExpiry dev timer) s = .next s' ∧
      (devOf s' dev).timers = tdel (devOf s dev).timers timer ∧
      (arm % 4 = 1 → readNat s'.mem (hostKey (x.desc + 8)) 8 = arm - 1 ∧ (devOf s' dev).msix = (devOf s dev).msix ++
        [(x.vf, readNat s.mem (hostKey (x.desc + 16)) 2 % 64)]) ∧
      (arm % 4 ≠ 1 → s'.mem = s.mem ∧ (devOf s' dev).msix = (devOf s dev).msix)))

/-- R26, R51, R253, R256, R258, R260, R263, R265, R267, R272: the dispatcher; what it chooses beyond the rules is in logs 24, 34 and 44. -/
def Obligations.Dispatcher : Prop := Spec.DispatchOrder ∧ Spec.BlocksComeAndGo ∧ Spec.ShapesGangsAndWindows

/-- R29, R262, R281: the turn of a core passes to the next VF that takes turns there; a core switches from a pre-empted context to the
other slot, and the waits on an address of the stopped one end. -/
def Sys2Proof.Spec.TurnsAndSwitches : Prop :=
  (∀ s core v i turn, turn = holderOf s (core / 256) (core / 128 % 2) (core % 128) → v = (turn + 1 + i) % 17 → i < 17 →
    TakesTurns s (core / 256) (core / 128 % 2) (core % 128) v →
    (∀ j, j < i → ¬TakesTurns s (core / 256) (core / 128 % 2) (core % 128) ((turn + 1 + j) % 17)) →
    (∃ x ∈ s.ctxs, AtCore x.2 core ∧ x.2.state = .running) → (∀ x ∈ s.ctxs, AtCore x.2 core → Single s x.2) →
    (coreOf s core).since + 700000 * quantumOf s (core / 256) turn ≤ clock s (core / 256) →
    exec (.quantumEnd core) s = .next { s with cores := tput s.cores core ⟨v, clock s (core / 256)⟩ }) ∧
  (∀ s core, clock s (core / 256) < (coreOf s core).since +
      700000 * quantumOf s (core / 256) (holderOf s (core / 256) (core / 128 % 2) (core % 128)) →
    exec (.quantumEnd core) s = .next s) ∧
  (∀ s core x y cx cy, tget s.ctxs x = some cx → tget s.ctxs y = some cy → x ≠ y → twf s.ctxs = true → CoresExist s →
    (∀ z ∈ s.ctxs, OnCore z.2 (core / 256) (core / 128 % 2) (core % 128) ↔ z = (x, cx) ∨ z = (y, cy)) → cx.state = .running →
    cy.state = .ready → preempted s cx = true → preempted s cy = false → onGated s cy = false → Single s cx → Single s cy →
    ∃ s', exec (.slotSwitch core) s = .next s' ∧ tget s'.ctxs x = some { cx with state := .ready, since := s.now } ∧
      tget s'.ctxs y = some { cy with state := .running } ∧ s'.mem = s.mem ∧ TeamsWoken s s' ∧ StopWoke s s' cx)

/-- R30, R168, R231, R262, R282 to R284: a pre-empted context streams out when no slot of its core holds the work to run; its image
keeps its key slot, and not its planes, and is written to the owner's memory; it streams in to an open slot, and the accesses that stalled
issue again. That the bytes of an image hold no promised value is log 38 (DESIGN CHOICE), that a switch wakes the WAITAs of what stops log
2, and that a context on another die than before finds no remote line in its L2 log 16: the model's choices. -/
def Sys2Proof.Spec.StreamsOfContexts : Prop :=
  (∀ s id c, tget s.ctxs id = some c → c.state = .running → Single s c → preempted s c = true →
    (∀ x ∈ s.ctxs, OnCore x.2 c.dev c.die c.core → x = (id, c)) → ∃ s', exec (.streamOut id) s = .next s' ∧
      tget s'.ctxs id = some { c with state := .streamingOut, since := s.now } ∧ s'.mem = s.mem ∧ TeamsWoken s s' ∧
      StopWoke s s' c) ∧
  (∀ s id c, tget s.ctxs id = some c → c.state = .streamingOut → (∀ r ∈ s.reqs, r.2.ctx ≠ id) →
    (∀ i ∈ c.blocks, ∀ b, tget s.blocks i = some b → b.copyQ = [] ∧ b.gathQ = []) → c.out = 0 →
    ∃ s' i, exec (.streamOutComplete id) s = .next s' ∧ TeamsWoken s s' ∧ i.key = c.key ∧ i.die = c.die ∧
      (∀ k, (∀ slot, slot < 64 → ¬(slotKey c.dev slot i.area ≤ k ∧ k < slotKey c.dev slot (i.area + Config.imageBytes s.stamp))) →
        readByte s'.mem k = readByte s.mem k) ∧
      (∀ k ∈ c.blocks, tget s'.blocks k = (tget s.blocks k).map unloadPlanes) ∧
      tget s'.ctxs id = some { c with state := .saved, since := s.now, l1 := [], records := [], tlb := [], image := some i }) ∧
  (∀ s id c n die core slot, tget s.ctxs id = some c → tget s.nodes c.node = some n → c.state = .saved → die < 2 → core < 128 →
    (c.slot = .wide ↔ slot = .wide) → (∀ x ∈ s.ctxs, x.1 ≠ id → x.2.state ≠ .saved) → (∀ x ∈ s.ctxs, x.1 = id → x.2 = c) →
    c.key ∉ (devOf s c.dev).revoked → n.failing = false → n.cancel = none → n.desc.coop = false →
    (∀ x ∈ s.ctxs, ¬OnCore x.2 c.dev die core) → reservedFrom s c.dev c.node die core slot = false →
    mayRun s n die (core / 8) = true → n.desc.cluster = 0 → ∃ s', exec (.streamIn id die core slot true) s = .next s' ∧
      tget s'.ctxs id = some { c with state := .streamingIn, die := die, core := core, slot := slot } ∧
      (∀ x, x ≠ id → tget s'.ctxs x = tget s.ctxs x) ∧ s'.mem = s.mem ∧ s'.teams = s.teams ∧ s'.blocks = s.blocks) ∧
  (∀ s id c, tget s.ctxs id = some c → c.state = .streamingIn → c.heldEvents = [] →
    ∃ s' c', exec (.streamInComplete id) s = .next s' ∧ s'.mem = s.mem ∧ tget s'.ctxs id = some c' ∧
      (∀ x ∈ ctxTeams s c, (x.2.wait = .page → tget s'.teams x.1 = some { x.2 with wait := .queued }) ∧
        ∀ w at_ ws, x.2.wait = .waita w at_ ws → tget s'.teams x.1 = some { x.2 with wait := .waita true at_ ws }) ∧
      (∀ i, c.image = some i → i.die ≠ c.die → (siteOf s' (2 * c.dev + c.die)).l2 = []) ∧
      c' = { c with state := c'.state, since := s.now, image := none } ∧ (c'.state = .ready ∨ c'.state = .running))

/-- R149, R150, R248, R278: the events that end a wait, and the trap of a lane fault. -/
def Sys2Proof.Spec.WaitsThatEnd : Prop :=
  (∀ s id t b c n u, tget s.teams id = some t → tget s.blocks t.block = some b → tget s.ctxs b.ctx = some c →
    tget s.nodes b.node = some n → t.wait = .sleep u → u ≤ clock s c.dev → t.halt = none → t.stepping = false → c.state = .running →
    t.mask ≠ 0 → exec (.sleepWake id) s = .next (putTeam s id (next t 8))) ∧
  (∀ s id t b c n since watch now, tget s.teams id = some t → tget s.blocks t.block = some b → tget s.ctxs b.ctx = some c →
    tget s.nodes b.node = some n → t.wait = .waita false since watch → now = clock s c.dev →
    (since + 4096 ≤ now → (∃ x ∈ watch, x.mon = false) →
      ((∃ x ∈ watch, x.mon = false ∧ readNat s.mem x.key x.bytes ≠ x.value) →
        exec (.waitaRecheck id) s = .next (putTeam s id { t with wait := .waita true since watch })) ∧
      ((∀ x ∈ watch, x.mon = false → readNat s.mem x.key x.bytes = x.value) →
        exec (.waitaRecheck id) s = .next (putTeam s id { t with wait := .waita false now watch }))) ∧
    (now < since + 4096 ∨ (∀ x ∈ watch, x.mon = true) → exec (.waitaRecheck id) s = .next s) ∧
    exec (.spuriousWakeup id) s = .next (putTeam s id { t with wait := .waita true since watch })) ∧
  (∀ s t entry l, Trappable s t entry → t.lfnew.getLsbD l = true → l < t.size → (∀ j, j < l → t.lfnew.getLsbD j = false) →
    t.lfmode.getLsbD 0 = true → t.halt = none → t.wait = .none → t.swept = 0 → t.served = 0 →
    exec (.laneFaultTrap s.cur) s = .next (putTeam s s.cur
      { trapped t entry (tgetD t.lfcause l 0).toNat (BitVec.ofNat 32 l) t.pc with lfnew := 0 }))

/-- R29, R30, R149, R150, R168, R248, R262, R278, R281 to R284: turns, switches and streams of contexts, and the events that end a
wait. -/
def Obligations.ContextEvents : Prop := Spec.TurnsAndSwitches ∧ Spec.StreamsOfContexts ∧ Spec.WaitsThatEnd

namespace Sys2Proof.Spec

/-! ### The fabric (R186 to R188, R292 to R304, R311, R312) -/

/-- R184, R189: where an entry of a device's tables is kept: under the key slot its line was last written with. -/
def pteAt (s : State) (dev entry : Nat) : Nat := slotKey dev (Machine.slotOf s.mem dev entry) entry

/-- R184: a table entry of a device's memory. -/
def pte (s : State) (dev entry : Nat) : Nat := readNat s.mem (pteAt s dev entry) 8

/-- R184, R189: where the bytes of the page of an entry are kept. -/
def pageAt (s : State) (dev e : Nat) : Nat := physKey s dev (e / 2 ^ 56 % 64) (e / 4096 % 2 ^ 40 * 4096)

/-- A step rewrote a table entry, and every byte but its eight is as it was. -/
def PteNow (s s' : State) (dev entry e : Nat) : Prop :=
  pte s' dev entry = e ∧
  ∀ k, ¬(pteAt s dev entry ≤ k ∧ k < pteAt s dev entry + 8) → readByte s'.mem k = readByte s.mem k

/-- R186: every team of the device that waits for a page issues its access again. -/
def Reissued (s s' : State) (dev : Nat) : Prop :=
  ∀ id t b c, tget s.teams id = some t → tget s.blocks t.block = some b → tget s.ctxs b.ctx = some c → c.dev = dev →
    t.wait = .page → tget s'.teams id = some { t with wait := .queued }

/-- R292: one acknowledgement has come for a counter set of a context: the live set, or one that is parked. -/
def Acknowledged (c c' : Ctx) (set : Nat) : Prop :=
  (set = c.set → c'.out = c.out - 1 ∧ c'.parked = c.parked) ∧
  (set ≠ c.set → c'.out = c.out ∧ ∀ p, p ∈ c'.parked ↔ p.count ≠ 0 ∧
    ∃ q ∈ c.parked, p = if q.set = set then { q with count := q.count - 1 } else q)

/-- A context that stays: its node places more blocks and has not ended, and one of its blocks has not left. -/
structure Stays (s : State) (ctx : Nat) (c : Ctx) : Prop where
  sorted : twf s.ctxs = true
  here : tget s.ctxs ctx = some c
  node : ∃ n, tget s.nodes c.node = some n ∧ n.failing = false ∧ n.cancel = none ∧ n.next < n.blocks
  block : ∃ i b, i ∈ c.blocks ∧ tget s.blocks i = some b ∧ b.left = false

/-- R296: the request of a constituent: its site, and the plane and tag it was numbered with. -/
def Carries (q : Req) (plane : Nat) (x : Constituent) : Prop := q.from_ = x.site ∧ q.origin = some plane ∧ q.tag = x.tag

/-- R296: no two requests of a site have one tag of one plane. -/
def TagsUnique (s : State) : Prop :=
  twf s.reqs = true ∧ ∀ x ∈ s.reqs, ∀ y ∈ s.reqs, x.2.origin.isSome = true → x.2.from_ = y.2.from_ → x.2.origin = y.2.origin →
    x.2.tag = y.2.tag → x = y

/-- The constituents of a list are requests of their own. -/
def Distinct (list : List Constituent) : Prop := (list.map fun x => (x.site, x.tag)).Nodup

/-- R296, R311: a combining request of one lane has been answered with a value. -/
def Answered (s s' : State) (plane : Nat) (x : Constituent) (value home moves : Nat) : Prop :=
  ∀ id q it, tget s.reqs id = some q → Carries q plane x → q.phase = .combining → q.items = [it] →
    tget s'.reqs id = some { q with phase := .replied, home := home, moves := moves, fromHome := true, applied := true,
                                    answers := [⟨it.lane, value % 2 ^ (8 * q.size), 0⟩], left := s.now, port := home / 2 }

/-- R303: a request that ends with a cause at every lane. -/
def ended (q : Req) (cause : Nat) : Req :=
  { q with phase := .replied, fromHome := false, applied := true, answers := q.items.map fun i => ⟨i.lane, 0, cause⟩ }

/-- A message of the fabric after another has taken its place. -/
def withMsg (s : State) (id : Nat) (m : Msg) : State := { s with fabric := { s.fabric with msgs := tput s.fabric.msgs id m } }

/-- R300: a home that applies a combined request of n bits at an address. -/
structure Applies (s : State) (site addr n : Nat) (h : ObjEntry) : Prop where
  entry : objEntry s site (addr / 2 ^ 34 % 2 ^ 29) = some h
  home : h.state = .home
  inside : addr % 2 ^ 34 + n / 8 ≤ h.size
  sound : tget s.errors (addr / 64) = none
  range : addr < 2 ^ 64
  present : site / 2 ∉ s.fabric.absent

/-- The sum has been added at the address and every other byte is as it was. -/
def Added (s s' : State) (addr n sum : Nat) : Prop :=
  readNat s'.mem addr (n / 8) = (readNat s.mem addr (n / 8) + sum) % 2 ^ n ∧
  ∀ k, ¬(addr ≤ k ∧ k < addr + n / 8) → readByte s'.mem k = readByte s.mem k

/-- Bits of a combined request. -/
def bitsOf (wide : Bool) : Nat := if wide then 64 else 32

/-- R299: the number of a record of a port. -/
def recordAt (plane port n : Nat) : Nat := (plane * 512 + port) * 4096 + n

/-- R299 step 3: HOLD has passed since an entry's first constituent reached the head of the queue, in ac. -/
def HoldOver (s : State) (e : CombEntry) : Prop :=
  e.since + ((slctlOf s e.plane e.port).toNat % 256 * 7 + 9) / 10 ≤ clock s e.port

/-- A request leaves a device's port now. -/
def leftNow (s : State) (q : Req) : Req := { q with left := s.now, port := q.from_ / 2 }

/-- R299: no request that waits at the egress port came there before. -/
def HeadOfPort (s : State) (id : Nat) (q : Req) : Prop :=
  ∀ x ∈ s.reqs, x.2.phase = .egress → x.2.plane = q.plane → x.2.site / 2 = q.site / 2 →
    ¬(x.2.left < q.left ∨ (x.2.left = q.left ∧ x.1 < id))

/-- R210: no earlier request of the context to the line is unanswered, but for those of a list. -/
def NothingAhead (s : State) (id : Nat) (q : Req) (list : List Nat) : Prop :=
  ∀ x ∈ s.reqs, x.1 < id → x.2.ctx = q.ctx → x.2.phase ≠ .replied → reqPtr x.2 / 64 = reqPtr q / 64 → x.1 ∈ list

/-- R295: the plane of a line at a device among those that are up. -/
def ViaPlane (s : State) (plane home addr via : Nat) : Prop :=
  (plane ∉ s.fabric.down → via = plane) ∧ (plane ∈ s.fabric.down → via = planeOf s (home / 2) addr)

/-- R184, R304: where the bytes at an offset of a member's window are kept: its page is present and writable, and the line holds no
uncorrectable error. -/
structure InMember (s : State) (m : Ctx) (g : Group) (off k : Nat) : Prop where
  page : ∃ x, xlate s m 0 ((advance g.base (off : Int)).toNat % 2 ^ 60) = .page x ∧ x.w = true ∧
    k = physKey s m.dev x.key (x.pa + (advance g.base (off : Int)).toNat % 2 ^ 60 % 4096)
  sound : tget s.errors (errLine k) = none

/-- R298: a request of one constituent of 4 bytes at its egress port. -/
structure AtEgress (s : State) (id : Nat) (q : Req) : Prop where
  here : tget s.reqs id = some q
  phase : q.phase = .egress
  one : q.single = false
  size : q.size = 4

end Sys2Proof.Spec

/-- R29, R264, R283, R292: an acknowledgement counts down in the set that counted the store, while that set counts more than is on
its way. -/
def Sys2Proof.Spec.StoreAcks : Prop :=
  (∀ s ctx c set, Stays s ctx c → travelling s ctx c set < setCount c set → ∃ s' c', exec (.storeAckReceive ctx set) s = .next s' ∧
    tget s'.ctxs ctx = some c' ∧ Acknowledged c c' set ∧ s'.mem = s.mem) ∧
  (∀ s ctx c set, tget s.ctxs ctx = some c → setCount c set ≤ travelling s ctx c set →
    exec (.storeAckReceive ctx set) s = .next s)

/-- R184, R186, R187, R188: a page becomes present or invalid, or flips, the driver being told of a flip to it, and the stalled accesses go
again. -/
def Sys2Proof.Spec.PagesAndFlips : Prop :=
  ∀ s dev entry e, e = pte s dev entry → e.testBit 0 = true →
    (e.testBit 2 = false → ∀ present, ∃ s', exec (.pageFaultResolved dev entry present) s = .next s' ∧
      PteNow s s' dev entry (if present then e + 4 else e - 1) ∧ Reissued s s' dev) ∧
    (e.testBit 2 = true → ∃ s', exec (.pageFaultResolved dev entry true) s = .next s' ∧ s'.mem = s.mem ∧ Reissued s s' dev) ∧
    (e.testBit 2 = true → e.testBit 5 = false → (∀ x ∈ s.blocks, ∀ y ∈ x.2.copyQ ++ x.2.gathQ, y.landing = []) →
      ∃ s', exec (.flipDeviceToHost dev entry) s = .next s' ∧ PteNow s s' dev entry (e + 32) ∧
        e / 4096 % 2 ^ 40 ∈ (devOf s' dev).flipTold ∧ e / 4096 % 2 ^ 40 ∉ (devOf s' dev).flipPosts ∧
        ∀ id c k, (id, c) ∈ s'.ctxs → pageAt s dev e ≤ 64 * k → 64 * k < pageAt s dev e + 4096 → tget c.l1 k = none) ∧
    (e.testBit 2 = true → e.testBit 5 = true → ∃ s', exec (.flipHostToDevice dev entry) s = .next s' ∧
      PteNow s s' dev entry (e - 32) ∧ Reissued s s' dev ∧ e / 4096 % 2 ^ 40 ∉ (devOf s' dev).flipPosts)

/-- R294, R302, R303: failed flits take a plane down, whose requests are sent again over the others; its recovery ends when every
device has acknowledged; a request that is not answered in time takes its plane down, and ends with its cause where its device is
gone, as does the wait of a WAITA on its memory. That the requests are sent again in the step in which the plane goes down, that silent
and unpowered devices acknowledge at once, and that a later recovery of the plane returns it, is the model's reading (log 23, DEDUCED). -/
def Sys2Proof.Spec.PlanesOfThePod : Prop :=
  (∀ s dev port key tries, key = dev * 32 + port → port < 32 → tries = tgetD s.fabric.retries key 0 →
    exec (.flitRetry dev port true) s = .next { s with fabric := { s.fabric with retries := tdel s.fabric.retries key } } ∧
    (tries < 63 → exec (.flitRetry dev port false) s =
      .next { s with fabric := { s.fabric with retries := tput s.fabric.retries key (tries + 1) } }) ∧
    (63 ≤ tries → tget s.fabric.recovering port = none →
      ∃ s', exec (.flitRetry dev port false) s = .next s' ∧ port ∈ s'.fabric.down)) ∧
  (∀ s plane, plane < 32 → plane ∉ s.fabric.down → tget s.fabric.recovering plane = none →
    ∃ s', exec (.planeDown plane) s = .next s' ∧ s'.mem = s.mem ∧ s'.fabric.down = plane :: s.fabric.down ∧
    (∃ waiting, s'.fabric.recovering = tput s.fabric.recovering plane (false, waiting)) ∧
    (∀ r, r ∈ s'.fabric.records → r.2.plane ≠ plane) ∧ (∀ e, e ∈ s'.fabric.combs → e.2.plane ≠ plane) ∧
    (twf s.reqs = true → (∀ x ∈ s.sites, x.2.receipts = []) →
      (∀ x ∈ s.fabric.msgs, ∀ via p site tag value home moves, x.2 ≠ .drsp via p site tag value home moves) →
      (∃ p, p < 32 ∧ p ≠ plane ∧ p ∉ s.fabric.down) → ∀ id q, tget s.reqs id = some q →
        (q.plane = plane → q.site / 2 ≠ q.from_ / 2 → q.site / 2 ∉ s.fabric.absent → q.lost = false →
            q.phase ≠ .replied → q.phase ≠ .queued →
          ∃ q', tget s'.reqs id = some q' ∧ q' = { q with phase := if q.phase = .egress ∨ q.phase = .combining then .toSite else q.phase
                                                          resent := true, plane := q'.plane, sent := clock s (q.from_ / 2)
                                                          left := s.now, port := q.from_ / 2 } ∧
            q'.plane < 32 ∧ q'.plane ∉ s'.fabric.down) ∧
        (q.plane ≠ plane → tget s'.reqs id = some q))) ∧
  (∀ s plane returns waiting, tget s.fabric.recovering plane = some (returns, waiting) →
    ((∀ d ∈ waiting, d ∉ silent s) → ∃ s', exec (.planeRecoveryEnd plane) s = .next s' ∧
      s'.fabric = { s.fabric with recovering := tdel s.fabric.recovering plane
                                  down := if returns then s.fabric.down.filter (· ≠ plane) else s.fabric.down } ∧ s'.mem = s.mem ∧
      ∀ id q, twf s.reqs = true → tget s.reqs id = some q → q.plane = plane → q.site / 2 ∈ s.fabric.absent →
        q.site / 2 ≠ q.from_ / 2 → q.phase ≠ .replied →
        (∀ sext nc, q.kind = .load sext nc → tget s'.reqs id = some (ended q 0x280)) ∧
        (∀ op, q.kind = .atom op → tget s'.reqs id = some (ended q 0x2C3))) ∧
    ((∀ d ∈ waiting, d ∉ silent s) → ∀ id t woken since watch y, tget s.teams id = some t → t.wait = .waita woken since watch →
      y ∈ watch → y.key < 2 ^ 64 → y.key / 2 ^ 53 % 2 ^ 10 / 2 ∈ s.fabric.absent → ∃ s', exec (.planeRecoveryEnd plane) s = .next s' ∧
        tget s'.teams id = some { t with wait := .waita true since watch }) ∧
    ((∃ d ∈ waiting, d ∈ silent s) → exec (.planeRecoveryEnd plane) s = .next s)) ∧
  (∀ s id q, tget s.reqs id = some q → q.phase ≠ .replied → q.site / 2 ≠ q.from_ / 2 → q.plane < 32 → q.plane ∉ s.fabric.down →
    (clock s (q.from_ / 2) < q.sent + 1400000 → exec (.requestTimeout id) s = .next s) ∧
    (q.sent + 1400000 ≤ clock s (q.from_ / 2) → tget s.fabric.recovering q.plane = none →
      ∃ s', exec (.requestTimeout id) s = .next s' ∧ q.plane ∈ s'.fabric.down))

/-- R29, R184, R186, R187, R188, R264, R283, R292, R294, R302, R303: acknowledgements, pages and planes. -/
def Obligations.LinksAndPages : Prop := Spec.StoreAcks ∧ Spec.PagesAndFlips ∧ Spec.PlanesOfThePod

/-- R296 to R299: an egress port opens an entry, adds a request to the entry of its key or lets it pass; once HOLD has passed since its
first constituent reached the head of the queue the entry is forwarded with its sum and each constituent's prefix offset; an entry of a
list is 8 bytes, 4 to a flit. The key is the 8-byte-aligned word: that a request for its other half passes uncombined, that one does not
pass an earlier request of its context to the line, and that HOLD runs on the clock of the port's device, is the model's reading (log 15). -/
def Sys2Proof.Spec.CombiningAtThePort : Prop :=
  (∀ s id q, tget s.reqs id = some q → q.phase = .egress →
    q.resent = true ∨ (slctlOf s q.plane (q.site / 2)).getLsbD 16 = false →
      exec (.sluiceEgress id) s = .next { s with reqs := tput s.reqs id (leftNow s { q with phase := .toSite }) }) ∧
  (∀ s id q, AtEgress s id q → q.resent = false → (slctlOf s q.plane (q.site / 2)).getLsbD 16 = true →
    (¬NothingAhead s id q [] → s.fabric.combs = [] →
      exec (.sluiceEgress id) s = .next { s with reqs := tput s.reqs id (leftNow s { q with phase := .toSite }) }) ∧
    (NothingAhead s id q [] → s.fabric.combs = [] → ∃ s' e, exec (.sluiceEgress id) s = .next s' ∧
      tget s'.reqs id = some { q with phase := .combining } ∧ s'.mem = s.mem ∧ tget s'.fabric.combs s.fresh = some e ∧
      e.plane = q.plane ∧ e.port = q.site / 2 ∧ e.site = q.site ∧ e.addr = reqPtr q ∧ e.list = [id] ∧ e.wide = false ∧
      e.since = clock s (q.site / 2) ∧ (e.head = true ↔ HeadOfPort s id q)) ∧
    (∀ k e id2 q2, s.fabric.combs = [(k, e)] → e.plane = q.plane → e.port = q.site / 2 → e.site = q.site → e.red = isRed q →
      e.wide = false → e.addr / 8 = reqPtr q / 8 → e.list = [id2] → id2 ≠ id → tget s.reqs id2 = some q2 → q2.single = false →
      (e.addr ≠ reqPtr q ∨ ¬NothingAhead s id q [id2] →
        exec (.sluiceEgress id) s = .next { s with reqs := tput s.reqs id (leftNow s { q with phase := .toSite }) }) ∧
      (e.addr = reqPtr q → NothingAhead s id q [id2] → ∃ s', exec (.sluiceEgress id) s = .next s' ∧ tget s'.reqs id = some { q with phase := .combining } ∧
        tget s'.fabric.combs k = some { e with list := [id2, id] } ∧ s'.mem = s.mem))) ∧
  (∀ s key e, tget s.fabric.combs key = some e → e.head = true → ¬HoldOver s e → exec (.combineHoldExpiry key) s = .next s) ∧
  (∀ s key e id q rest, tget s.fabric.combs key = some e → e.head = false → e.list = id :: rest → tget s.reqs id = some q →
    (HeadOfPort s id q → exec (.combineHoldExpiry key) s = .next
      { s with fabric := { s.fabric with combs := tput s.fabric.combs key { e with head := true, since := clock s e.port } } }) ∧
    (¬HeadOfPort s id q → exec (.combineHoldExpiry key) s = .next s)) ∧
  (∀ s key e id1 id2 q1 q2, tget s.fabric.combs key = some e → e.head = true → HoldOver s e → e.list = [id1, id2] → id1 ≠ id2 →
    tget s.reqs id1 = some q1 → tget s.reqs id2 = some q2 → q1.size = bitsOf e.wide / 8 → q2.size = bitsOf e.wide / 8 →
    q1.single = false → q2.single = false →
    (let x1 := (q1.sum % 2 ^ bitsOf e.wide).toNat
     let x2 := (q2.sum % 2 ^ bitsOf e.wide).toNat
     let list : List Constituent := [⟨q1.from_, q1.tag, q1.sum, 0⟩, ⟨q2.from_, q2.tag, q2.sum, x1⟩]
     (e.red = true → ∃ s', exec (.combineHoldExpiry key) s = .next s' ∧ tget s'.fabric.combs key = none ∧
       tget s'.fabric.msgs s.fresh = some (.cred e.plane e.port e.site e.addr e.wide list ((x1 + x2) % 2 ^ bitsOf e.wide) 0)) ∧
     (e.red = false → s.fabric.records = [] → ∃ s' r, exec (.combineHoldExpiry key) s = .next s' ∧ tget s'.fabric.combs key = none ∧
       tget s'.fabric.records (recordAt e.plane e.port r) = some ⟨e.plane, e.port, list, false⟩ ∧
       tget s'.fabric.msgs s.fresh =
         some (.creq r e.plane e.port e.site e.addr e.wide list ((x1 + x2) % 2 ^ bitsOf e.wide) 0)))) ∧
  (∀ c : Constituent, c.site < 2 ^ 10 → c.tag < 2 ^ 16 → entryWord c < 2 ^ 64 ∧ entryWord c % 2 ^ 10 = c.site ∧
    entryWord c / 2 ^ 10 % 2 ^ 16 = c.tag ∧ entryWord c / 2 ^ 26 % 2 ^ 6 = 0 ∧
    ((entryWord c / 2 ^ 32 : Nat) : Int) = c.operand % 2 ^ 32) ∧
  (∀ list : List Constituent, (listFlits list).length = (list.length + 3) / 4 ∧
    ∀ i j, i < (list.length + 3) / 4 → j < 4 → ((listFlits list).getD i []).length = 4 ∧
      (∀ c, list[4 * i + j]? = some c → ((listFlits list).getD i []).getD j 0 = entryWord c) ∧
      (list[4 * i + j]? = none → ((listFlits list).getD i []).getD j 0 = 0))

/-- R300: the home adds the sum once, keeps a receipt and answers, or splits the request when its receipts are full. -/
def Sys2Proof.Spec.CombiningAtTheHome : Prop :=
  (∀ s m record plane port site addr wide list sum hops h,
    tget s.fabric.msgs m = some (.creq record plane port site addr wide list sum hops) → Applies s site addr (bitsOf wide) h →
    ((siteOf s site).receipts.length < 1024 → ∃ s', exec (.creq m) s = .next s' ∧ Added s s' addr (bitsOf wide) sum ∧
      (siteOf s' site).receipts = (siteOf s site).receipts ++
        [⟨record, plane, port, list, readNat s.mem addr (bitsOf wide / 8), site, h.moves, addr, wide⟩] ∧
      tget s'.fabric.msgs s.fresh = some (.crsp record plane port site (readNat s.mem addr (bitsOf wide / 8)) h.moves wide)) ∧
    (1024 ≤ (siteOf s site).receipts.length → ∃ s', exec (.creq m) s = .next s' ∧ s'.mem = s.mem ∧
      tget s'.fabric.msgs s.fresh = some (.split record plane port))) ∧
  (∀ s m plane port site addr wide list sum hops h, tget s.fabric.msgs m = some (.cred plane port site addr wide list sum hops) →
    Applies s site addr (bitsOf wide) h → ∃ s', exec (.cred m) s = .next s' ∧ Added s s' addr (bitsOf wide) sum ∧
      tget s'.fabric.msgs s.fresh = some (.cack plane list site h.moves))

/-- R296, R300, R301, R311, R312: the Sluice rebuilds each constituent's value from the old value; LOST brings the receipt's answers,
SPLIT the constituents themselves, and DRSP one answer. -/
def Sys2Proof.Spec.CombiningAnswers : Prop :=
  (∀ s m record plane port home old moves wide, tget s.fabric.msgs m = some (.crsp record plane port home old moves wide) →
    (tget s.fabric.records (recordAt plane port record) = none → ∃ s', exec (.crsp m false) s = .next s' ∧ s'.reqs = s.reqs ∧
      s'.mem = s.mem ∧ tget s'.fabric.msgs s.fresh = some (.lost record plane port home)) ∧
    (∀ r, tget s.fabric.records (recordAt plane port record) = some r →
      (r.bad = false → TagsUnique s → Distinct r.list → ∃ s', exec (.crsp m false) s = .next s' ∧ s'.mem = s.mem ∧
        tget s'.fabric.records (recordAt plane port record) = none ∧
        tget s'.fabric.msgs s.fresh = some (.done record plane port home) ∧
        ∀ x ∈ r.list, Answered s s' plane x ((old + x.off) % 2 ^ bitsOf wide) home moves) ∧
      (∃ s', exec (.crsp m true) s = .next s' ∧ s'.mem = s.mem ∧ s'.reqs = s.reqs ∧
        tget s'.fabric.msgs s.fresh = some (.lost record plane port home)))) ∧
  (∀ s m plane list home moves, tget s.fabric.msgs m = some (.cack plane list home moves) → TagsUnique s → Distinct list →
    ∃ s', exec (.cack m) s = .next s' ∧ s'.mem = s.mem ∧ tget s'.fabric.msgs m = none ∧
      ∀ x ∈ list, Answered s s' plane x 0 home moves) ∧
  (∀ s m record plane port r, tget s.fabric.msgs m = some (.split record plane port) →
    tget s.fabric.records (recordAt plane port record) = some r → TagsUnique s → ∃ s', exec (.fabSplit m) s = .next s' ∧
      s'.mem = s.mem ∧ tget s'.fabric.records (recordAt plane port record) = none ∧
      ∀ x ∈ r.list, ∀ id q, tget s.reqs id = some q → Carries q plane x → q.phase = .combining →
        tget s'.reqs id = some (leftNow s { q with phase := .toSite, resent := true })) ∧
  (∀ s m record plane port site, tget s.fabric.msgs m = some (.done record plane port site) → ∃ s', exec (.fabDone m) s = .next s' ∧
    s'.mem = s.mem ∧ s'.reqs = s.reqs ∧ tget s'.fabric.msgs m = none ∧
    ∀ r ∈ (siteOf s' site).receipts, ¬(r.record = record ∧ r.plane = plane ∧ r.port = port)) ∧
  (∀ s m record plane port site r rest, tget s.fabric.msgs m = some (.lost record plane port site) →
    (siteOf s site).receipts = r :: rest → r.record = record → r.plane = plane → r.port = port →
    ∃ s', exec (.fabLost m) s = .next s' ∧ s'.mem = s.mem ∧
      (∀ x ∈ (siteOf s' site).receipts, ¬(x.record = record ∧ x.plane = plane ∧ x.port = port)) ∧
      ∀ j x, r.list[j]? = some x → ∃ via, ViaPlane s plane r.home r.addr via ∧ tget s'.fabric.msgs (s.fresh + j) =
        some (.drsp via plane x.site x.tag ((r.old + x.off) % 2 ^ bitsOf r.wide) r.home r.moves)) ∧
  (∀ s m via plane site tag value home moves, tget s.fabric.msgs m = some (.drsp via plane site tag value home moves) →
    TagsUnique s → ∃ s', exec (.drsp m) s = .next s' ∧ s'.mem = s.mem ∧ tget s'.fabric.msgs m = none ∧
      Answered s s' plane ⟨site, tag, 0, 0⟩ value home moves)

/-- R296 to R301, R311, R312: requests that combine; what the model chooses there is in log 15. -/
def Obligations.Combining : Prop := Spec.CombiningAtThePort ∧ Spec.CombiningAtTheHome ∧ Spec.CombiningAnswers

/-- R184, R303, R304: what a member's home does with a multicast write: it writes each lane's bytes at their offset of the window and
nothing else, fails and leaves the window as it is, or waits for a page. -/
def Sys2Proof.Spec.MemberWrites : Prop :=
  ∀ s ctx gid rank data c, tget s.ctxs ctx = some c →
    (memberOf s gid rank = none → memberWrite s ctx gid rank data = .failed none) ∧
    ∀ mid m g, memberOf s gid rank = some (mid, m, g) →
      ((∀ p, p < 32 → p ∈ s.fabric.down) → memberWrite s ctx gid rank data = .failed (some 0x281)) ∧
      ((∃ p, p < 32 ∧ p ∉ s.fabric.down) → m.dev ≠ c.dev → m.dev ∈ s.fabric.absent →
        memberWrite s ctx gid rank data = .failed (some 0x280)) ∧
      ((∃ p, p < 32 ∧ p ∉ s.fabric.down) → Reach s c m.dev →
        ((∃ x ∈ data, g.bytes.toNat < x.1 + x.2.length) → memberWrite s ctx gid rank data = .failed none) ∧
        ((∀ x ∈ data, x.1 + x.2.length ≤ g.bytes.toNat) →
          (∀ key : Nat → Nat, (∀ x ∈ data, InMember s m g x.1 (key x.1)) → (∀ x ∈ data, ∀ i, i < x.2.length → OwnLine s (key x.1 + i)) →
            data.Pairwise (fun x y => key x.1 + x.2.length ≤ key y.1 ∨ key y.1 + y.2.length ≤ key x.1) →
            ∃ s1, memberWrite s ctx gid rank data = .done s1 ∧ s1.teams = s.teams ∧ s1.fabric = s.fabric ∧
              (∀ x ∈ data, readBytes s1.mem (key x.1) x.2.length = x.2) ∧
              ∀ k, (∀ x ∈ data, ¬(key x.1 ≤ k ∧ k < key x.1 + x.2.length)) → readByte s1.mem k = readByte s.mem k) ∧
          (∀ x va, data = [x] → va = (advance g.base (x.1 : Int)).toNat % 2 ^ 60 →
            (xlate s m 0 va = .none ∨ xlate s m 0 va = .absent true ∨ (∃ p, xlate s m 0 va = .page p ∧ (p.w = false ∨
                tget s.errors (errLine (physKey s m.dev p.key (p.pa + va % 4096))) ≠ none)) →
              memberWrite s ctx gid rank data = .failed none) ∧
            (xlate s m 0 va = .absent false → memberWrite s ctx gid rank data = .page x.1))))

/-- R153, R292, R304, R305: a multicast write is replicated once, after those before it to its line; each member's home makes it or
fails; when every member has answered the merged acknowledgement counts down and a failure goes into the entry and waits for the
team's release. That a member whose page is absent posts it and waits, and that the order holds over a context's stores rather than one
team's (R305), is the model's reading (log 23, DEDUCED). -/
def Sys2Proof.Spec.MulticastSteps : Prop :=
  ∀ s m team ctx entry gid plane set data pending failed sent, tget s.fabric.msgs m =
      some (.mcast team ctx entry gid plane set data pending failed sent) →
    (sent = false → (∀ x ∈ s.fabric.msgs, x.1 < m → sameMcast ctx gid data x.2 = false) → exec (.mcastReplicate m) s =
      .next (withMsg s m (.mcast team ctx entry gid plane set data pending failed true))) ∧
    (∀ x t e p q l f, sent = false → x ∈ s.fabric.msgs → x.1 < m → x.2 = .mcast t ctx e gid p q data l f false →
      exec (.mcastReplicate m) s = .next s) ∧
    (∀ rank, sent = true → rank ∈ pending → rank < 1024 →
      ((∀ x ∈ s.fabric.msgs, x.1 < m → sameMcast ctx gid data x.2 = false) →
        (∀ s1, memberWrite s ctx gid rank data = .done s1 → exec (.mcastMemberAnswer m rank) s =
          .next (withMsg s1 m (.mcast team ctx entry gid plane set data (pending.filter (· ≠ rank)) failed true))) ∧
        (∀ cause, memberWrite s ctx gid rank data = .failed cause → ∃ s' f, exec (.mcastMemberAnswer m rank) s = .next s' ∧
          s'.mem = s.mem ∧ (∀ j, f.getLsbD j = true ↔ failed.getLsbD j = true ∨ j = rank) ∧
          tget s'.fabric.msgs m = some (.mcast team ctx entry gid plane set data (pending.filter (· ≠ rank)) f true)) ∧
        (∀ off, memberWrite s ctx gid rank data = .page off → ∃ s', exec (.mcastMemberAnswer m rank) s = .next s' ∧
          s'.mem = s.mem ∧ s'.fabric = s.fabric)) ∧
      (∀ x t e p q l f r, x ∈ s.fabric.msgs → x.1 < m → x.2 = .mcast t ctx e gid p q data l f r → rank ∈ l →
        exec (.mcastMemberAnswer m rank) s = .next s)) ∧
    (∀ c, sent = true → pending = [] → Stays s ctx c →
      (failed = 0 → ∃ s' c', exec (.mcastAckReceive m) s = .next s' ∧ s'.mem = s.mem ∧ tget s'.fabric.msgs m = none ∧
        tget s'.ctxs ctx = some c' ∧ Acknowledged c c' set ∧ c'.groups = c.groups) ∧
      (∀ t g, failed ≠ 0 → tget s.teams team = some t → t.ended = false → t.mcfail = [] → tget c.groups entry = some g →
        ∃ s' c' t', exec (.mcastAckReceive m) s = .next s' ∧ s'.mem = s.mem ∧ tget s'.ctxs ctx = some c' ∧
        Acknowledged c c' set ∧ tget c'.groups entry = some { g with failure := g.failure ||| failed } ∧
        tget s'.teams team = some t' ∧ (t' = { t with mcfail := [entry] } ∨ t' = wake { t with mcfail := [entry] })))

/-- R153, R292, R303 to R305: multicast stores at the fabric and at the members. -/
def Obligations.Multicast : Prop := Spec.MulticastSteps ∧ Spec.MemberWrites

namespace Sys2Proof.Spec

/-! ### Firmware, the rings and the host (R248, R313 to R321, R330, R337) -/

/-- R38, R280: `n` bytes of the own scratchpad from a pointer on, without a stored error. -/
structure OwnRange (s : State) (t : Team) (b : Block) (ea : Dbl) (n : Nat) : Prop where
  flat : ea.getLsbD 63 = false
  region : sub ea 60 3 = 2
  member : sub ea 57 3 = 0
  inside : sub ea 0 57 + n ≤ b.spad
  short : sub ea 0 57 + n < 2 ^ 57
  sound : ∀ i, i < n → tget s.errors ((ownKey t ea + i) / 64) = none

/-- The bytes from `lo` of an argument, as a number. -/
def arg (s : State) (t : Team) (p : Dbl) (lo n : Nat) : Nat := readNat s.mem (ownKey t p + lo) n

/-- R321: firmware's event for a call of a service number. -/
def ServiceEvent (call : SvcCall) (n : Nat) (e : Instr) : Prop :=
  (n = 0 ∧ e = .svcNop call) ∨ (n = 1 ∧ e = .unitCreate call) ∨ (n = 2 ∧ e = .groupSet call) ∨ (n = 3 ∧ e = .groupClear call) ∨
  (n = 4 ∧ e = .mapInval call) ∨ (n = 5 ∧ e = .faultRead call) ∨ (n = 6 ∧ e = .attest call)

/-- R248: the current team waits in a SYS of service number `n` and firmware runs; `e` is the SYS, which issues again, or
firmware's event for the team that waits in it. -/
structure Serving (s : State) (t : Team) (b : Block) (c : Ctx) (o : I64) (n : Nat) (e : Instr) : Prop where
  resident : ∃ nd, Resident s t b c nd ∧ (e = .sys o ∨ ∃ call x len, ServiceEvent call n e ∧ call.team = some s.cur ∧
    fwUp s call.dev = true ∧ fetchWord ⟨t, b, c, nd⟩ t.pc = .ok (x, len) ∧ decodeWord x = .sys o)
  waits : t.wait = .sys
  up : fwUp s c.dev = true
  number : o.imm.toNat % 2 ^ 16 = n
  registers : Uniforms t [(kdI o, 2)] [(kaI o, 2)]

/-- R248, R321: the SYS has ended with a code: its status word in the pair, and the L1 lines of the slot gone. -/
def Answers (s : State) (t : Team) (b : Block) (o : I64) (e : Instr) (code : Nat) (s' : State) : Prop :=
  exec e s = .next s' ∧
  (∃ t', tget s'.teams s.cur = some t' ∧ WrotePair t t' (kdI o) (code + if code = 0 then 0 else 2 ^ 63)) ∧
  ∃ c', tget s'.ctxs b.ctx = some c' ∧ c'.l1 = []

/-- Every byte but those in [lo, lo + n) is as it was. -/
def OnlyBytes (s s' : State) (lo n : Nat) : Prop := ∀ k, ¬(lo ≤ k ∧ k < lo + n) → readByte s'.mem k = readByte s.mem k

/-- R255: the identifier of a unit. -/
def unitIdent (level owner serial : Nat) : Nat := level * 2 ^ 62 + owner * 2 ^ 57 + serial % 2 ^ 57

/-- R315: the address of a slot of a ring of 2^x slots at a base, and the slot that is read next. -/
def ringSlot (s : State) (control : Nat) : Nat :=
  readNat s.mem (hostKey control) 8 + readNat s.mem (hostKey (control + 0x80)) 8 % 2 ^ readNat s.mem (hostKey (control + 8)) 1 * 64

/-- R316 to R318: a published slot of a ring of a VF with its header, the ring not in error. -/
structure Published (s : State) (dev vf ring : Nat) (r : Ring) (header : Nat) : Prop where
  up : fwUp s dev = true
  ring : ∃ d v, tget s.devs dev = some d ∧ tget d.vfcores vf = some v ∧ tget v.rings ring = some r
  running : readNat s.mem (hostKey (r.control + 0xC0)) 8 / 2 ^ 63 = 0
  sequence : readNat s.mem (hostKey (ringSlot s r.control)) 8 = readNat s.mem (hostKey (r.control + 0x80)) 8
  header : readNat s.mem (hostKey (ringSlot s r.control + 8)) 8 = header

/-- A ring of a VF as it now is. -/
def ringNow (s : State) (dev vf ring : Nat) : Option Ring := tget (vfOf s dev vf).rings ring

/-- R317: a slot was handled: the read index went on, and the ring holds no slot that has just been handled. -/
def Consumed (s s' : State) (r : Ring) : Prop :=
  readNat s'.mem (hostKey (r.control + 0x80)) 8 = (readNat s.mem (hostKey (r.control + 0x80)) 8 + 1) % 2 ^ 64

/-- Eight bytes of host memory apart from the words of a ring's control block. -/
def Apart (r : Ring) (a : Nat) : Prop := a + 8 ≤ r.control ∨ r.control + 0x100 ≤ a

/-- R332, R334: the PCI Express link of a device is up, and the device is not in recovery mode. -/
structure LinkUp (s : State) (dev : Nat) : Prop where
  there : dev < s.fabric.devices
  powered : (devOf s dev).powered = true
  sane : (devOf s dev).recovery = false
  linked : 5 ≤ (devOf s dev).bringup

/-- R187, R212, R313: a place that the host reaches in 1, 2, 4 or 8 bytes: 4 TiB of physical memory of a device under a key slot, an
object inside its size, 64 GiB of a context's shared pages, or host memory. -/
def HostKey (s : State) (a : HostAccess) (k : Nat) : Prop :=
  a.size ∈ [1, 2, 4, 8] ∧
  ((∃ dev slot addr, a.place = .phys dev slot addr ∧ addr % a.size = 0 ∧ LinkUp s dev ∧ slot < 64 ∧ addr < 2 ^ 42 ∧
      k = physKey s dev slot addr) ∨
   (∃ p site e, a.place = .object p ∧ p.getLsbD 63 = true ∧ p.toNat % a.size = 0 ∧ homeOf s (ptrGoid p) = some (site, e) ∧
      LinkUp s (site / 2) ∧ ptrOff p + a.size ≤ e.size ∧ k = p.toNat) ∨
   (∃ ctx va c root x, a.place = .page ctx va ∧ va % a.size = 0 ∧ va < 2 ^ 36 ∧ tget s.ctxs ctx = some c ∧ LinkUp s c.dev ∧
      tget c.roots 3 = some root ∧ walkLevel s.mem c.dev 3 va 3 root = .page x ∧ k = physKey s c.dev x.key (x.pa + va % 4096)) ∨
   (∃ addr, a.place = .host addr ∧ addr % a.size = 0 ∧ addr < 2 ^ 64 ∧ k = hostKey addr))

end Sys2Proof.Spec

/-- R248, R321: SYS posts its service and blocks; firmware answers: NOP with 0, a number above 6 with code 1, UNIT.create with the identifier
of a new unit or code 2. The width of each field of an argument is log 27; that SYS issues twice, its answer being taken at the second
issue, and that a new unit opens a parent again that had ended, is log 34 (DEDUCED): the model's readings. -/
def Sys2Proof.Spec.SysAndUnits : Prop :=
  (∀ o s t b c n, Resident s t b c n → Uniforms t [(kdI o, 2)] [(kaI o, 2)] → t.wait ≠ .sys → b.provisional = false →
    (c.out = 0 ∧ (∀ x ∈ c.parked, x.count = 0) → exec (.sys o) s = .next (putTeam s s.cur { t with wait := .sys })) ∧
    (c.out ≠ 0 → exec (.sys o) s = .next (putTeam s s.cur { t with wait := .release }))) ∧
  (∀ o s t b c ev, Serving s t b c o 0 ev → ∃ s', Answers s t b o ev 0 s' ∧ s'.mem = s.mem ∧ s'.devs = s.devs) ∧
  (∀ o s t b c ev n, Serving s t b c o n ev → 7 ≤ n → ∃ s', Answers s t b o ev 1 s' ∧ s'.mem = s.mem ∧ s'.devs = s.devs) ∧
  (∀ o s t b c ev p level parent i, Serving s t b c o 1 ev → p = kgetD t (kaI o) → OwnRange s t b p 24 → level = arg s t p 0 8 →
    parent = arg s t p 8 8 → i = unitIdent level c.vf (devOf s c.dev).serial →
    (1 ≤ level → level ≤ 3 → parent = 0 ∨ (level < 3 ∧ parent / 2 ^ 62 % 4 = level + 1 ∧ parent / 2 ^ 57 % 32 = c.vf ∧
        ∃ u, tget (devOf s c.dev).units parent = some u) →
      ∃ s', Answers s t b o ev 0 s' ∧ arg s' t p 16 8 = i % 2 ^ 64 ∧ OnlyBytes s s' (ownKey t p + 16) 8 ∧
        (devOf s' c.dev).serial = (devOf s c.dev).serial + 1 ∧
        (i ≠ parent → (∀ u, tget (devOf s c.dev).units parent = some u → u.final = false) →
          tget (devOf s' c.dev).units i = some { parent := parent, vf := c.vf }) ∧
        ∀ u, i ≠ parent → tget (devOf s c.dev).units parent = some u →
          (u.final = false → tget (devOf s' c.dev).units parent = some { u with open_ := u.open_ + 1 }) ∧
          (u.final = true → ∃ u', tget (devOf s' c.dev).units parent = some u' ∧ u'.final = false)) ∧
    (level < 1 ∨ 3 < level → ∃ s', Answers s t b o ev 2 s' ∧ s'.mem = s.mem ∧ s'.devs = s.devs))

/-- R184, R278, R306, R321, R330: GROUP.set fills an entry and GROUP.clear invalidates it; MAP.inval leaves the VF no translation of its
range; FAULT.read moves the oldest entries to the buffer and counts them; ATTEST writes the report of the nonce. -/
def Sys2Proof.Spec.GroupsMapsAndReports : Prop :=
  (∀ o s t b c ev p g rank members, Serving s t b c o 2 ev → p = kgetD t (kaI o) → OwnRange s t b p 192 → g = arg s t p 0 4 →
    rank = arg s t p 8 8 → members = BitVec.ofNat 1024 (arg s t p 64 128) → (∀ x ∈ s.colls, ¬(x.2.ctx = b.ctx ∧ x.2.entry = g)) →
    (∀ base : Dbl, base = BitVec.ofNat 64 (arg s t p 16 8) → g < 256 → rank < 1024 → members.getLsbD rank = true →
      base.getLsbD 63 = false → sub base 60 3 = 0 → base.toNat % 64 = 0 →
      ∃ s' c' e, Answers s t b o ev 0 s' ∧ s'.mem = s.mem ∧ tget s'.ctxs b.ctx = some c' ∧ tget c'.groups g = some e ∧ e.valid = true ∧
        e.gid = arg s t p 4 4 ∧ e.members = members ∧ e.rank = rank ∧ e.size = (List.range 1024).countP members.getLsbD ∧ e.seq = 0 ∧
        e.base = base ∧ e.bytes = BitVec.ofNat 64 (arg s t p 24 8) ∧ e.failure = 0 ∧
        ∀ j, j ≠ g → tget c'.groups j = tget c.groups j) ∧
    (256 ≤ g ∨ 1024 ≤ rank ∨ members.getLsbD rank = false → ∃ s', Answers s t b o ev 2 s' ∧ s'.mem = s.mem)) ∧
  (∀ o s t b c ev p g, Serving s t b c o 3 ev → p = kgetD t (kaI o) → OwnRange s t b p 4 → g = arg s t p 0 4 →
    (∀ x ∈ s.colls, ¬(x.2.ctx = b.ctx ∧ x.2.entry = g)) →
    (∀ e, g < 256 → tget c.groups g = some e → ∃ s' c', Answers s t b o ev 0 s' ∧ s'.mem = s.mem ∧ tget s'.ctxs b.ctx = some c' ∧
      tget c'.groups g = some { e with valid := false } ∧ ∀ j, j ≠ g → tget c'.groups j = tget c.groups j) ∧
    (256 ≤ g → ∃ s', Answers s t b o ev 2 s' ∧ s'.mem = s.mem)) ∧
  (∀ o s t b c ev p reg a hi, Serving s t b c o 4 ev → p = kgetD t (kaI o) → OwnRange s t b p 24 → reg = arg s t p 0 8 →
    a = arg s t p 8 8 % 2 ^ 60 → hi = a + arg s t p 16 8 →
    (reg = 0 ∨ reg = 1 ∨ reg = 3 → (∀ x ∈ s.blocks, ∀ y ∈ x.2.copyQ ++ x.2.gathQ, y.landing = []) → ∃ s', Answers s t b o ev 0 s' ∧ s'.mem = s.mem ∧
      (∀ id x page e, (id, x) ∈ s'.ctxs → x.dev = c.dev → x.vf = c.vf → (page, e) ∈ x.tlb → page / 2 ^ 48 = reg →
        page % 2 ^ 48 * 4096 + 4096 ≤ a ∨ hi ≤ page % 2 ^ 48 * 4096) ∧
      ∀ id x, tget s.ctxs id = some x → ¬(x.dev = c.dev ∧ x.vf = c.vf) → tget s'.ctxs id = some x) ∧
    (reg ≠ 0 ∧ reg ≠ 1 ∧ reg ≠ 3 → ∃ s', Answers s t b o ev 2 s' ∧ s'.mem = s.mem)) ∧
  (∀ o s t b c ev p q cap log out, Serving s t b c o 5 ev → p = kgetD t (kaI o) → OwnRange s t b p 24 →
    q = BitVec.ofNat 64 (arg s t p 0 8) → cap = arg s t p 8 8 → log = (vfOf s c.dev c.vf).log →
    out = (log.take cap).flatMap faultBytes → OwnRange s t b q out.length →
    ∃ s', Answers s t b o ev 0 s' ∧ (vfOf s' c.dev c.vf).log = log.drop cap ∧ arg s' t p 16 8 = min cap log.length % 2 ^ 64 ∧
      (∀ j, j < out.length → ¬(ownKey t p + 16 ≤ ownKey t q + j ∧ ownKey t q + j < ownKey t p + 24) →
        readByte s'.mem (ownKey t q + j) = out.getD j 0) ∧
      ∀ k, ¬(ownKey t p + 16 ≤ k ∧ k < ownKey t p + 24) → ¬(ownKey t q ≤ k ∧ k < ownKey t q + out.length) →
        readByte s'.mem k = readByte s.mem k) ∧
  (∀ o s t b c ev p q out, Serving s t b c o 6 ev → p = kgetD t (kaI o) → OwnRange s t b p 40 → q = BitVec.ofNat 64 (arg s t p 32 8) →
    out = attestBytes s c.dev (readBytes s.mem (ownKey t p) 32) → OwnRange s t b q out.length →
    ∃ s', Answers s t b o ev 0 s' ∧ s'.devs = s.devs ∧ OnlyBytes s s' (ownKey t q) out.length ∧
      ∀ j, j < out.length → readByte s'.mem (ownKey t q + j) = out.getD j 0)

/-- R321: an event of firmware for a team that waits in no SYS of its number does nothing; for a ring slot NOP has its effect, which is
none, and a group service answers code 4, which is this model's choice (log 27). -/
def Sys2Proof.Spec.ServiceEvents : Prop :=
  (∀ s (call : SvcCall) id t m e, ServiceEvent call m e → call.team = some id → tget s.teams id = some t → t.wait ≠ .sys →
    exec e s = .next s) ∧
  (∀ s (call : SvcCall), call.team = none → fwUp s call.dev = true →
    exec (.svcNop call) s = .next s ∧ exec (.groupSet call) s = .next s ∧ exec (.groupClear call) s = .next s)

/-- R184, R248, R255, R278, R306, R321, R330: the firmware services. -/
def Obligations.FirmwareServices : Prop := Spec.SysAndUnits ∧ Spec.GroupsMapsAndReports ∧ Spec.ServiceEvents

/-- R247, R266, R315 to R320: firmware finds a published slot at a doorbell or a poll, or puts the ring in error; a NODE, SVC, CANCEL or
NOP slot has its effect, its answer is written and the read index goes on; a full pool keeps the slot. -/
def Sys2Proof.Spec.FirmwareRings : Prop :=
  (∀ s dev vf ring r header type data, Published s dev vf ring r header → r.pending = none → type = header % 256 →
    (1 ≤ type → type ≤ 4 → header / 2 ^ 16 % 64 ≤ 48 → header / 2 ^ 8 % 256 = 0 → header / 2 ^ 22 % 1024 = 0 →
      ∃ s', exec (.doorbell dev vf ring data) s = .next s' ∧ s'.mem = s.mem ∧
        ringNow s' dev vf ring = some { r with pending := some type }) ∧
    (∀ code, (type = 0 ∨ 5 ≤ type) ∧ code = 1 ∨ (1 ≤ type ∧ type ≤ 4 ∧ 48 < header / 2 ^ 16 % 64 ∧ code = 2) ∨
        (1 ≤ type ∧ type ≤ 4 ∧ header / 2 ^ 16 % 64 ≤ 48 ∧ (header / 2 ^ 8 % 256 ≠ 0 ∨ header / 2 ^ 22 % 1024 ≠ 0) ∧ code = 3) →
      ∃ s', exec (.doorbell dev vf ring data) s = .next s' ∧ ringNow s' dev vf ring = some r ∧
        readNat s'.mem (hostKey (r.control + 0xC8)) 8 = readNat s.mem (hostKey (r.control + 0x80)) 8 ∧
        readNat s'.mem (hostKey (r.control + 0xC0)) 8 = 2 ^ 63 + type * 2 ^ 16 + code ∧
        OnlyBytes s s' (hostKey (r.control + 0xC0)) 16) ∧
    (∀ d v, tget s.devs dev = some d → tget d.vfcores vf = some v → v.rings = [(ring, r)] → ring < 8 →
      exec (.firmwareRingPoll dev vf) s = exec (.doorbell dev vf ring data) s)) ∧
  (∀ s dev vf ring r header slot, Published s dev vf ring r header → slot = ringSlot s r.control →
    (r.pending = some 4 → ∃ s', exec (.ringNop dev vf ring) s = .next s' ∧ Consumed s s' r) ∧
    (r.pending = some 3 → ∀ i level, i = readNat s.mem (hostKey (slot + 16)) 8 → level = readNat s.mem (hostKey (slot + 24)) 1 →
      (i / 2 ^ 62 % 4 ≠ level ∨ i / 2 ^ 57 % 32 ≠ vf → ∃ s', exec (.ringCancel dev vf ring) s = .next s' ∧ Consumed s s' r ∧
        (devOf s' dev).units = (devOf s dev).units) ∧
      (∀ u, i / 2 ^ 62 % 4 = level → i / 2 ^ 57 % 32 = vf → unit s dev i = some u → u.final = false → s.nodes = [] →
        ∃ s' u', exec (.ringCancel dev vf ring) s = .next s' ∧ Consumed s s' r ∧ unit s' dev i = some u' ∧ u'.cancelled = true ∧
          u'.failed = true)) ∧
    (r.pending = some 2 → ∀ n a, n = readNat s.mem (hostKey (slot + 16)) 2 → a = readNat s.mem (hostKey (slot + 32)) 8 → Apart r a →
      n = 0 ∨ 7 ≤ n → ∃ s', exec (.ringSvc dev vf ring) s = .next s' ∧ Consumed s s' r ∧
        readNat s'.mem (hostKey a) 8 = if n = 0 then 0 else 2 ^ 63 + 1) ∧
    (r.pending = some 1 → ∀ a reply, a = readNat s.mem (hostKey (slot + 16)) 8 → reply = readNat s.mem (hostKey (slot + 24)) 8 →
      (createNode s dev vf (readBytes s.mem (hostKey a) 832) = .full → exec (.ringNode dev vf ring) s = .next s) ∧
      (createNode s dev vf (readBytes s.mem (hostKey a) 832) = .refused → reply ≠ 0 → Apart r reply →
        ∃ s', exec (.ringNode dev vf ring) s = .next s' ∧ Consumed s s' r ∧ readNat s'.mem (hostKey reply) 8 = 2 ^ 64 - 0xC78) ∧
      (∀ s1 e ident, createNode s dev vf (readBytes s.mem (hostKey a) 832) = .made s1 e ident → s1.mem = s.mem → reply ≠ 0 →
        ident < 2 ^ 64 → Apart r reply → Apart r (a + 0x78) → (reply + 8 ≤ a + 0x78 ∨ a + 0x80 ≤ reply) →
        ∃ s', exec (.ringNode dev vf ring) s = .next s' ∧ Consumed s s' r ∧ readNat s'.mem (hostKey reply) 8 = ident ∧
          readNat s'.mem (hostKey (a + 0x78)) 8 = ident)))

/-- R187, R189, R212, R280, R313, R337: a host write stores its bytes, and no other where its line was last written under the same
key slot; a host read answers them; an AtomicOp answers the old value and leaves the new one. -/
def Sys2Proof.Spec.HostAccesses : Prop :=
  ∀ s a k n, HostKey s a k → n = 2 ^ (8 * a.size) →
    (∃ s', exec (.hostBarWrite a) s = .next s' ∧ readNat s'.mem k a.size = a.data.toNat % n ∧
      (OwnLine s k → OnlyBytes s s' k a.size)) ∧
    (tget s.errors (errLine k) = none → ∀ old, old = readNat s.mem k a.size →
      exec (.hostBarRead a) s = .next { s with answer := some old } ∧
      (4 ≤ a.size → ∀ op, ∃ s', exec (.hostAtomicop a op) s = .next s' ∧ s'.answer = some old ∧
        (OwnLine s k → OnlyBytes s s' k a.size) ∧
        readNat s'.mem k a.size = match op with
          | .fetchAdd => (old + a.data.toNat) % n
          | .swap => a.data.toNat % n
          | .cas => if old = a.compare.toNat % n then a.data.toNat % n else old)) ∧
    (tget s.errors (errLine k) ≠ none → exec (.hostBarRead a) s = .next { s with answer := none } ∧
      ∀ op, exec (.hostAtomicop a op) s = .next { s with answer := none })

/-- R329, R332, R334: bring-up status, telemetry, the power limit and the error counters answer over I3C at every device with power,
and over BAR 0 only where the link is up, which it is not in recovery mode; the root core's mailbox answers over BAR 0 alone. What the
registers hold besides is log 27. -/
def Sys2Proof.Spec.ManagementAccesses : Prop :=
  ∀ s (a : HostAccess) dev i3c reg, a.place = .mgmt dev i3c reg →
    ((i3c = true ∧ dev < s.fabric.devices ∧ (devOf s dev).powered = true) ∨ LinkUp s dev →
      exec (.hostBarRead a) s = .next { s with answer := match reg with
        | .step => some (devOf s dev).bringup
        | .recovery => some (if (devOf s dev).recovery = true then 1 else 0)
        | .power => some (devOf s dev).watts
        | .sensor n => (devOf s dev).temps[n]?
        | .limit => some (devOf s dev).limit
        | .corrected vf => if vf ≤ 16 then some (tgetD (devOf s dev).vfcores vf {}).corrected else none
        | .uncorrected => some (devOf s dev).errors.length
        | .mailbox => if i3c = true then none else some (devOf s dev).mailbox } ∧
      (reg = .limit → ∃ s', exec (.hostBarWrite a) s = .next s' ∧ (devOf s' dev).limit = a.data.toNat ∧ s'.mem = s.mem) ∧
      (reg = .mailbox → i3c = false → ∃ s', exec (.hostBarWrite a) s = .next s' ∧ (devOf s' dev).mailbox = a.data.toNat ∧ s'.mem = s.mem)) ∧
    (i3c = false → ¬LinkUp s dev → exec (.hostBarRead a) s = .next { s with answer := none } ∧ exec (.hostBarWrite a) s = .next s)

/-- R290, R313: BAR 0 of a VF: what the host writes to the MSI-X table and to the debug mailbox it reads again; the first word of the
mailbox tells whether the last debug command was carried out, which is the model's choice (log 27). -/
def Sys2Proof.Spec.VfBarAccesses : Prop :=
  ∀ s (a : HostAccess) dev vf off, a.place = .vfBar dev vf off → vf < 16 → a.size ∈ [1, 2, 4, 8] →
    (LinkUp s dev → (0x8000 ≤ off ∧ off + a.size ≤ 0x8400) ∨ (0x2008 ≤ off ∧ off + a.size ≤ 0x2010) →
      ∃ s', exec (.hostBarWrite a) s = .next s' ∧ s'.mem = s.mem ∧
        exec (.hostBarRead a) s' = .next { s' with answer := some (a.data.toNat % 2 ^ (8 * a.size)) }) ∧
    (LinkUp s dev → off = 0x2000 → exec (.hostBarRead a) s = .next { s with
      answer := some (if (vfOf s dev vf).status = some true then 1 else 0) }) ∧
    (¬LinkUp s dev → exec (.hostBarRead a) s = .next { s with answer := none } ∧ exec (.hostBarWrite a) s = .next s)

/-- R187, R189, R212, R247, R266, R280, R290, R313, R315 to R320, R329, R332, R334, R337: the rings of the firmware, and what the host
reads and writes. -/
def Obligations.RingsAndHost : Prop := Spec.FirmwareRings ∧ Spec.HostAccesses ∧ Spec.ManagementAccesses ∧ Spec.VfBarAccesses

namespace Sys2Proof.Spec

/-! ### The debug unit (R286 to R291) -/

/-- R287, R290: a halted team that continues: its next instruction matches no breakpoint. -/
def resumed (t : Team) : Team := { t with halt := none, stepping := false, running := false, skipBreak := true }

/-- R286: what detaching the debugger leaves in a team. -/
def released (t : Team) : Team :=
  { (if t.halt = none then t else resumed t) with detach := none, under := [], made := 0, haltDue := false }

/-- R290: what DETACH leaves: the lane is out of the mask; the lane detached before it waits under it, and its part of an instruction that
is under way stays made (log 28, DEDUCED). -/
def parted (t : Team) (l : Nat) : Team :=
  { t with mask := t.mask &&& ~~~(1#1024 <<< l), detach := some ⟨l, t.pc, t.frames.length⟩,
           under := t.detach.toList ++ t.under, made := t.made ||| (t.served &&& (1#1024 <<< l)) }

/-- R290: what ATTACH leaves: the lane is in the mask again. -/
def rejoined (t : Team) (l : Nat) : Team :=
  { t with mask := t.mask ||| (1#1024 <<< l), detach := t.under.head?, under := t.under.tail, made := t.made &&& ~~~(1#1024 <<< l) }

/-- R290, R31: HALT finds a team between two instructions, or blocked. -/
def haltsNow (t : Team) : Prop := t.wait ≠ .none ∨ t.swept = 0 ∧ t.served = 0

/-- R291: some of the instructions that LSTEP does not accept. -/
def NotStepped (i : Instr) : Prop :=
  i = .exit ∨ (∃ o, i = .shfl o) ∨ (∃ o, i = .voteAny o) ∨ (∃ o, i = .call o) ∨ (∃ o, i = .kadd o) ∨ (∃ o, i = .kld o) ∨
    (∃ o, i = .barArv o) ∨ (∃ o, i = .tagWait o) ∨ (∃ o, i = .tlWait o) ∨ (∃ o, i = .oalloc o) ∨ ∃ o, i = .xld o

/-- The team as if its detached lane were alone. -/
def alone (t : Team) (l : Nat) : Team := { t with mask := 1#1024 <<< l }

/-- R290: a command has been answered in the mailbox of the VF of a context: carried out or not. -/
def told (s : State) (c : Ctx) (ok : Bool) : State := modVf s c.dev c.vf fun v => { v with status := some ok }

/-- R290: a command is refused: it changes nothing and its status says so. -/
def Refused (s : State) (c : Ctx) (i : Instr) : Prop := exec i s = .next (told s c false)

/-- R290: a command is carried out: its team is `t'` now, its status says so, and nothing else changes. -/
def Commanded (s : State) (c : Ctx) (id : Nat) (i : Instr) (t' : Team) : Prop := exec i s = .next (told (putTeam s id t') c true)

/-- R289: READ answers a value. -/
def ReadsAs (s : State) (c : Ctx) (id : Nat) (what : DbgLoc) (x : Nat) : Prop :=
  exec (.debugRead id what) s = .next (told { s with answer := some x } c true)

end Sys2Proof.Spec

/-- R286, R291: attaching clears the debug registers; detaching clears every EN, resumes every halted team and detaches no lane any
more; a path that a detached lane left empty has ended. HALT: at once between two instructions and for a blocked team, else where the
instruction under way ends. -/
def Sys2Proof.Spec.AttachAndDetach : Prop :=
  ∀ s ctx c, tget s.ctxs ctx = some c →
    (c.attached = false → exec (.debuggerAttach ctx) s = .next (putCtx s ctx
      { c with attached := true, dba := [], dbc := [], dwb := [], dwl := [], dwc := [] })) ∧
    ((∀ x ∈ ctxTeams s c, (x.2.detach = none ∧ x.2.halt = none) ∨ x.2.mask ≠ 0 ∨ x.2.ended = true) → ∃ s' c', exec (.debuggerDetach ctx) s = .next s' ∧ s'.mem = s.mem ∧
      tget s'.ctxs ctx = some c' ∧ c' = { c with attached := false, dbc := c'.dbc, dwc := c'.dwc } ∧
      (∀ i w, tget c.dbc i = some w → tget c'.dbc i = some (w &&& ~~~1#32)) ∧
      (∀ i w, tget c.dwc i = some w → tget c'.dwc i = some (w &&& ~~~1#32)) ∧
      ∀ x ∈ ctxTeams s c, tget s'.teams x.1 = some (released x.2)) ∧
    (∀ id t d f fs p ps, ctxTeams s c = [(id, t)] → t.detach = some d → t.mask = 0 → t.ended = false → t.frames = f :: fs →
      f.pending = p :: ps → ∃ s', exec (.debuggerDetach ctx) s = .next s' ∧
        tget s'.teams id = some (onPath (released t) p.pc p.lanes ({ f with pending := ps } :: fs))) ∧
    ∀ team, ∃ s', exec (.dbgHalt team ctx) s = .next s' ∧ s'.mem = s.mem ∧ s'.ctxs = s.ctxs ∧
      (vfOf s' c.dev c.vf).status = some true ∧ ∀ x ∈ ctxTeams s c,
      ((team = none ∨ team = some x.1) → x.2.ended = false → x.2.halt = none →
        (haltsNow x.2 → tget s'.teams x.1 = some { x.2 with halt := some (0x304, 0), running := false }) ∧
        (¬haltsNow x.2 → tget s'.teams x.1 = some { x.2 with haltDue := true })) ∧
      (¬(team = none ∨ team = some x.1) ∨ x.2.ended = true ∨ x.2.halt ≠ none → tget s'.teams x.1 = some x.2)

/-- R290, R291: RESUME, STEP, DETACH, ATTACH and RUNTO change where a team stands and nothing else; one whose condition does not
hold is refused; RUNTO ends where the team reaches the debug PC or its path's frame is popped. -/
def Sys2Proof.Spec.Commands : Prop :=
  ∀ s id t b c n, viewOf s id = some ⟨t, b, c, n⟩ →
    (t.halt ≠ none → t.detach = none → t.mask ≠ 0 → Commanded s c id (.dbgResume id) (resumed t) ∧
      Commanded s c id (.dbgStep id) { resumed t with stepping := true }) ∧
    (t.halt = none ∨ t.detach ≠ none → Refused s c (.dbgResume id) ∧ Refused s c (.dbgStep id)) ∧
    (∀ l, (t.halt ≠ none → t.mask.getLsbD l = true → Commanded s c id (.dbgDetach id l) (parted t l)) ∧
      (t.halt = none ∨ t.mask.getLsbD l = false → Refused s c (.dbgDetach id l))) ∧
    (∀ d, t.detach = some d →
      (d.pc = t.pc → Commanded s c id (.dbgAttach id) (rejoined t d.lane)) ∧
      (d.pc ≠ t.pc → Refused s c (.dbgAttach id)) ∧
      (t.mask ≠ 0 → Commanded s c id (.runto id) { (if t.halt = none then t else resumed t) with running := true })) ∧
    (t.detach = none → Refused s c (.dbgAttach id) ∧ Refused s c (.runto id) ∧ Refused s c (.lstep id)) ∧
    (∀ d, t.running = true → t.detach = some d → (t.frames.length < d.depth ∨ (t.pc = d.pc ∧ t.frames.length = d.depth)) →
      exec (.runtoReached id) s = .next (putTeam s id { t with running := false, halt := some (0x302, 0) })) ∧
    (t.running = false → exec (.runtoReached id) s = .next s)

/-- R291: LSTEP executes the instruction at the debug PC for the detached lane alone: an integer form writes that lane and moves the debug PC;
an undecodable instruction, or a predicate that holds an uncorrectable error (R280), is the reason the team halts for; a lane whose part has
been made moves past it (log 28, DEDUCED); an instruction that LSTEP does not accept is refused. -/
def Sys2Proof.Spec.LaneStep : Prop :=
  ∀ s id t b c n d, viewOf s id = some ⟨t, b, c, n⟩ → t.ended = false → t.detach = some d → d.lane < 1024 →
    (∀ x len i L, fetchWord ⟨t, b, c, n⟩ d.pc = .ok (x, len) → decodeWord x = .ok i →
      (shortInt i = some L ∨ longInt i = some L ∨ immInt i = some L) → t.made.getLsbD d.lane = false →
      Operands (alone t d.lane) [(L.vd, L.wd)] L.src [] [] (L.reads (alone t d.lane)) →
      (∀ p, badPred (alone t d.lane) x i = some p → Commanded s c id (.lstep id) { t with halt := some (0x2C6, BitVec.ofNat 32 p) }) ∧
      (badPred (alone t d.lane) x i = none → ∃ s' t' f, exec (.lstep id) s = .next s' ∧ s'.mem = s.mem ∧ tget s'.teams id = some t' ∧
        (vfOf s' c.dev c.vf).status = some true ∧
        (∀ l, L.on (alone t d.lane) l → L.res t l (f l)) ∧ WroteLanes t t' L.vd L.wd (L.on (alone t d.lane)) f ∧
        t' = { t with v := t'.v, bad := t'.bad, detach := some { d with pc := d.pc + BitVec.ofNat 64 L.len } })) ∧
    (∀ x len i L, fetchWord ⟨t, b, c, n⟩ d.pc = .ok (x, len) → decodeWord x = .ok i →
      (shortInt i = some L ∨ longInt i = some L ∨ immInt i = some L) → t.made.getLsbD d.lane = true →
      Commanded s c id (.lstep id)
        { t with made := t.made &&& ~~~(1#1024 <<< d.lane), detach := some { d with pc := d.pc + BitVec.ofNat 64 L.len } }) ∧
    (∀ x len, fetchWord ⟨t, b, c, n⟩ d.pc = .ok (x, len) →
      (decodeWord x = .bad .major → Commanded s c id (.lstep id) { t with halt := some (0, BitVec.ofNat 32 x) }) ∧
      (decodeWord x = .bad .minor → Commanded s c id (.lstep id) { t with halt := some (1, BitVec.ofNat 32 x) }) ∧
      (decodeWord x = .bad .field → Commanded s c id (.lstep id) { t with halt := some (2, BitVec.ofNat 32 x) }) ∧
      (∀ i, NotStepped i → decodeWord x = .ok i → Refused s c (.lstep id)))

/-- R286, R289, R290: READ and WRITE of a halted team's registers, predicates, uniform registers, pc and tile registers, and of the debug
registers of an attached slot; the state of a team that runs is neither read nor written. Its frames and call entries are read and
written too; that an odd join, pending-path or return address loses its bit 0 is log 28 (DESIGN CHOICE). -/
def Sys2Proof.Spec.ReadAndWrite : Prop :=
  ∀ s id t b c n, viewOf s id = some ⟨t, b, c, n⟩ →
    (t.halt ≠ none →
      (∀ l k, l < t.size → k < 128 → ReadsAs s c id (.lane l k) (vget t l k).toNat ∧
        ∀ x, ∃ t', Commanded s c id (.debugWrite id (.lane l k) x) t' ∧ (k ≠ 0 → vget t' l k = x.setWidth 32) ∧
          (∀ l' k', k' < 128 → ¬(l' = l ∧ k' = k) → vget t' l' k' = vget t l' k') ∧ t' = { t with v := t'.v, bad := t'.bad }) ∧
      (∀ l k, l < t.size → k < 8 → ReadsAs s c id (.pred l k) (if pget t l k = true then 1 else 0) ∧
        ∀ x, ∃ t', Commanded s c id (.debugWrite id (.pred l k) x) t' ∧ (k ≠ 0 → pget t' l k = x.getLsbD 0) ∧
          (∀ l' k', k' < 8 → ¬(l' = l ∧ k' = k) → pget t' l' k' = pget t l' k') ∧ t' = { t with p := t'.p, badP := t'.badP }) ∧
      (∀ k, k < 64 → ReadsAs s c id (.uniform k) (kget t k).toNat ∧
        ∀ x, ∃ t', Commanded s c id (.debugWrite id (.uniform k) x) t' ∧ WroteUniform t t' k (x.setWidth 32) ∧
          t' = { t with k := t'.k, badK := t'.badK }) ∧
      ReadsAs s c id .pc t.pc.toNat ∧ (∀ x, Commanded s c id (.debugWrite id .pc x) { t with pc := x &&& ~~~1#64 }) ∧
      ∀ k, k < 16 → ReadsAs s c id (.tileLoaded k) (if (tget t.x k).isSome = true then 1 else 0) ∧
        ∀ x, ∃ t', Commanded s c id (.debugWrite id (.tileLoaded k) x) t' ∧ (tget t'.x k).isSome = x.getLsbD 0 ∧
          (∀ j, j ≠ k → tget t'.x j = tget t.x j) ∧ t' = { t with x := t'.x, xu := t'.xu, badX := t'.badX }) ∧
    (t.halt ≠ none → ReadsAs s c id .frames t.frames.length ∧ ReadsAs s c id .calls t.calls.length ∧
      (∀ k f, t.frames[k]? = some f → ReadsAs s c id (.frameJoin k) f.join.toNat ∧ ReadsAs s c id (.frameSize k) f.pending.length ∧
        ∀ x : Dbl, Commanded s c id (.debugWrite id (.frameJoin k) x) { t with frames := t.frames.set k { f with join := (x &&& ~~~1#64) } } ∧
          (8 < x.toNat → Refused s c (.debugWrite id (.frameSize k) x)) ∧
          (x.toNat ≤ 8 → ∃ ps, Commanded s c id (.debugWrite id (.frameSize k) x) { t with frames := t.frames.set k { f with pending := ps } } ∧
            ps.length = x.toNat ∧ ∀ j, j < x.toNat → j < f.pending.length → ps[j]? = f.pending[j]?)) ∧
      (∀ k e, t.calls[k]? = some e → ReadsAs s c id (.callAddr k) e.ret.toNat ∧
        ∀ x, Commanded s c id (.debugWrite id (.callAddr k) x) { t with calls := t.calls.set k { e with ret := (x &&& ~~~1#64) } }) ∧
      ∀ k x, t.frames.length ≤ k → Refused s c (.debugWrite id (.frameJoin k) x) ∧ Refused s c (.debugWrite id (.frameSize k) x)) ∧
    (t.halt = none → ∀ l k x what, what = .lane l k ∨ what = .uniform k ∨ what = .pc ∨ what = .tileLoaded k →
      exec (.debugRead id what) s = .next (told { s with answer := none } c false) ∧ Refused s c (.debugWrite id what x)) ∧
    (∀ i, i < 8 → ReadsAs s c id (.dba i) (tgetD c.dba i 0).toNat ∧
      (c.attached = true → ∀ x, exec (.debugWrite id (.dba i) x) s =
          .next (told (putCtx s b.ctx { c with dba := tput c.dba i (x &&& ~~~1#64) }) c true) ∧
        exec (.debugWrite id (.dbc i) x) s =
          .next (told (putCtx s b.ctx { c with dbc := tput c.dbc i (x.setWidth 32 &&& 0xFF) }) c true)) ∧
      (c.attached = false → ∀ x, Refused s c (.debugWrite id (.dba i) x)))

/-- R286 to R291: the debug unit. -/
def Obligations.DebugUnit : Prop := Spec.AttachAndDetach ∧ Spec.Commands ∧ Spec.LaneStep ∧ Spec.ReadAndWrite

namespace Sys2Proof.Spec

/-! ### The package (R176, R197, R261, R262, R267, R268, R275, R280, R297, R314, R323, R331 to R333) -/

/-- R314, R275: the VF of an event: one, or every VF of the device. -/
def OfVf (vf : Option Nat) (v : Nat) : Prop := vf = none ∨ vf = some v

/-- R280: the cause of an uncorrectable error in DRAM: tier 2 where the object, or the device's memory, is kept there, otherwise a
pile. -/
def DramCause (s : State) (line cause : Nat) : Prop :=
  (∀ site e, homeOf s (line * 64 / 2 ^ 34 % 2 ^ 29) = some (site, e) → line * 64 < 2 ^ 64 →
    cause = if e.tier2 = true then 0x2C1 else 0x2C0) ∧
  (homeOf s (line * 64 / 2 ^ 34 % 2 ^ 29) = none ∧ line * 64 < 2 ^ 64 ∨ 600 * 2 ^ 64 ≤ line * 64 → cause = 0x2C0) ∧
  (cause = 0x2C0 ∨ cause = 0x2C1)

/-- The device whose memory holds a byte: an object's home, or the device of a physical address. -/
def LineDevice (s : State) (key dev : Nat) : Prop :=
  (key < 2 ^ 64 ∧ ∃ e, reg s (key / 2 ^ 34 % 2 ^ 29) = some e ∧ e.site / 2 = dev) ∨
  ∃ a, key = (1 + dev) * 2 ^ 64 + a ∧ a < 2 ^ 64 ∧ dev < 512

/-- R329: the firmware images of a step of bring-up: root firmware in step 1, that of the 16 VFs in step 6; each is signed and none is
below the rollback counter. -/
def Verified (dev step : Nat) (images : List FwImage) : Prop :=
  images.length = (if step = 1 then 1 else if step = 6 then 16 else 0) ∧
  ∀ x ∈ images, Config.verifies dev x.digest x.sig = true ∧ Config.rollback dev ≤ x.version

/-- No context of a device occupies a slot of a cluster. -/
def ClusterEmpty (s : State) (dev c : Nat) : Prop :=
  ∀ x ∈ s.ctxs, x.2.dev = dev → x.2.die * 16 + x.2.core / 8 = c → x.2.state = .saved ∨ x.2.state = .left

/-- R280, R323: whose counter a corrected error of DRAM is counted in: that of the first VF whose key slot the line is under; 16, of the
PF, when it is no VF's (log 29). -/
def CountsAt (s : State) (key v : Nat) : Prop :=
  (∀ r, lineReport s (errLine key) = some r →
    (v < 16 ∧ vfKey (r.site / 2) v = r.slot ∧ ∀ w, w < v → vfKey (r.site / 2) w ≠ r.slot) ∨
    (v = 16 ∧ ∀ w, w < 16 → vfKey (r.site / 2) w ≠ r.slot)) ∧
  (lineReport s (errLine key) = none → v = 16)

/-- R323: a report has reached the PF and the VF that owns its key slot. -/
def Reported (s s' : State) (dev : Nat) (r : LineReport) : Prop :=
  r ∈ (devOf s' dev).errors ∧ (∀ vf, vf < 16 → vfKey dev vf = r.slot → r ∈ (vfOf s' dev vf).lines) ∧ s'.errors = s.errors ∧ s'.mem = s.mem

/-- R280: a die's L2 holds a copy of a line with an uncorrectable error. -/
def BadCopy (s : State) (site line : Nat) : Prop := tget (siteOf s site).l2 line ≠ none ∧ line ∈ (siteOf s site).l2bad

/-- A line with an uncorrectable error in all of its bytes. -/
def Spoiled (s : State) (line cause : Nat) : State := { s with errors := tput s.errors line ⟨cause, 0xFFFFFFFFFFFFFFFF⟩ }

end Sys2Proof.Spec

/-- R275, R314, R331: a VF core reset gives the teams that wait in SYS or LAUNCH 0x3C0 and lets the rings go on; a kill ends every team with
0x384 and marks units and launches failed; a revoked key slot leaves no byte written under it readable and touches no other. -/
def Sys2Proof.Spec.ResetsAndKills : Prop :=
  (∀ s dev vf, ∃ s', exec (.vfCoreReset dev vf) s = .next s' ∧
    (∀ i r, tget (vfOf s dev vf).rings i = some r → tget (vfOf s' dev vf).rings i = some { r with pending := none }) ∧
    (∀ id t entry, (s.ctxs.filter fun x => decide (x.2.dev = dev ∧ x.2.vf = vf)).flatMap (fun x => ctxTeams s x.2) = [(id, t)] →
      Trappable { s with cur := id } t entry →
      (t.wait = .sys ∨ t.wait = .launch → tget s'.teams id = some (trapped t entry 0x3C0 0 t.pc)) ∧
      (∀ w x len o, t.wait = .page ∨ t.wait = .move ∨ t.wait = .queued → viewOf s id = some w → fetchWord w t.pc = .ok (x, len) →
        (decodeWord x = .sys o ∨ ∃ l, decodeWord x = .ok (.launch l)) → tget s'.teams id = some (trapped t entry 0x3C0 0 t.pc)) ∧
      (t.wait ∉ [.sys, .launch, .page, .move, .queued] → s'.teams = s.teams))) ∧
  (∀ s dev vf, (∀ x ∈ s.nodes, ¬(x.2.dev = dev ∧ OfVf vf x.2.vf)) → (∀ x ∈ s.nodes, x.2.state ≠ .waiting) →
    ∃ s', exec (.kill dev vf) s = .next s' ∧ s'.mem = s.mem ∧ s'.teams = s.teams ∧
      ∀ i u, tget (devOf s dev).units i = some u → OfVf vf u.vf → u.final = false →
        ∃ u', tget (devOf s' dev).units i = some u' ∧ u'.failed = true ∧ (u.cause = none → u'.cause = some 0x384)) ∧
  (∀ s dev vf key n id t blk b, s.nodes = [(key, n)] → n.dev = dev → OfVf vf n.vf → n.state = .running → n.left < n.next →
    s.blocks = [(blk, b)] → b.node = key → b.teams = [id] → b.provisional = false → tget s.teams id = some t → t.block = blk →
    t.ended = false → s.colls = [] → (∀ x ∈ s.ctxs, x.2.state ∉ [.saved, .assigned, .streamingIn]) → ∃ s' t' n', exec (.kill dev vf) s = .next s' ∧
      tget s'.teams id = some t' ∧ t'.ended = true ∧ t'.trapcause = 0x384 ∧ tget s'.nodes key = some n' ∧ n'.failing = true) ∧
  (∀ s dev vf key n, s.nodes = [(key, n)] → n.dev = dev → OfVf vf n.vf → n.state = .waiting ∨ n.state = .ready →
    n.desc.notify = false → ∃ s', exec (.kill dev vf) s = .next s' ∧ tget s'.nodes key = none ∧
      ∀ u, tget (devOf s dev).units n.ident = some u → ∃ u', tget (devOf s' dev).units n.ident = some u' ∧ u'.final = true ∧
        u'.failed = true) ∧
  (∀ s dev slot, (0 < slot → slot < 64 → LinkUp s dev → slot ∉ (devOf s dev).revoked → ∃ s', exec (.keySlotRevoke dev slot) s = .next s' ∧
      (devOf s' dev).revoked = slot :: (devOf s dev).revoked ∧
      ∀ k, ¬(slotKey dev slot 0 ≤ k ∧ k < slotKey dev (slot + 1) 0) → (∀ site ∈ [2 * dev, 2 * dev + 1], ∀ o ∈ (siteOf s site).objects, o.2.key = slot →
          k < 2 ^ 63 + o.1 * 2 ^ 34 ∨ 2 ^ 63 + o.1 * 2 ^ 34 + o.2.size ≤ k) → readByte s'.mem k = readByte s.mem k) ∧
    (slot = 0 ∨ 64 ≤ slot ∨ slot ∈ (devOf s dev).revoked ∨ ¬LinkUp s dev → exec (.keySlotRevoke dev slot) s = .next s))

/-- R197, R280, R323: frames retire; scrubbing reports a line and its key slot; a corrected error is counted and an uncorrectable one marks
its place with its cause; an evicted line is dropped. That a day is the last 86,400 s is log 16, and that the PF counts what is under no
VF's key slot is log 29 (choices of the model). -/
def Sys2Proof.Spec.FramesAndErrors : Prop :=
  (∀ s site frame, site < 2 * s.fabric.devices → LinkUp s (site / 2) →
    (frame < tierSize true → frame ∉ (siteOf s site).retired2 → exec (.frameRetire site ⟨true, frame⟩) s = .next { s with
      sites := tput s.sites site { siteOf s site with retired2 := frame :: (siteOf s site).retired2 } }) ∧
    (frame < tierSize false → frame ∉ (siteOf s site).retired1 → exec (.frameRetire site ⟨false, frame⟩) s = .next { s with
      sites := tput s.sites site { siteOf s site with retired1 := frame :: (siteOf s site).retired1 } })) ∧
  (∀ s site f, ¬LinkUp s (site / 2) → exec (.frameRetire site f) s = .next s) ∧
  (∀ s dev line r, lineReport s line = some r →
    (tget s.errors line = none ∨ r.site / 2 ≠ dev → (∀ site, site / 2 = dev → ¬BadCopy s site line) →
      exec (.patrolScrub dev line) s = .next s) ∧
    (tget s.errors line ≠ none → r.site / 2 = dev → ∃ s', exec (.patrolScrub dev line) s = .next s' ∧ Reported s s' dev r) ∧
    (∀ site, site / 2 = dev → BadCopy s site line →
      ∃ s', exec (.patrolScrub dev line) s = .next s' ∧ Reported s s' dev { r with site := site }) ∧
    (∀ site e, homeOf s (line * 64 / 2 ^ 34 % 2 ^ 29) = some (site, e) → line * 64 < 2 ^ 64 →
      r.site = site ∧ r.tier2 = e.tier2 ∧ r.slot = e.key)) ∧
  (∀ s key, (∃ cause, DramCause s (errLine key) cause ∧
      exec (.softError (.line key) false) s = .next (Spoiled s (errLine key) cause)) ∧
    (∀ dev, LineDevice s key dev → ∃ s' frame v, CountsAt s key v ∧ exec (.softError (.line key) true) s = .next s' ∧ s'.mem = s.mem ∧
      s'.errors = s.errors ∧ (vfOf s' dev v).corrected = (vfOf s dev v).corrected + 1 ∧
      ∀ times, times = clock s dev :: (tgetD (devOf s dev).frameErrs frame []).filter
          (fun t => decide (clock s dev < t + 60480000000000)) →
        tgetD (devOf s' dev).frameErrs frame [] = times ∧
        (16 ≤ times.length → frame ∈ (devOf s' dev).frameAdvisories))) ∧
  (∀ s id t n, tget s.teams id = some t → 0 < n →
    (n < 64 → n ∉ t.badK → exec (.softError (.uniform id n) false) s = .next (putTeam s id { t with badK := t.badK ++ [n] })) ∧
    (n < 8 → n ∉ t.badA → exec (.softError (.handle id n) false) s = .next (putTeam s id { t with badA := t.badA ++ [n] })) ∧
    (n < 16 → n ∉ t.badX → exec (.softError (.tile id n) false) s = .next (putTeam s id { t with badX := t.badX ++ [n] })) ∧
    (∀ l, n < 8 → l < t.size → l * 8 + n ∉ t.badP →
      exec (.softError (.pred id l n) false) s = .next (putTeam s id { t with badP := t.badP ++ [l * 8 + n] }))) ∧
  (∀ s id t b c n l k, viewOf s id = some ⟨t, b, c, n⟩ → 0 < k → k < 128 → l < t.size → l * 128 + k ∉ t.bad →
    exec (.softError (.laneReg id l k) false) s = .next (putTeam s id { t with bad := t.bad ++ [l * 128 + k] }) ∧
    exec (.softError (.laneReg id l k) true) s = .next (modVf s c.dev c.vf fun v => { v with corrected := v.corrected + 1 })) ∧
  (∀ s block off, exec (.softError (.spad block off) false) s = .next (Spoiled s (spadKey block off / 64) 0x2C5)) ∧
  (∀ s site line, (tget (siteOf s site).l2 line ≠ none → line ∉ (siteOf s site).l2bad → exec (.softError (.l2 site line) false) s =
      .next { s with sites := tput s.sites site { siteOf s site with l2bad := (siteOf s site).l2bad ++ [line] } }) ∧
    (tget (siteOf s site).l2 line = none → LineDevice s (line * 64) (site / 2) →
      exec (.softError (.l2 site line) false) s = .next (Spoiled s line 0x2C2)) ∧
    exec (.softError (.tabor site line) false) s = .next (Spoiled s line 0x2C4)) ∧
  (∀ s ctx k c, tget s.ctxs ctx = some c → k < 4 → k ∉ c.badBooks →
    exec (.softError (.book ctx k) false) s = .next (putCtx s ctx { c with badBooks := c.badBooks ++ [k] })) ∧
  (∀ s ctx slot c x, tget s.ctxs ctx = some c → tget c.slots slot = some x → exec (.softError (.acc ctx slot) false) s =
    .next (putCtx s ctx { c with slots := tput c.slots slot { x with bad := true } })) ∧
  (∀ s plane port m r, tget s.fabric.records ((plane * 512 + port) * 4096 + m) = some r → ∃ s',
    exec (.softError (.record plane port m) false) s = .next s' ∧
    tget s'.fabric.records ((plane * 512 + port) * 4096 + m) = some { r with bad := true }) ∧
  (∀ s ctx c line, tget s.ctxs ctx = some c →
    exec (.lineEviction true ctx line) s = .next (putCtx s ctx { c with l1 := tdel c.l1 line })) ∧
  (∀ s site line, exec (.lineEviction false site line) s = .next { s with
    sites := tput s.sites site { siteOf s site with
      l2 := tdel (siteOf s site).l2 line, l2bad := (siteOf s site).l2bad.filter (· ≠ line) } })

/-- R176, R261, R262, R267, R268, R297, R315: the configuration registers, whose reserved bits keep their value; a node of system
software is made of a descriptor in host memory (log 48, DESIGN CHOICE). -/
def Sys2Proof.Spec.Registers : Prop :=
  ∀ s (x : Word) dev,
    (∀ site, LinkUp s (site / 2) → site < 2 * s.fabric.devices → exec (.registerWrite (.osite site) x) s = .next { s with
      sites := tput s.sites site { siteOf s site with osite := x &&& 0xFFFF } }) ∧
    (∀ plane port, plane < 32 → port < 512 → ∃ s', exec (.registerWrite (.slctl plane port) x) s = .next s' ∧
      slctlOf s' plane port = x &&& 0x000100FF ∧ s'.mem = s.mem) ∧
    (¬LinkUp s dev → ∀ vf lvl, exec (.registerWrite (.vfsch dev vf) x) s = .next s ∧
      exec (.registerWrite (.age dev lvl) x) s = .next s ∧ exec (.registerWrite (.reservation dev) x) s = .next s ∧
      exec (.registerWrite (.collCores dev) x) s = .next s) ∧
    (LinkUp s dev → ∀ vf,
      (vf < 16 → exec (.registerWrite (.vfsch dev vf) x) s = .next (putDev s dev
        { devOf s dev with vfsch := tput (devOf s dev).vfsch vf (x &&& 0xFFFFFFC0) })) ∧
      (∀ lvl, lvl < 40 → x.toNat < 65536 → exec (.registerWrite (.age dev lvl) x) s = .next (putDev s dev
        { devOf s dev with age := tput (devOf s dev).age lvl x.toNat })) ∧
      exec (.registerWrite (.reservation dev) x) s = .next (putDev s dev { devOf s dev with reservation := x.toNat }) ∧
      (x.toNat ≤ 16 → x.toNat % 8 = 0 → s.colls = [] → exec (.registerWrite (.collCores dev) x) s = .next (putDev s dev
        { devOf s dev with collCores := x.toNat })) ∧
      (∀ die core cs, die < 2 → core < 128 → vf < 16 → tget (devOf s dev).partitions vf = some cs →
        ∃ s' cs', exec (.registerWrite (.partition dev die core vf) x) s = .next s' ∧ tget (devOf s' dev).partitions vf = some cs' ∧
          ∀ y, y ∈ cs' ↔ (if y = die * 16 + core / 8 then x.getLsbD 0 = true else y ∈ cs)) ∧
      (∀ ring control, vf < 16 → ring < 8 → control % 64 = 0 → ∃ s', exec (.registerWrite (.ring dev vf ring control) x) s = .next s' ∧
        tget (vfOf s' dev vf).rings ring = if x.getLsbD 0 = true then some { control := control } else none) ∧
      (∀ d s' k i, fwUp s dev = true → createNode s dev 16 (readBytes s.mem (hostKey d) 832) = .made s' k i →
        exec (.registerWrite (.systemNode dev d) x) s = .next (writeHost s' (d + 0x78) 8 i)) ∧
      (∀ key ctx base bytes, key < 2 ^ 32 → tget (devOf s dev).runnel.regs key = none → ∃ s',
        exec (.registerWrite (.region dev key ctx base bytes) x) s = .next s' ∧
        tget (devOf s' dev).runnel.regs key = some { base := base, bytes := bytes, ctx := ctx }))

/-- R329, R332, R333: bring-up advances step by step or ends in recovery mode; samples are taken; over a limit a cluster of each die is
gated, under both limits one is restored, and at 115 degrees the device stops and loses its power. Which cluster is log 29. -/
def Sys2Proof.Spec.PowerAndHeat : Prop :=
  (∀ s dev step images, dev < s.fabric.devices → (devOf s dev).powered = true → (devOf s dev).recovery = false →
    step = (devOf s dev).bringup + 1 → step ≤ 8 → step ≠ 1 →
    (∀ ok, ok = false ∨ ¬Verified dev step images →
      exec (.powerOn dev step ⟨ok, images⟩) s = .next (putDev s dev { devOf s dev with recovery := true })) ∧
    (Verified dev step images → ∃ s', exec (.powerOn dev step ⟨true, images⟩) s = .next s' ∧ s'.mem = s.mem ∧
      devOf s' dev = { devOf s dev with bringup := step, images := (devOf s dev).images ++ images } ∧
      (step = 7 → dev ∉ s'.fabric.absent) ∧ (step ≠ 7 → s'.fabric = s.fabric))) ∧
  (∀ s dev ok images, dev < s.fabric.devices → ∃ s', exec (.powerOn dev 1 ⟨ok, images⟩) s = .next s' ∧ (∀ x ∈ s'.ctxs, x.2.dev ≠ dev) ∧
    (∀ x ∈ s'.nodes, x.2.dev ≠ dev) ∧ dev ∈ s'.fabric.absent ∧
    (ok = true → Verified dev 1 images → devOf s' dev = { base := s'.now, bringup := 1, recovery := false, images := images }) ∧
    (ok = false ∨ ¬Verified dev 1 images → devOf s' dev = { base := s'.now, bringup := 0, recovery := true })) ∧
  (∀ s dev watts temps, ∃ held, exec (.powerSample dev watts temps) s =
    .next (putDev s dev { devOf s dev with watts := watts, temps := held }) ∧ held.length = 128 ∧
    ∀ i, i < 128 → held[i]? = (if i < temps.length then temps[i]? else some ((devOf s dev).temps.getD i 0))) ∧
  (∀ s dev, (∀ x ∈ (devOf s dev).temps, x < 100) → (devOf s dev).watts ≤ 2300 → exec (.thermalGateTick dev) s = .next s) ∧
  (∀ s dev, (∃ x ∈ (devOf s dev).temps, 100 ≤ x) ∨ 2300 < (devOf s dev).watts → (devOf s dev).gated = [] →
    (devOf s dev).gating = [] → (devOf s dev).collCores = 0 → ∃ s' c0 c1 d, exec (.thermalGateTick dev) s = .next s' ∧ c0 < 16 ∧
    16 ≤ c1 ∧ c1 < 32 ∧ d = devOf s' dev ∧ d = { devOf s dev with gated := d.gated, gating := d.gating } ∧
    ∀ c, (c ∈ d.gated ↔ (c = c0 ∨ c = c1) ∧ ClusterEmpty s dev c) ∧ (c ∈ d.gating ↔ (c = c0 ∨ c = c1) ∧ ¬ClusterEmpty s dev c)) ∧
  (∀ s dev, (∀ x ∈ (devOf s dev).temps, x < 90) → (devOf s dev).watts < 2200 →
    ((devOf s dev).gated = [] → exec (.thermalRestoreTick dev) s = .next s) ∧
    ((devOf s dev).gated ≠ [] → ∃ s' c, exec (.thermalRestoreTick dev) s = .next s' ∧ c ∈ (devOf s dev).gated ∧
      devOf s' dev = { devOf s dev with gated := (devOf s dev).gated.filter (· ≠ c) })) ∧
  (∀ s dev, (∃ x ∈ (devOf s dev).temps, 90 ≤ x) ∨ 2200 ≤ (devOf s dev).watts → exec (.thermalRestoreTick dev) s = .next s) ∧
  (∀ s dev, (∀ x ∈ (devOf s dev).temps, x < 115) → exec (.thermalTrip dev) s = .next s) ∧
  (∀ s dev x, x ∈ (devOf s dev).temps → 115 ≤ x → ∃ s', exec (.thermalTrip dev) s = .next s' ∧ (∀ y ∈ s'.ctxs, y.2.dev ≠ dev) ∧
    (∀ y ∈ s'.nodes, y.2.dev ≠ dev) ∧ (devOf s' dev).powered = false ∧ (devOf s' dev).bringup = 0 ∧ dev ∈ s'.fabric.absent)

/-- R176, R197, R261, R262, R267, R268, R275, R280, R297, R314, R323, R329, R331 to R333: the package. -/
def Obligations.ThePackage : Prop := Spec.ResetsAndKills ∧ Spec.FramesAndErrors ∧ Spec.Registers ∧ Spec.PowerAndHeat

namespace Sys2Proof.Spec

/-! ### The Runnel adapter (R324 to R328) -/

def runnel (s : State) (dev : Nat) : Runnel := (devOf s dev).runnel
def pair (s : State) (dev qp : Nat) : QueuePair := tgetD (runnel s dev).qps qp {}

/-- R325: how a receiver knows a message: the sender and the 48-bit identifier. -/
def messageKey (p : Packet) : Nat := p.src * 2 ^ 48 + p.msg % 2 ^ 48

/-- R324: the fields of a packet are inside their ranges: 32-bit key, 64-bit offset, 48-bit message, 1,024 packets of 4,096 bytes, and
a message of 4 MiB. -/
structure InRange (p : Packet) : Prop where
  key : p.key < 2 ^ 32
  offset : p.off < 2 ^ 64
  message : p.msg < 2 ^ 48
  index : p.idx < 1024
  data : p.data.length ≤ 4096 ∧ p.data.length ≤ p.len
  length : p.len ≤ 4194304

/-- R324: a packet inside its ranges, for a ready queue pair whose state is here. -/
structure Arrives (s : State) (dev : Nat) (p : Packet) : Prop where
  fields : InRange p
  ready : (pair s dev p.qp).state = .ready
  here : (pair s dev p.qp).resident = true

/-- One more answer on the wire: message, kind (0 acknowledgement, 1 retry-later, 2 retry after 10 µs, 3 invalid-key), detail. -/
def Replies (s s' : State) (dev msg kind detail : Nat) : Prop :=
  (runnel s' dev).answers = (runnel s dev).answers ++ [(msg, kind, detail)]

/-- R325, R328: a device of the pod has sent the message and keeps it no more: nothing of it is still to arrive. -/
structure GivenUp (s : State) (m : Nat) : Prop where
  sender : m / 2 ^ 48 < s.fabric.devices
  sent : m % 2 ^ 48 < (runnel s (m / 2 ^ 48)).next
  ended : tget (runnel s (m / 2 ^ 48)).tx (m % 2 ^ 48) = none

/-- R178, R324: the packet goes into an object, inside the region and inside the object; `k` is its first byte. -/
structure IntoObject (s : State) (g : Registration) (p : Packet) (k : Nat) : Prop where
  object : g.base.getLsbD 63 = true
  inRegion : p.off + p.data.length ≤ g.bytes
  key : k = (advance g.base (p.off : Int)).toNat
  inObject : ∃ site e, homeOf s (k / 2 ^ 34 % 2 ^ 29) = some (site, e) ∧ k % 2 ^ 34 + p.data.length ≤ e.size

end Sys2Proof.Spec

/-- R324, R325, R327, R328: packets received: placed once, acknowledged and posted when the last is placed; turned away for an unknown or
revoked key, for want of a page and for want of room; a send for an evicted queue pair waits. -/
def Sys2Proof.Spec.PacketsReceived : Prop :=
  (∀ s dev p, InRange p →
    ((pair s dev p.qp).state ≠ .ready → exec (.runnelPacketRx dev p) s = .next s) ∧
    ((pair s dev p.qp).state = .ready → p.send = true → (pair s dev p.qp).resident = false →
      ∃ s', exec (.runnelPacketRx dev p) s = .next s' ∧ s'.mem = s.mem ∧
        pair s' dev p.qp = { pair s dev p.qp with waiting := (pair s dev p.qp).waiting ++ [(clock s dev, p)] } ∧
        ∀ g, tget (runnel s dev).regs p.key = some g → g.revoked = false → ∃ g', tget (runnel s' dev).regs p.key = some g' ∧
          (messageKey p, p.key) ∈ g'.known)) ∧
  (∀ s dev p, ¬InRange p → exec (.runnelPacketRx dev p) s = .next s) ∧
  (∀ s dev p, Arrives s dev p → tget (runnel s dev).regs p.key = none →
    ∃ s', exec (.runnelPacketRx dev p) s = .next s' ∧ s'.mem = s.mem ∧ Replies s s' dev (messageKey p) 3 0) ∧
  (∀ s dev p g m, Arrives s dev p → m = messageKey p → tget (runnel s dev).regs p.key = some g →
    (g.revoked = true → (m, p.key) ∉ g.known → ∃ s', exec (.runnelPacketRx dev p) s = .next s' ∧ s'.mem = s.mem ∧
      Replies s s' dev m 3 0) ∧
    (∀ x, g.revoked = false → tget (runnel s dev).rx m = some x → p.idx ∈ x.placed → exec (.runnelPacketRx dev p) s = .next s) ∧
    (g.revoked = false → tget (runnel s dev).rx m = none → 65536 ≤ (runnel s dev).rx.length →
      ∃ s' g', exec (.runnelPacketRx dev p) s = .next s' ∧ s'.mem = s.mem ∧ Replies s s' dev m 1 0 ∧
        tget (runnel s' dev).regs p.key = some g' ∧ (m, p.key) ∈ g'.known) ∧
    (g.revoked = false → tget (runnel s dev).rx m = none → (runnel s dev).rx.length < 65536 → g.bytes < p.off + p.data.length →
      ∃ s' g', exec (.runnelPacketRx dev p) s = .next s' ∧ s'.mem = s.mem ∧ Replies s s' dev m 3 0 ∧
        tget (runnel s' dev).regs p.key = some g' ∧ (m, p.key) ∉ g'.known) ∧
    (∀ region va, g.revoked = false → tget (runnel s dev).rx m = none → (runnel s dev).rx.length < 65536 →
      placing s g p.off p.data.length true = .page region va →
      ∃ s', exec (.runnelPacketRx dev p) s = .next s' ∧ s'.mem = s.mem ∧ Replies s s' dev m 2 p.idx) ∧
    (∀ k placed bytes, (g.revoked = false ∨ (m, p.key) ∈ g.known) → IntoObject s g p k → p.idx ∉ placed →
      (tget (runnel s dev).rx m = none ∧ placed = [] ∧ bytes = 0 ∧ (runnel s dev).rx.length < 65536 ∨
        ∃ x, tget (runnel s dev).rx m = some x ∧ placed = x.placed ∧ bytes = x.bytes) →
      ∃ s', exec (.runnelPacketRx dev p) s = .next s' ∧
        (∀ j, j < p.data.length → readByte s'.mem (k + j) = p.data.getD j 0) ∧
        (∀ j, ¬(k ≤ j ∧ j < k + p.data.length) → readByte s'.mem j = readByte s.mem j) ∧
        (bytes + p.data.length < p.len →
          tget (runnel s' dev).rx m = some ⟨p.qp, p.key, p.idx :: placed, bytes + p.data.length⟩ ∧
          (runnel s' dev).answers = (runnel s dev).answers ∧ (runnel s' dev).posted = (runnel s dev).posted) ∧
        (p.len ≤ bytes + p.data.length → tget (runnel s' dev).rx m = none ∧ Replies s s' dev m 0 0 ∧
          (runnel s' dev).posted = (runnel s dev).posted ++ [(p.qp, m)])))

/-- R325 to R328: the sender: an acknowledgement completes the message; a selective NACK or a timeout sends the missing packets again, up
to seven times, and then the queue pair is in error, as it is after an invalid-key NACK; retry-later waits for the timer and a
page's hint sets it to 10 µs. -/
def Sys2Proof.Spec.MessagesSent : Prop :=
  ∀ s dev m t, tget (runnel s dev).tx m = some t →
    (∃ s', exec (.runnelAckRx dev m) s = .next s' ∧ s'.mem = s.mem ∧ tget (runnel s' dev).tx m = none ∧
      (runnel s' dev).posted = (runnel s dev).posted ++ [(t.qp, m)]) ∧
    (t.resends < 7 → ∀ missing, (∀ i ∈ missing, i ∈ t.missing) → ∃ s', exec (.runnelNackRx dev m (.missing missing)) s = .next s' ∧
      s'.mem = s.mem ∧
      tget (runnel s' dev).tx m = some { t with missing := missing, resends := t.resends + 1, due := clock s dev + 22400 } ∧
      (runnel s' dev).answers = (runnel s dev).answers ++ missing.map (fun i => (m, 4, i)) ∧
      (runnel s' dev).sent = (runnel s dev).sent ++ t.packets.filter fun p => missing.contains p.idx) ∧
    (exec (.runnelNackRx dev m .later) s = .next s) ∧
    (∃ s', exec (.runnelNackRx dev m .page) s = .next s' ∧ s'.mem = s.mem ∧
      tget (runnel s' dev).tx m = some { t with due := clock s dev + 7000 }) ∧
    (∃ s', exec (.runnelNackRx dev m .invalidKey) s = .next s' ∧ s'.mem = s.mem ∧
      tget (runnel s' dev).tx m = none ∧ (pair s' dev t.qp).state = .error) ∧
    (t.due ≤ clock s dev → exec (.runnelMsgTimeout dev m) s = exec (.runnelNackRx dev m (.missing t.missing)) s) ∧
    (clock s dev < t.due → exec (.runnelMsgTimeout dev m) s = .next s) ∧
    (7 ≤ t.resends → t.due ≤ clock s dev → ∃ s', exec (.runnelMsgTimeout dev m) s = .next s' ∧ s'.mem = s.mem ∧
      tget (runnel s' dev).tx m = none ∧ (pair s' dev t.qp).state = .error)

/-- R326 to R328: the states of a queue pair; a fetched state posts the late completions in order; sends that waited too long are told to
come later; a registration is revoked, and gone once every message accepted before is placed or given up (log 30, DEDUCED). The host's
commands reach no device in recovery mode (R334). -/
def Sys2Proof.Spec.PairsAndRegistrations : Prop :=
  (∀ s dev qp, ¬LinkUp s dev → exec (.qpEnable dev qp) s = .next s ∧ exec (.qpReset dev qp) s = .next s ∧
    ∀ f, exec (.qpConfigure dev f) s = .next s) ∧
  (∀ s dev qp, LinkUp s dev → (∀ f, f.qp = qp → (pair s dev qp).state = .reset → ∃ s', exec (.qpConfigure dev f) s = .next s' ∧
      s'.mem = s.mem ∧ (pair s' dev qp).state = .init ∧ (pair s' dev qp).resident = true ∧ (pair s' dev qp).peer = f.peer ∧
      (pair s' dev qp).keys = f.keys) ∧
    (∀ f, f.qp = qp → (pair s dev qp).state ≠ .reset → exec (.qpConfigure dev f) s = .next s) ∧
    ((pair s dev qp).state = .init → ∃ s', exec (.qpEnable dev qp) s = .next s' ∧ s'.mem = s.mem ∧
      pair s' dev qp = { pair s dev qp with state := .ready }) ∧
    ((pair s dev qp).state = .error → ∃ s', exec (.qpReset dev qp) s = .next s' ∧ s'.mem = s.mem ∧
      (pair s' dev qp).state = .reset ∧ (pair s' dev qp).waiting = [] ∧ (pair s' dev qp).keys = []) ∧
    ((pair s dev qp).state ≠ .error → exec (.qpReset dev qp) s = .next s)) ∧
  (∀ s dev qp q, tget (runnel s dev).qps qp = some q → q.resident = false → q.waiting = [] → ∃ s',
    exec (.qpContextFetched dev qp) s = .next s' ∧ s'.mem = s.mem ∧ pair s' dev qp = { q with resident := true } ∧
    (runnel s' dev).posted = (runnel s dev).posted ++ (runnel s dev).late.filter (fun x => decide (x.1 = qp)) ∧
    (runnel s' dev).late = (runnel s dev).late.filter fun x => decide (x.1 ≠ qp)) ∧
  (∀ s dev qp, (∀ x ∈ (pair s dev qp).waiting, clock s dev < x.1 + 1400) → exec (.runnelSendWaitExpiry dev qp) s = .next s) ∧
  (∀ s dev qp late, late = (pair s dev qp).waiting.filter (fun x => decide (x.1 + 1400 ≤ clock s dev)) → late ≠ [] →
    ∃ s', exec (.runnelSendWaitExpiry dev qp) s = .next s' ∧ s'.mem = s.mem ∧
    (pair s' dev qp).waiting = (pair s dev qp).waiting.filter (fun x => decide (clock s dev < x.1 + 1400)) ∧
    (runnel s' dev).answers = (runnel s dev).answers ++ late.map fun x => (messageKey x.2, 1, x.2.idx)) ∧
  (∀ s dev key g, tget (runnel s dev).regs key = some g →
    (∃ s', exec (.registrationRevoke dev key) s = .next s' ∧ s'.mem = s.mem ∧
      tget (runnel s' dev).regs key = some { g with revoked := true }) ∧
    (g.revoked = true → (∀ m ∈ g.known, GivenUp s m.1) → ∃ s', exec (.revokeComplete dev key) s = .next s' ∧ s'.mem = s.mem ∧
      tget (runnel s' dev).regs key = none) ∧
    (g.revoked = false ∨ (∃ m ∈ g.known, ¬GivenUp s m.1) → exec (.revokeComplete dev key) s = .next s))

/-- R324 to R328: the Runnel adapter. What of it the manual leaves open is log 30. -/
def Obligations.RunnelAdapter : Prop := Spec.PacketsReceived ∧ Spec.MessagesSent ∧ Spec.PairsAndRegistrations

namespace Sys2Proof.Spec

/-! ### Encoding, fetch and the step (R64, R65, R69 to R84, R209, R287) -/

/-- R64: parcels of an instruction, by the first of them. -/
def parcels (p0 : Nat) : Nat := if p0 % 2 = 0 then 1 else if p0 % 4 = 1 then 2 else 4

/-- R64: the bits of an instruction whose parcels are given, the first the lowest. -/
def joined : List Nat → Nat
  | [] => 0
  | p :: ps => p + 2 ^ 16 * joined ps

/-- R83: the cause of a word that is no instruction. -/
def rejectCause : Reject → Nat
  | .major => 0
  | .minor => 1
  | .field => 2

/-- R31: a team that goes on with its program when it issues: it lives in a running context and a filled block, is not halted,
waits for no event, runs to no debug PC and owes no lane-fault trap. -/
structure MayIssue (s : State) (id : Nat) (t : Team) (b : Block) (c : Ctx) (n : Node) : Prop where
  view : viewOf s id = some ⟨t, b, c, n⟩
  live : t.ended = false
  halted : t.halt = none
  waits : eventWait t = false
  runs : c.state = .running
  filled : b.filled = true
  free : t.running = false
  owes : laneTrapDue t = false

/-- A team whose turn it is, by R339 and R125, with nothing of the debug unit in its way. -/
structure Turn (s : State) (id : Nat) (t : Team) (b : Block) (c : Ctx) (n : Node) : Prop where
  team : MayIssue s id t b c n
  turn : mayIssue s id = true
  unbroken : c.attached = false ∨ t.skipBreak = true ∨ midInstr t = true

/-- R126, R276: a cause is delivered to the team's handler when it has one and is not in it. -/
structure Handles (t : Team) (b : Block) (n : Node) (off : Nat) : Prop where
  outside : t.handler = false
  confirmed : b.provisional = false
  handler : n.desc.handler = some off

/-- The state in which the head of the agenda is carried out: time has passed (R116, R191). -/
def upon (s : State) (rest : List Occur) : State := { tick s with agenda := rest }

/-- The state in which a team's instruction `x` is executed: the team's issue is recorded (R339). -/
def issued (u : State) (id : Nat) (x : Nat) : State := markIssue { u with cur := id } id (kindOf x)

/-- R24, R29: no context has only teams that wait in RACQ, and none is about to leave its slot: nothing of that kind happens between two
steps. -/
structure Quiet (s : State) : Prop where
  acquires : ∀ k c, tget s.ctxs k = some c → c.racq = [] ∨ ∃ x ∈ ctxTeams s c, x.2.ended = false ∧ x.1 ∉ c.racq
  stays : ∀ x ∈ s.ctxs, x.2.state = .left ∨ ∃ i b, i ∈ x.2.blocks ∧ tget s.blocks i = some b ∧ b.left = false

/-- R126: the team stands in its handler with this cause, detail and saved pc; its registers, mask and all of memory stand. -/
structure Trapped (s s' : State) (id : Nat) (t : Team) (n : Node) (off cause info : Nat) : Prop where
  lanes : ∃ t', tget s'.teams id = some t' ∧ t'.trapcause = BitVec.ofNat 32 cause ∧ t'.trapinfo = BitVec.ofNat 32 info ∧
    t'.trappc = t.pc ∧ t'.handler = true ∧ t'.pc = n.desc.kernel + BitVec.ofNat 64 off ∧ t'.v = t.v ∧ t'.p = t.p ∧ t'.k = t.k ∧
    t'.mask = t.mask
  memory : s'.mem = s.mem

/-- R339: when a team last issued on the kind of unit that its next instruction needs; 0 when it never has. -/
def lastIssue (s : State) (id : Nat) : Nat :=
  match tget s.teams id with
  | some t => lastOn t (nextKind s id)
  | none => 0

/-- The invariant that every step keeps: memory stands in its one canonical form. -/
def CanonicalMemory (s : State) : Prop := s.mem.wf = true

end Sys2Proof.Spec

/-- R64: an instruction is one, two or four parcels at consecutive rising addresses, the lowest holding bits [15:0]; the first parcel alone
gives the length. It holds of the bytes of an instruction and of its fetch. -/
def Obligations.InstructionLength : Prop :=
  (∀ ps : List Nat, (∀ p ∈ ps, p < 2 ^ 16) → ∀ p0, ps.head? = some p0 → ps.length = parcels p0 →
    decodeBytes (ps.flatMap fun p => [BitVec.ofNat 8 p, BitVec.ofNat 8 (p / 256)]) = some (decodeWord (joined ps), 2 * ps.length)) ∧
  (∀ w pc (ps : List Nat) p0, ps.head? = some p0 → ps.length = parcels p0 →
    (∀ i p, ps[i]? = some p → parcel w (pc + BitVec.ofNat 64 (2 * i)) = some p) → fetchWord w pc = .ok (joined ps, 2 * ps.length)) ∧
  (∀ p0 : Nat, (p0.testBit 0 = false → parcels p0 = 1) ∧ (p0.testBit 0 = true → p0.testBit 1 = false → parcels p0 = 2) ∧
    (p0.testBit 0 = true → p0.testBit 1 = true → parcels p0 = 4))

/-- R69 to R83: for every legal instruction, with every operand at every value its encoding admits, decoding its encoded bits gives the
instruction back. -/
def Obligations.DecodeEncode : Prop := ∀ i w, i.legal = true → encode i = some w → (decodeWord w).instr = some i

/-- R69, R71 to R75, R77, R80: words written out from the encoding tables decode to the instruction they stand for; a major, a minor and a
field that are not assigned are refused by name. -/
def Obligations.SampleWords : Prop :=
  decodeWord 0x0000 = .ok (.movC16 ⟨false, 0, 0⟩) ∧
  decodeWord 0x9462 = .ok (.iaddC16 ⟨true, 5, 3⟩) ∧
  decodeWord 0xFF54A841 = .ok (.iaddRi ⟨0x3FD, 41, 40⟩) ∧
  decodeWord 0x0021A1A3058A630B = .ok (.ffma ⟨0, 0x21, true, 2, 13, 12, 11, 10, 0x60⟩) ∧
  decodeWord 0x000001A9 = .ok .exit ∧
  decodeWord (0b01 + 4 * 0x23 + 2 ^ 8 * 4 + 2 ^ 15 * 6 + 2 ^ 22 * 1 + 2 ^ 29 * 2) = .ok (.ldDM ⟨2, 1, 6, 4⟩) ∧
  decodeWord (0b11 + 4 * 0x12 + 2 ^ 8 * 11 + 2 ^ 16 * 1 + 2 ^ 23 * 2 + 2 ^ 30 * 3 + 2 ^ 41 * 4) = .ok (.atomExch ⟨0, 4, false, 0, 3, 2, 1, 0⟩) ∧
  decodeWord (0b01 + 4 * 0x00) = .bad .major ∧
  decodeWord (0b01 + 4 * 0x2A + 2 ^ 8 * 8) = .bad .minor ∧
  decodeWord (0b01 + 4 * 0x2A + 2 ^ 8 * 1 + 2 ^ 16 * 1) = .bad .field

/-- R31, R83, R84, R126, R280, R281, R287, R290, R339: a step whose agenda names a team whose turn it is executes the instruction
that its bytes decode to, in the state in which time has passed and the issue is recorded, and then what follows every issue; a word
that is no instruction, a failed fetch, or a bad predicate whose instruction names no faulting register raises its cause; a breakpoint at
the pc halts the team instead, but not inside an instruction; a team whose turn it is not waits. A sweep may stop between mask words, but
SHFL, VOTE, REDUX and SCAN, and what the uniform unit takes, never do. An event happens as it stands. What follows a step wakes watchers,
and nothing else where no register-wait cycle closes and no context leaves. With nothing else to do, the team that issues is the first of
those whose last issue lies furthest back. -/
def Obligations.StepRunsTheDecoded : Prop :=
  (∀ s id rest t b c n x len i, s.agenda = .issue id :: rest → Turn (upon s rest) id t b c n →
    fetchWord ⟨t, b, c, n⟩ t.pc = .ok (x, len) → (decodeWord x).instr = some i → badPred t x i = none →
    step s = settled (exec i (issued (upon s rest) id x)) id) ∧
  (∀ s id rest, s.agenda = .issue id :: rest → mayIssue (upon s rest) id = false → step s = .next (upon s rest)) ∧
  (∀ s id rest t b c n x len r off, s.agenda = .issue id :: rest → Turn (upon s rest) id t b c n → Handles t b n off →
    fetchWord ⟨t, b, c, n⟩ t.pc = .ok (x, len) → decodeWord x = .bad r →
    ∃ s', step s = .next (afterStep s') ∧ Trapped (upon s rest) s' id t n off (rejectCause r) x) ∧
  (∀ s id rest t b c n info off, s.agenda = .issue id :: rest → Turn (upon s rest) id t b c n → Handles t b n off →
    fetchWord ⟨t, b, c, n⟩ t.pc = .error info → ∃ s', step s = .next (afterStep s') ∧
      Trapped (upon s rest) s' id t n off 4 info) ∧
  (∀ s id rest t b c n x len i l off, s.agenda = .issue id :: rest → Turn (upon s rest) id t b c n → Handles t b n off →
    fetchWord ⟨t, b, c, n⟩ t.pc = .ok (x, len) → decodeWord x = .ok i → guardOf x ≠ 0 → guardOf x < 8 →
    8 * l + guardOf x ∈ t.badP → t.mask.getLsbD l = true →
    (namesFault (exec i) (issued (upon s rest) id x) id = false →
      ∃ s', step s = .next (afterStep s') ∧ Trapped (upon s rest) s' id t n off 0x2C6 (guardOf x)) ∧
    (namesFault (exec i) (issued (upon s rest) id x) id = true → step s = settled (exec i (issued (upon s rest) id x)) id)) ∧
  (∀ s id rest t b c n i, s.agenda = .issue id :: rest → MayIssue (upon s rest) id t b c n → mayIssue (upon s rest) id = true →
    c.attached = true → t.skipBreak = false → midInstr t = false → i < 8 → (tgetD c.dbc i 0).getLsbD 0 = true →
    (tgetD c.dbc i 0).getLsbD 1 = false → tgetD c.dba i 0 = t.pc → sub (tgetD c.dbc i 0) 6 2 ≠ 1 →
    (∀ j, j < i → (tgetD c.dbc j 0).getLsbD 0 = false ∨ tgetD c.dba j 0 ≠ t.pc) →
    step s = .next (afterStep (putTeam { upon s rest with cur := id } id { t with halt := some (0x300, BitVec.ofNat 32 i) }))) ∧
  (∀ s id words rest t b c n u, s.agenda = .sweep id words :: rest → u = upon s rest → viewOf u id = some ⟨t, b, c, n⟩ →
    mayIssue u id = true →
    (t.wait ≠ .none ∨ t.size ≤ 32 * (t.swept + words) ∨ neverSplit u id = true → step s = .next u) ∧
    (t.wait = .none → 32 * (t.swept + words) < t.size → neverSplit u id = false →
      (midInstr t = false → boundary u ⟨t, b, c, n⟩ id = true → step s = issueStep u id) ∧
      (midInstr t = true ∨ boundary u ⟨t, b, c, n⟩ id = false →
        (nextKind u id = .pipe → step s = .next (modTeam (markIssue u id .pipe) id fun t => { t with swept := t.swept + words })) ∧
        (nextKind u id = .lsu → step s = issueStep (putTeam u id { t with stopAt := some (t.swept + words) }) id)))) ∧
  (∀ s id w x len, viewOf s id = some w → fetchWord w w.t.pc = .ok (x, len) →
    x % 4 = 3 ∧ x / 4 % 64 = 4 ∨ (∃ r, decodeWord x = .bad r) → neverSplit s id = true) ∧
  (∀ s i rest s', s.agenda = .event i :: rest → encode i = none → exec i (upon s rest) = .next s' →
    step s = .next (afterStep s')) ∧
  (∀ s, Quiet s → afterStep s = wakeWatchers s) ∧
  (∀ s i rest w, s.agenda = .event i :: rest → encode i = some w → step s = .next (upon s rest)) ∧
  (∀ s id, s.agenda = [] → firstChange (tick s) (autoEvents (tick s)) = none →
    pickTeam (tick s) (readyTeams (tick s)) = some id → step s = issueStep (tick s) id) ∧
  (∀ s ready, ready ≠ [] → (∀ i t, i ∈ ready → tget s.teams i = some t → t.yielded = none) →
    ∃ id pre post, ready = pre ++ id :: post ∧ pickTeam s ready = some id ∧ (∀ i ∈ pre, lastIssue s id < lastIssue s i) ∧
      ∀ i ∈ post, lastIssue s id ≤ lastIssue s i)

/-- Log 4, R4: every step keeps memory in its one canonical form: addresses strictly rising, and nothing listed that reads as listed
anyway. -/
def Obligations.StepKeepsMemoryCanonical : Prop := ∀ s s', CanonicalMemory s → step s = .next s' → CanonicalMemory s'

/-- R116, R176, R261, R267, R268, R297, R302: what reset leaves: no team, block, context or launch; every clock at 0; OSITE, VFSCH, AGE and
SLCTL at the values of their tables; every plane up; memory in its canonical form. That bring-up is past and nothing is placed is log 9
(DESIGN CHOICE), that every plane is up is log 15 (DEDUCED), and the values of what the manual gives no reset value are logs 4 and 6
(DESIGN CHOICE). -/
def Obligations.ResetState : Prop :=
  CanonicalMemory State.reset ∧ State.reset.teams = [] ∧ State.reset.blocks = [] ∧ State.reset.ctxs = [] ∧ State.reset.nodes = [] ∧
  State.reset.reqs = [] ∧ State.reset.moves = [] ∧ State.reset.colls = [] ∧ State.reset.errors = [] ∧ State.reset.agenda = [] ∧
  State.reset.fabric.down = [] ∧ State.reset.fabric.msgs = [] ∧
  (∀ dev, clock State.reset dev = 0) ∧ (∀ site, (siteOf State.reset site).osite = 0x443F) ∧
  (∀ site, (siteOf State.reset site).objects = [] ∧ (siteOf State.reset site).registry = []) ∧
  (∀ plane port, slctlOf State.reset plane port = 0x10000) ∧
  (∀ dev vf, tgetD (devOf State.reset dev).vfsch vf 0x0A000A00 = 0x0A000A00) ∧
  (∀ dev lvl, tgetD (devOf State.reset dev).age lvl 1000 = 1000) ∧
  (∀ dev, (devOf State.reset dev).collCores = 0 ∧ (devOf State.reset dev).gated = [] ∧ (devOf State.reset dev).units = [])
end

