-- ==== Sys2Proof/Laws/Tbl.lean ====
section
/-! SUPPORT. Laws of the tables: what a lookup gives after an entry, a removal or a change, and that every operation keeps
the rising order of the keys. -/
namespace Sys2Proof.Machine

variable {α : Type}

/-- Every key of the table lies above `k`. -/
def tabove (k : Nat) (t : Tbl α) : Prop := ∀ x ∈ t, k < x.1

theorem twf_cons {j : Nat} {x : α} {t : Tbl α} : twf ((j, x) :: t) = true ↔ tabove j t ∧ twf t = true := by
  induction t generalizing j x with
  | nil => simp [twf, tabove]
  | cons y t ih =>
    obtain ⟨k, z⟩ := y
    simp only [twf, Bool.and_eq_true, decide_eq_true_eq, ih]
    refine ⟨fun ⟨hjk, ha, hw⟩ => ⟨?_, ha, hw⟩, fun ⟨ha, h⟩ => ⟨ha (k, z) (by simp), h⟩⟩
    intro q hq
    rcases List.mem_cons.1 hq with rfl | hq
    · exact hjk
    · exact Nat.lt_trans hjk (ha _ hq)

@[simp] theorem tget_tput_same (t : Tbl α) (k : Nat) (x : α) : tget (tput t k x) k = some x := by
  induction t with
  | nil => simp [tput, tget]
  | cons y t ih =>
    obtain ⟨j, y⟩ := y
    simp only [tput]
    split
    · simp [tget]
    · split <;> simp [tget, *]

theorem tget_tput_ne {t : Tbl α} {k i : Nat} (x : α) (h : i ≠ k) : tget (tput t k x) i = tget t i := by
  induction t with
  | nil => simp [tput, tget, Ne.symm h]
  | cons y t ih =>
    obtain ⟨j, y⟩ := y
    simp only [tput]
    split
    · subst j; simp [tget, Ne.symm h]
    · split <;> simp [tget, Ne.symm h, ih]

theorem tget_tput (t : Tbl α) (k i : Nat) (x : α) : tget (tput t k x) i = if i = k then some x else tget t i := by
  split
  · subst i; simp
  · exact tget_tput_ne x ‹_›

@[simp] theorem tget_tdel_same (t : Tbl α) (k : Nat) : tget (tdel t k) k = none := by
  induction t with
  | nil => rfl
  | cons y t ih => obtain ⟨j, y⟩ := y; simp only [tdel]; split <;> simp [tget, *]

theorem tget_tdel_ne {t : Tbl α} {k i : Nat} (h : i ≠ k) : tget (tdel t k) i = tget t i := by
  induction t with
  | nil => rfl
  | cons y t ih =>
    obtain ⟨j, y⟩ := y
    simp only [tdel]
    split
    · subst j; simp [tget, ih, Ne.symm h]
    · simp [tget, ih]

theorem tgetD_tput (t : Tbl α) (k i : Nat) (x d : α) : tgetD (tput t k x) i d = if i = k then x else tgetD t i d := by
  simp only [tgetD, tget_tput]; split <;> rfl

theorem tgetD_tset [DecidableEq α] (t : Tbl α) (d : α) (k i : Nat) (x : α) :
    tgetD (tset d t k x) i d = if i = k then x else tgetD t i d := by
  unfold tset tgetD
  split
  · split
    · subst i; subst x; simp
    · rw [tget_tdel_ne ‹_›]
  · rw [tget_tput]; split <;> rfl

theorem tget_tmod_same (t : Tbl α) (k : Nat) (f : α → α) : tget (tmod t k f) k = (tget t k).map f := by
  unfold tmod
  cases h : tget t k <;> simp [h]

theorem tget_tmod_ne {t : Tbl α} {k i : Nat} (f : α → α) (h : i ≠ k) : tget (tmod t k f) i = tget t i := by
  unfold tmod
  split
  · exact tget_tput_ne _ h
  · rfl

theorem tmod_some {t : Tbl α} {k : Nat} {x : α} (f : α → α) (h : tget t k = some x) : tmod t k f = tput t k (f x) := by
  simp [tmod, h]

theorem tput_tput (t : Tbl α) (k : Nat) (x y : α) : tput (tput t k x) k y = tput t k y := by
  induction t with
  | nil => simp [tput]
  | cons z t ih =>
    obtain ⟨j, z⟩ := z
    by_cases hj : j = k
    · simp [tput, hj]
    · by_cases hk : k < j
      · simp [tput, hj, hk]
      · simp [tput, hj, hk, ih]

theorem tabove_tput {t : Tbl α} {j k : Nat} {x : α} (h : tabove j t) (hk : j < k) : tabove j (tput t k x) := by
  induction t with
  | nil => intro q hq; simp [tput] at hq; subst hq; exact hk
  | cons y t ih =>
    obtain ⟨i, y⟩ := y
    have hi : j < i := h (i, y) (by simp)
    have ht : tabove j t := fun q hq => h q (by simp [hq])
    intro q hq
    simp only [tput] at hq
    split at hq
    · rcases List.mem_cons.1 hq with rfl | hq
      · exact hk
      · exact ht _ hq
    · split at hq
      · rcases List.mem_cons.1 hq with rfl | hq
        · exact hk
        · exact h _ hq
      · rcases List.mem_cons.1 hq with rfl | hq
        · exact hi
        · exact ih ht _ hq

theorem twf_tput {t : Tbl α} (k : Nat) (x : α) (h : twf t = true) : twf (tput t k x) = true := by
  induction t with
  | nil => rfl
  | cons y t ih =>
    obtain ⟨j, y⟩ := y
    obtain ⟨ha, hw⟩ := twf_cons.1 h
    simp only [tput]
    split
    · subst j; exact twf_cons.2 ⟨ha, hw⟩
    · split
      · refine twf_cons.2 ⟨?_, h⟩
        intro q hq
        rcases List.mem_cons.1 hq with rfl | hq
        · assumption
        · exact Nat.lt_trans ‹_› (ha _ hq)
      · exact twf_cons.2 ⟨tabove_tput ha (by omega), ih hw⟩

theorem mem_of_mem_tdel {t : Tbl α} {k : Nat} {q : Nat × α} (h : q ∈ tdel t k) : q ∈ t ∧ q.1 ≠ k := by
  induction t with
  | nil => exact absurd h List.not_mem_nil
  | cons y t ih =>
    obtain ⟨j, y⟩ := y
    simp only [tdel] at h
    split at h
    · exact ⟨List.mem_cons_of_mem _ (ih h).1, (ih h).2⟩
    · rcases List.mem_cons.1 h with rfl | h
      · exact ⟨by simp, ‹_›⟩
      · exact ⟨List.mem_cons_of_mem _ (ih h).1, (ih h).2⟩

theorem twf_tdel {t : Tbl α} (k : Nat) (h : twf t = true) : twf (tdel t k) = true := by
  induction t with
  | nil => rfl
  | cons y t ih =>
    obtain ⟨j, y⟩ := y
    obtain ⟨ha, hw⟩ := twf_cons.1 h
    simp only [tdel]
    split
    · exact ih hw
    · exact twf_cons.2 ⟨fun q hq => ha q (mem_of_mem_tdel hq).1, ih hw⟩

theorem twf_tmod {t : Tbl α} (k : Nat) (f : α → α) (h : twf t = true) : twf (tmod t k f) = true := by
  unfold tmod
  split
  · exact twf_tput _ _ h
  · exact h

theorem twf_tset [DecidableEq α] {t : Tbl α} (d : α) (k : Nat) (x : α) (h : twf t = true) : twf (tset d t k x) = true := by
  unfold tset
  split
  · exact twf_tdel _ h
  · exact twf_tput _ _ h

theorem twf_filter {t : Tbl α} (p : Nat × α → Bool) (h : twf t = true) : twf (t.filter p) = true := by
  induction t with
  | nil => rfl
  | cons y t ih =>
    obtain ⟨j, y⟩ := y
    obtain ⟨ha, hw⟩ := twf_cons.1 h
    simp only [List.filter]
    split
    · exact twf_cons.2 ⟨fun q hq => ha q ((List.mem_filter.1 hq).1), ih hw⟩
    · exact ih hw

theorem tget_mem {t : Tbl α} {k : Nat} {x : α} (h : tget t k = some x) : (k, x) ∈ t := by
  induction t with
  | nil => simp [tget] at h
  | cons y t ih =>
    obtain ⟨j, y⟩ := y
    simp only [tget] at h
    split at h
    · subst j; simp at h; simp [h]
    · exact List.mem_cons_of_mem _ (ih h)

theorem mem_tget {t : Tbl α} {k : Nat} {x : α} (hw : twf t = true) (h : (k, x) ∈ t) : tget t k = some x := by
  induction t with
  | nil => simp at h
  | cons y t ih =>
    obtain ⟨j, y⟩ := y
    obtain ⟨ha, hw⟩ := twf_cons.1 hw
    rcases List.mem_cons.1 h with h | h
    · injection h with h1 h2; subst h1; subst h2; simp [tget]
    · have := ha _ h
      simp only [tget]
      rw [if_neg (by simp at this; omega)]
      exact ih hw h

end Sys2Proof.Machine
end

