-- ==== Sys2Proof/Laws/Memory.lean ====
section
/-! SUPPORT. Laws of memory: what a byte reads as after a write, a clearing and a fresh range, that every memory operation
keeps the canonical form, and the little-endian round trip. -/
namespace Sys2Proof.Machine

/-! ### Open ranges -/

theorem openStamp_append (xs ys : List OpenRange) (k : Nat) :
    openStamp (xs ++ ys) k = (openStamp xs k).or (openStamp ys k) := by
  induction xs with
  | nil => rfl
  | cons r xs ih => simp only [List.cons_append, openStamp]; split <;> simp [ih]

/-- A cut takes exactly the keys of [lo, hi) out of the ranges. -/
theorem openStamp_cut (rs : List OpenRange) (lo hi k : Nat) :
    openStamp (cutRanges rs lo hi) k = if lo ≤ k ∧ k < hi then none else openStamp rs k := by
  induction rs with
  | nil => simp [cutRanges, openStamp]
  | cons r rs ih =>
    simp only [cutRanges]
    split
    · simp only [openStamp, ih]
      split
      · rw [if_neg (by omega)]
      · rfl
    · rename_i hne
      simp only [openStamp_append, ih]
      by_cases hin : lo ≤ k ∧ k < hi
      · simp only [hin, and_self, if_true]
        have h1 : openStamp (if r.lo < lo then [{ r with hi := lo }] else []) k = none := by
          split
          · simp only [openStamp]; rw [if_neg (by omega)]
          · rfl
        have h2 : openStamp (if hi < r.hi then [{ r with lo := hi }] else []) k = none := by
          split
          · simp only [openStamp]; rw [if_neg (by omega)]
          · rfl
        simp [h1, h2]
      · simp only [hin, if_false]
        by_cases hr : r.lo ≤ k ∧ k < r.hi
        · simp only [openStamp, hr, and_self, if_true]
          by_cases hl : k < lo
          · rw [if_pos (show r.lo < lo by omega)]
            simp only [openStamp]; rw [if_pos (by omega)]; rfl
          · have h1 : openStamp (if r.lo < lo then [{ r with hi := lo }] else []) k = none := by
              split
              · simp only [openStamp]; rw [if_neg (by omega)]
              · rfl
            rw [h1, if_pos (show hi < r.hi by omega)]
            simp only [openStamp]; rw [if_pos (by omega)]; rfl
        · simp only [openStamp, hr, if_false]
          have h1 : openStamp (if r.lo < lo then [{ r with hi := lo }] else []) k = none := by
            split
            · simp only [openStamp]; rw [if_neg (by omega)]
            · rfl
          have h2 : openStamp (if hi < r.hi then [{ r with lo := hi }] else []) k = none := by
            split
            · simp only [openStamp]; rw [if_neg (by omega)]
            · rfl
          simp [h1, h2]

/-- Every range starts at or above `k`. -/
def rangesFrom (k : Nat) (rs : List OpenRange) : Prop := ∀ r ∈ rs, k ≤ r.lo

theorem rangesWf_cons {r : OpenRange} {rs : List OpenRange} :
    rangesWf (r :: rs) = true ↔ r.lo < r.hi ∧ rangesFrom r.hi rs ∧ rangesWf rs = true := by
  induction rs generalizing r with
  | nil => simp [rangesWf, rangesFrom]
  | cons q rs ih =>
    simp only [rangesWf, Bool.and_eq_true, decide_eq_true_eq]
    refine ⟨fun ⟨⟨h1, h2⟩, h3⟩ => ⟨h1, ?_, h3⟩, fun ⟨h1, h2, h3⟩ => ⟨⟨h1, h2 q (by simp)⟩, h3⟩⟩
    obtain ⟨hq, hf, -⟩ := ih.1 h3
    intro x hx
    rcases List.mem_cons.1 hx with rfl | hx
    · exact h2
    · have := hf x hx; omega

/-- A cut leaves no range that starts below where all started, and none beyond where one ended. -/
theorem rangesFrom_cut {rs : List OpenRange} {j : Nat} (lo hi : Nat) (h : rangesFrom j rs) :
    rangesFrom j (cutRanges rs lo hi) := by
  induction rs with
  | nil => intro r hr; cases hr
  | cons q rs ih =>
    have hq : j ≤ q.lo := h q (by simp)
    have ht := ih fun x hx => h x (by simp [hx])
    intro x hx
    simp only [cutRanges] at hx
    split at hx
    · rcases List.mem_cons.1 hx with rfl | hx
      · exact hq
      · exact ht x hx
    · rename_i hne
      simp only [List.mem_append] at hx
      rcases hx with (hx | hx) | hx
      · split at hx
        · simp at hx; subst hx; exact hq
        · cases hx
      · split at hx
        · simp at hx; subst hx; simp only; omega
        · cases hx
      · exact ht x hx

theorem rangesWf_cut {rs : List OpenRange} (lo hi : Nat) (hle : lo ≤ hi) (h : rangesWf rs = true) :
    rangesWf (cutRanges rs lo hi) = true := by
  induction rs with
  | nil => rfl
  | cons r rs ih =>
    obtain ⟨hr, hf, hw⟩ := rangesWf_cons.1 h
    simp only [cutRanges]
    split
    · exact rangesWf_cons.2 ⟨hr, rangesFrom_cut lo hi hf, ih hw⟩
    · have h2 : rangesWf ((if hi < r.hi then [{ r with lo := hi }] else []) ++ cutRanges rs lo hi) = true := by
        split
        · exact rangesWf_cons.2 ⟨by simpa, rangesFrom_cut lo hi hf, ih hw⟩
        · exact ih hw
      split
      · refine rangesWf_cons.2 ⟨by simpa, ?_, h2⟩
        intro x hx
        have hx' : x ∈ (if hi < r.hi then [{ r with lo := hi }] else []) ++ cutRanges rs lo hi := by simpa using hx
        rcases List.mem_append.1 hx' with hx' | hx'
        · split at hx'
          · simp at hx'; subst hx'; simp only; omega
          · cases hx'
        · have := rangesFrom_cut lo hi hf x hx'; simp only; omega
      · exact h2

theorem rangesFrom_put {rs : List OpenRange} {j : Nat} {x : OpenRange} (h : rangesFrom j rs) (hx : j ≤ x.lo) :
    rangesFrom j (putRange rs x) := by
  induction rs with
  | nil => intro r hr; simp [putRange] at hr; subst hr; exact hx
  | cons q rs ih =>
    intro r hr
    simp only [putRange] at hr
    split at hr
    · rcases List.mem_cons.1 hr with rfl | hr
      · exact h _ (by simp)
      · exact ih (fun y hy => h y (by simp [hy])) r hr
    · rcases List.mem_cons.1 hr with rfl | hr
      · exact hx
      · exact h r hr

/-- A range put among ranges that it does not meet. -/
theorem rangesWf_put {rs : List OpenRange} {x : OpenRange} (h : rangesWf rs = true) (hx : x.lo < x.hi)
    (hd : ∀ r ∈ rs, r.hi ≤ x.lo ∨ x.hi ≤ r.lo) : rangesWf (putRange rs x) = true := by
  induction rs with
  | nil => simpa [putRange, rangesWf] using hx
  | cons r rs ih =>
    obtain ⟨hr, hf, hw⟩ := rangesWf_cons.1 h
    have hr' := hd r (by simp)
    simp only [putRange]
    split
    · exact rangesWf_cons.2 ⟨hr, rangesFrom_put hf (by omega), ih hw fun y hy => hd y (by simp [hy])⟩
    · refine rangesWf_cons.2 ⟨hx, ?_, h⟩
      intro y hy
      rcases List.mem_cons.1 hy with rfl | hy
      · omega
      · have := hf y hy; omega

theorem cut_disjoint {rs : List OpenRange} (lo hi : Nat) (h : rangesWf rs = true) :
    ∀ r ∈ cutRanges rs lo hi, r.hi ≤ lo ∨ hi ≤ r.lo := by
  induction rs with
  | nil => intro r hr; cases hr
  | cons q rs ih =>
    obtain ⟨hq, -, hw⟩ := rangesWf_cons.1 h
    intro r hr
    simp only [cutRanges] at hr
    split at hr
    · rcases List.mem_cons.1 hr with rfl | hr
      · assumption
      · exact ih hw r hr
    · simp only [List.mem_append] at hr
      rcases hr with (hr | hr) | hr
      · split at hr
        · simp at hr; subst hr; simp
        · cases hr
      · split at hr
        · simp at hr; subst hr; simp
        · cases hr
      · exact ih hw r hr

theorem openStamp_put {rs : List OpenRange} {x : OpenRange} (k : Nat) (hd : ∀ r ∈ rs, r.hi ≤ x.lo ∨ x.hi ≤ r.lo) :
    openStamp (putRange rs x) k = if x.lo ≤ k ∧ k < x.hi then some x.stamp else openStamp rs k := by
  induction rs with
  | nil => simp [putRange, openStamp]
  | cons r rs ih =>
    have hr := hd r (by simp)
    simp only [putRange]
    split
    · simp only [openStamp, ih fun y hy => hd y (by simp [hy])]
      by_cases h1 : r.lo ≤ k ∧ k < r.hi
      · rw [if_pos h1, if_neg (by omega), if_pos h1]
      · rw [if_neg h1, if_neg h1]
    · simp [openStamp]

/-! ### Reading after writing -/

theorem readByte_writeByte (m : Memory) (k j : Nat) (b : Byte) :
    readByte (writeByte m k b) j = if j = k then b else readByte m j := by
  unfold readByte writeByte unwritten tset
  by_cases hb : b = 0
  · subst hb
    simp only [if_true, openStamp_cut]
    by_cases hj : j = k
    · subst hj; simp
    · rw [tget_tdel_ne hj, if_neg hj]
      have : ¬(k ≤ j ∧ j < k + 1) := by omega
      simp only [this, if_false]
  · simp only [hb, if_false, tget_tput, openStamp_cut]
    by_cases hj : j = k
    · subst hj; simp
    · have : ¬(k ≤ j ∧ j < k + 1) := by omega
      simp only [hj, this, if_false]

/-- Consecutive bytes: the written ones read as written, every other as before. -/
theorem readByte_writeBytes (m : Memory) (k j : Nat) (bs : List Byte) :
    readByte (writeBytes m k bs) j = if k ≤ j ∧ j < k + bs.length then bs.getD (j - k) 0 else readByte m j := by
  induction bs generalizing m k with
  | nil => simp only [writeBytes, List.length_nil]; rw [if_neg (by omega)]
  | cons b bs ih =>
    simp only [writeBytes, ih, List.length_cons, readByte_writeByte]
    by_cases hj : j = k
    · subst hj
      rw [if_neg (by omega), if_pos rfl, if_pos (by omega)]; simp
    · by_cases h : k + 1 ≤ j ∧ j < k + 1 + bs.length
      · rw [if_pos h, if_pos (by omega)]
        obtain ⟨d, rfl⟩ : ∃ d, j = k + 1 + d := ⟨j - (k + 1), by omega⟩
        rw [show k + 1 + d - (k + 1) = d by omega, show k + 1 + d - k = d + 1 by omega]
        rfl
      · rw [if_neg h, if_neg hj, if_neg (by omega)]

theorem readBytes_length (m : Memory) (k n : Nat) : (readBytes m k n).length = n := by
  induction n generalizing k with
  | zero => rfl
  | succ n ih => simp [readBytes, ih]

theorem readBytes_congr {m m' : Memory} (k n : Nat) (h : ∀ j, k ≤ j → j < k + n → readByte m' j = readByte m j) :
    readBytes m' k n = readBytes m k n := by
  induction n generalizing k with
  | zero => rfl
  | succ n ih =>
    simp only [readBytes]
    rw [h k (by omega) (by omega), ih (k + 1) fun j h1 h2 => h j (by omega) (by omega)]

/-- What was written reads back. -/
theorem readBytes_writeBytes (m : Memory) (k : Nat) (bs : List Byte) : readBytes (writeBytes m k bs) k bs.length = bs := by
  induction bs generalizing m k with
  | nil => rfl
  | cons b bs ih =>
    simp only [writeBytes, List.length_cons, readBytes, ih]
    congr 1
    rw [readByte_writeBytes, if_neg (by omega), readByte_writeByte, if_pos rfl]

theorem natBytes_length (n x : Nat) : (natBytes n x).length = n := by
  induction n generalizing x with
  | zero => rfl
  | succ n ih => simp [natBytes, ih]

theorem bytesNat_natBytes (n x : Nat) : bytesNat (natBytes n x) = x % 256 ^ n := by
  induction n generalizing x with
  | zero => simp [natBytes, bytesNat, Nat.mod_one]
  | succ n ih =>
    simp only [natBytes, bytesNat, ih, BitVec.toNat_ofNat]
    rw [show (256 : Nat) ^ (n + 1) = 256 * 256 ^ n by rw [Nat.pow_succ, Nat.mul_comm], Nat.mod_mul]

/-- R4: a value written little-endian reads back. -/
theorem readNat_writeNat (m : Memory) (k n x : Nat) : readNat (writeNat m k n x) k n = x % 256 ^ n := by
  have := readBytes_writeBytes m k (natBytes n x)
  rw [natBytes_length] at this
  simp [readNat, writeNat, this, bytesNat_natBytes]

theorem tget_filter {α : Type} (t : Tbl α) (p : Nat → Bool) (k : Nat) :
    tget (t.filter fun x => p x.1) k = if p k then tget t k else none := by
  induction t with
  | nil => simp [tget]
  | cons y t ih =>
    obtain ⟨j, y⟩ := y
    by_cases hp : p j = true
    · rw [List.filter_cons_of_pos (by simpa using hp)]
      simp only [tget, ih]
      by_cases hj : j = k
      · subst hj; simp [hp]
      · simp [hj]
    · rw [List.filter_cons_of_neg (by simpa using hp)]
      simp only [tget, ih]
      by_cases hj : j = k
      · subst hj; simp [hp]
      · simp [hj]

/-- R165, R189: a cleared range reads 0. -/
theorem readByte_zeroRange (m : Memory) (lo hi k : Nat) :
    readByte (zeroRange m lo hi) k = if lo ≤ k ∧ k < hi then 0 else readByte m k := by
  unfold readByte zeroRange unwritten
  simp only [openStamp_cut]
  rw [tget_filter m.cells (fun j => !(decide (lo ≤ j) && decide (j < hi))) k]
  by_cases h : lo ≤ k ∧ k < hi
  · simp [h.1, h.2]
  · have : (!(decide (lo ≤ k) && decide (k < hi))) = true := by simp; omega
    simp only [h, if_false, this, if_true]

/-! ### The canonical form -/

theorem Memory.wf_iff (m : Memory) :
    m.wf = true ↔ m.slotsWf = true ∧ twf m.cells = true ∧ (∀ c ∈ m.cells, c.2 ≠ 0 ∧ openStamp m.open_ c.1 = none) ∧
      rangesWf m.open_ = true := by
  simp [Memory.wf, Option.isNone_iff_eq_none, and_assoc]

theorem mem_of_mem_tput {α : Type} {t : Tbl α} {k : Nat} {x : α} {q : Nat × α} (h : q ∈ tput t k x) : q = (k, x) ∨ q ∈ t := by
  induction t with
  | nil => simpa [tput] using h
  | cons y t ih =>
    obtain ⟨j, y⟩ := y
    simp only [tput] at h
    split at h
    · rcases List.mem_cons.1 h with h | h
      · exact .inl h
      · exact .inr (List.mem_cons_of_mem _ h)
    · split at h
      · exact List.mem_cons.1 h
      · rcases List.mem_cons.1 h with h | h
        · exact .inr (h ▸ List.mem_cons_self)
        · exact (ih h).imp_right (List.mem_cons_of_mem _)

theorem writeByte_wf (m : Memory) (k : Nat) (b : Byte) (h : m.wf = true) : (writeByte m k b).wf = true := by
  obtain ⟨h0, h1, h2, h3⟩ := (Memory.wf_iff m).1 h
  refine (Memory.wf_iff _).2 ⟨h0, twf_tset _ _ _ h1, ?_, rangesWf_cut _ _ (by omega) h3⟩
  intro c hc
  simp only [writeByte, tset] at hc ⊢
  rw [openStamp_cut]
  split at hc
  · obtain ⟨hc, hk⟩ := mem_of_mem_tdel hc
    refine ⟨(h2 c hc).1, ?_⟩
    split
    · rfl
    · exact (h2 c hc).2
  · rcases mem_of_mem_tput hc with rfl | hc
    · exact ⟨‹_›, by simp⟩
    · refine ⟨(h2 c hc).1, ?_⟩
      split
      · rfl
      · exact (h2 c hc).2

theorem writeBytes_wf (m : Memory) (k : Nat) (bs : List Byte) (h : m.wf = true) : (writeBytes m k bs).wf = true := by
  induction bs generalizing m k with
  | nil => exact h
  | cons b bs ih => exact ih _ _ (writeByte_wf _ _ _ h)

theorem writeNat_wf (m : Memory) (k n x : Nat) (h : m.wf = true) : (writeNat m k n x).wf = true := writeBytes_wf _ _ _ h

theorem zeroRange_wf (m : Memory) (lo hi : Nat) (hle : lo ≤ hi) (h : m.wf = true) : (zeroRange m lo hi).wf = true := by
  obtain ⟨h0, h1, h2, h3⟩ := (Memory.wf_iff m).1 h
  refine (Memory.wf_iff _).2 ⟨h0, twf_filter _ h1, ?_, rangesWf_cut _ _ hle h3⟩
  intro c hc
  have hc' := (List.mem_filter.1 hc).1
  refine ⟨(h2 c hc').1, ?_⟩
  show openStamp (cutRanges _ _ _) _ = none
  rw [openStamp_cut]
  split
  · rfl
  · exact (h2 c hc').2

theorem freshRange_wf (m : Memory) (lo hi stamp : Nat) (h : m.wf = true) : (freshRange m lo hi stamp).wf = true := by
  unfold freshRange
  split
  · rename_i hlt
    obtain ⟨h0, h1, h2, h3⟩ := (Memory.wf_iff _).1 (zeroRange_wf m lo hi (by omega) h)
    have hd := cut_disjoint lo hi ((Memory.wf_iff m).1 h).2.2.2
    refine (Memory.wf_iff _).2 ⟨h0, h1, ?_, rangesWf_put h3 hlt hd⟩
    intro c hc
    refine ⟨(h2 c hc).1, ?_⟩
    show openStamp (putRange _ _) _ = none
    rw [openStamp_put c.1 hd]
    have hc' := (List.mem_filter.1 hc).2
    simp only [Bool.not_eq_true', Bool.and_eq_false_imp, decide_eq_true_eq, decide_eq_false_iff_not, Nat.not_lt] at hc'
    rw [if_neg fun h => absurd (hc' h.1) (by simpa using h.2)]
    exact (h2 c hc).2
  · exact h

/-- The slots of a table of lines after one of them is set, or some are taken out. -/
theorem slotsWf_tset (m : Memory) (k n : Nat) (h : m.slotsWf = true) :
    Memory.slotsWf { m with slots := tset 0 m.slots k n } = true := by
  simp only [Memory.slotsWf, Bool.and_eq_true, List.all_eq_true] at h ⊢
  refine ⟨twf_tset _ _ _ h.1, fun x hx => ?_⟩
  unfold tset at hx
  split at hx
  · exact h.2 x (mem_of_mem_tdel hx).1
  · rcases mem_of_mem_tput hx with rfl | hx
    · simpa using ‹_›
    · exact h.2 x hx

theorem setSlots_wf (m : Memory) (t : Tbl Nat) (h : m.wf = true) (ht : Memory.slotsWf { m with slots := t } = true) :
    Memory.wf { m with slots := t } = true :=
  (Memory.wf_iff _).2 ⟨ht, ((Memory.wf_iff m).1 h).2⟩

theorem claimLine_wf (m : Memory) (key stamp : Nat) (h : m.wf = true) : (claimLine m key stamp).wf = true := by
  have h' := freshRange_wf (freshRange m
      (slotKey (key / 2 ^ 64 - 1) (slotOf m (key / 2 ^ 64 - 1) (key % 2 ^ 56 / 64 * 64)) (key % 2 ^ 56 / 64 * 64))
      (slotKey (key / 2 ^ 64 - 1) (slotOf m (key / 2 ^ 64 - 1) (key % 2 ^ 56 / 64 * 64)) (key % 2 ^ 56 / 64 * 64) + 64) stamp)
    (slotKey (key / 2 ^ 64 - 1) (key % 2 ^ 64 / 2 ^ 56) (key % 2 ^ 56 / 64 * 64))
    (slotKey (key / 2 ^ 64 - 1) (key % 2 ^ 64 / 2 ^ 56) (key % 2 ^ 56 / 64 * 64) + 64) stamp (freshRange_wf _ _ _ _ h)
  exact setSlots_wf _ _ h' (slotsWf_tset _ _ _ ((Memory.wf_iff _).1 h').1)

/-- R185: the tables of region 1 keep the form. -/
theorem clearPages_wf (m : Memory) (dev page count : Nat) (h : m.wf = true) : (clearPages m dev page count).wf = true := by
  have hz := zeroRange_wf m (slotKey dev 0 (page * 4096)) (slotKey dev 0 (page * 4096 + count * 4096))
    (by simp only [slotKey, devKey]; omega) h
  have hs := ((Memory.wf_iff _).1 hz).1
  refine setSlots_wf _ _ hz ?_
  simp only [Memory.slotsWf, Bool.and_eq_true, List.all_eq_true] at hs ⊢
  exact ⟨twf_filter _ hs.1, fun x hx => hs.2 x (List.mem_filter.1 hx).1⟩

theorem writeEntries_wf (m : Memory) (dev table child count bits : Nat) (h : m.wf = true) :
    (writeEntries m dev table child count bits).wf = true := by
  unfold writeEntries
  induction List.range count generalizing m with
  | nil => exact h
  | cons i is ih => exact ih _ (writeNat_wf _ _ _ _ h)

theorem mapPrivate_wf (m : Memory) (dev key root store pages : Nat) (h : m.wf = true) :
    (mapPrivate m dev key root store pages).wf = true :=
  writeEntries_wf _ _ _ _ _ _ (writeEntries_wf _ _ _ _ _ _ (writeEntries_wf _ _ _ _ _ _ (writeEntries_wf _ _ _ _ _ _
    (clearPages_wf _ _ _ _ h))))

theorem reset_mem_wf : State.reset.mem.wf = true := by decide

/-- Two memories in canonical form with the same open ranges that read alike are equal data. -/
theorem cells_ext {m m' : Memory} (h : m.wf = true) (h' : m'.wf = true) (ho : m.open_ = m'.open_)
    (hr : ∀ k, readByte m k = readByte m' k) (k : Nat) : tget m.cells k = tget m'.cells k := by
  obtain ⟨-, h1, h2, -⟩ := (Memory.wf_iff m).1 h
  obtain ⟨-, h1', h2', -⟩ := (Memory.wf_iff m').1 h'
  have hk := hr k
  unfold readByte unwritten at hk
  cases hm : tget m.cells k with
  | none => cases hm' : tget m'.cells k with
    | none => rfl
    | some b' =>
      obtain ⟨hb, hs⟩ := h2' _ (tget_mem hm')
      simp only [hm, hm', ho, hs] at hk
      exact absurd hk.symm hb
  | some b => 
    obtain ⟨hb, hs⟩ := h2 _ (tget_mem hm)
    cases hm' : tget m'.cells k with
    | none => 
      simp only [hm, hm', ← ho, hs] at hk
      exact absurd hk hb
    | some b' => simpa [hm, hm'] using hk

end Sys2Proof.Machine
end

