-- ==== Sys2Proof/Laws/Regs.lean ====
section
/-! SUPPORT. Laws of the register file: what a read gives after a write of a lane register, a predicate, a uniform
register, a group of registers, and a group in several lanes. -/
namespace Sys2Proof.Machine

/-! ### Lane registers -/

/-- A write of a lane register changes the register file and its error marks, nothing else of the team. -/
theorem vset_eq (t : Team) (l n : Nat) (x : Word) :
    vset t l n x = { t with v := (vset t l n x).v, bad := (vset t l n x).bad } := by
  unfold vset; split <;> rfl

theorem vget_vset {n n' : Nat} (t : Team) (l l' : Nat) (x : Word) (h : n < 128) (h' : n' < 128) :
    vget (vset t l n x) l' n' = if n ≠ 0 ∧ l' = l ∧ n' = n then x else vget t l' n' := by
  by_cases h0 : n = 0
  · simp [vset, h0]
  by_cases h0' : n' = 0
  · simp only [vget, h0', if_true]
    rw [if_neg (by omega)]
  · simp only [vget, vset, h0, h0', if_false, tgetD_tset]
    by_cases hk : l' * 128 + n' = l * 128 + n
    · rw [if_pos hk, if_pos (by omega)]
    · rw [if_neg hk, if_neg (by omega)]

theorem mem_vset_bad (t : Team) (l n : Nat) (x : Word) (key : Nat) :
    key ∈ (vset t l n x).bad ↔ key ∈ t.bad ∧ ¬(n ≠ 0 ∧ key = l * 128 + n) := by
  unfold vset; split <;> simp_all

/-- Writing consecutive registers of a lane: the first `w` after `n`. -/
theorem vget_vsetRun (x : Nat → Word) {n n' : Nat} (w : Nat) (t : Team) (l l' : Nat) (h0 : n ≠ 0) (h : n + w ≤ 128) (h' : n' < 128) :
    vget ((List.range w).foldl (fun t i => vset t l (n + i) (x i)) t) l' n' =
      if l' = l ∧ n ≤ n' ∧ n' < n + w then x (n' - n) else vget t l' n' := by
  induction w with
  | zero => simp only [List.range_zero, List.foldl_nil]; rw [if_neg (by omega)]
  | succ w ih =>
    simp only [List.range_succ, List.foldl_append, List.foldl_cons, List.foldl_nil]
    rw [vget_vset _ _ _ _ (by omega) h', ih (by omega)]
    by_cases h1 : l' = l ∧ n' = n + w
    · obtain ⟨rfl, rfl⟩ := h1
      rw [if_pos (by omega), if_pos (by omega)]; congr 1; omega
    · rw [if_neg (by omega)]
      by_cases h2 : l' = l ∧ n ≤ n' ∧ n' < n + w
      · rw [if_pos h2, if_pos (by omega)]
      · rw [if_neg h2, if_neg (by omega)]

theorem mem_vsetRun_bad (x : Nat → Word) (n w : Nat) (t : Team) (l : Nat) (h0 : n ≠ 0) (key : Nat) :
    key ∈ ((List.range w).foldl (fun t i => vset t l (n + i) (x i)) t).bad ↔
      key ∈ t.bad ∧ ¬∃ i, i < w ∧ key = l * 128 + (n + i) := by
  induction w with
  | zero => simp
  | succ w ih =>
    simp only [List.range_succ, List.foldl_append, List.foldl_cons, List.foldl_nil, mem_vset_bad, ih, not_exists, not_and]
    constructor
    · rintro ⟨⟨h1, h2⟩, h3⟩
      refine ⟨h1, fun i hi hk => ?_⟩
      by_cases hw : i = w
      · subst hw; exact h3 (by omega) hk
      · exact h2 i (by omega) hk
    · rintro ⟨h1, h2⟩
      exact ⟨⟨h1, fun i hi hk => h2 i (by omega) hk⟩, fun _ hk => h2 w (by omega) hk⟩

theorem foldl_team_eq {α : Type} (step : Team → α → Team)
    (hstep : ∀ t a, step t a = { t with v := (step t a).v, bad := (step t a).bad }) (ls : List α) (t : Team) :
    ls.foldl step t = { t with v := (ls.foldl step t).v, bad := (ls.foldl step t).bad } := by
  induction ls generalizing t with
  | nil => rfl
  | cons a ls ih => simp only [List.foldl_cons]; rw [ih (step t a), hstep t a]

theorem vsetW_eq (t : Team) (l n w x : Nat) :
    vsetW t l n w x = { t with v := (vsetW t l n w x).v, bad := (vsetW t l n w x).bad } := by
  unfold vsetW
  split
  · rfl
  · exact foldl_team_eq _ (fun t i => vset_eq t l (n + i) _) _ _

theorem vget_vsetW {n n' w : Nat} (t : Team) (l l' x : Nat) (h : n + w ≤ 128) (h' : n' < 128) :
    vget (vsetW t l n w x) l' n' =
      if n ≠ 0 ∧ l' = l ∧ n ≤ n' ∧ n' < n + w then BitVec.ofNat 32 (x / 2 ^ (32 * (n' - n))) else vget t l' n' := by
  unfold vsetW
  split
  · simp [*]
  · rw [vget_vsetRun (fun i => BitVec.ofNat 32 (x / 2 ^ (32 * i))) w t l l' ‹_› h h']
    split <;> rename_i hc
    · rw [if_pos ⟨‹_›, hc⟩]
    · rw [if_neg fun hc' => hc hc'.2]

/-- The key of a register written in lane `l`: of the `w` registers from `n` up, unless they start at v0. -/
def WroteKey (l n w key : Nat) : Prop := n ≠ 0 ∧ ∃ i, i < w ∧ key = l * 128 + (n + i)

theorem mem_vsetW_bad (t : Team) (l n w x key : Nat) :
    key ∈ (vsetW t l n w x).bad ↔ key ∈ t.bad ∧ ¬WroteKey l n w key := by
  unfold vsetW WroteKey
  split
  · simp [*]
  · rename_i h0
    rw [mem_vsetRun_bad (fun i => BitVec.ofNat 32 (x / 2 ^ (32 * i))) n w t l h0 key]
    simp [h0]

theorem writeLanes_eq (t : Team) (ls : List Nat) (vd w : Nat) (f : Nat → Nat) :
    writeLanes t ls vd w f = { t with v := (writeLanes t ls vd w f).v, bad := (writeLanes t ls vd w f).bad } :=
  foldl_team_eq _ (fun t l => vsetW_eq t l vd w (f l)) _ _

/-- R97: a group written in several lanes. -/
theorem vget_writeLanes {vd n w : Nat} (t : Team) (ls : List Nat) (l : Nat) (f : Nat → Nat) (h : vd + w ≤ 128) (h' : n < 128) :
    vget (writeLanes t ls vd w f) l n =
      if l ∈ ls ∧ vd ≠ 0 ∧ vd ≤ n ∧ n < vd + w then BitVec.ofNat 32 (f l / 2 ^ (32 * (n - vd))) else vget t l n := by
  unfold writeLanes
  induction ls generalizing t with
  | nil => simp
  | cons a ls ih =>
    simp only [List.foldl_cons, ih, vget_vsetW t a l (f a) h h', List.mem_cons]
    by_cases hr : vd ≠ 0 ∧ vd ≤ n ∧ n < vd + w
    · by_cases hl : l ∈ ls
      · rw [if_pos ⟨hl, hr⟩, if_pos ⟨Or.inr hl, hr⟩]
      · rw [if_neg fun hc => hl hc.1]
        by_cases ha : l = a
        · subst ha; rw [if_pos ⟨hr.1, rfl, hr.2⟩, if_pos ⟨Or.inl rfl, hr⟩]
        · rw [if_neg fun hc => ha hc.2.1, if_neg fun hc => (hc.1.elim ha hl)]
    · rw [if_neg fun hc => hr hc.2, if_neg fun hc => hr ⟨hc.1, hc.2.2⟩, if_neg fun hc => hr hc.2]

theorem mem_writeLanes_bad (t : Team) (ls : List Nat) (vd w : Nat) (f : Nat → Nat) (key : Nat) :
    key ∈ (writeLanes t ls vd w f).bad ↔ key ∈ t.bad ∧ ¬∃ l, l ∈ ls ∧ WroteKey l vd w key := by
  unfold writeLanes
  induction ls generalizing t with
  | nil => simp
  | cons a ls ih =>
    simp only [List.foldl_cons, ih, mem_vsetW_bad, List.mem_cons]
    constructor
    · rintro ⟨⟨h1, h2⟩, h3⟩
      exact ⟨h1, fun ⟨l, hl, hk⟩ => hl.elim (fun h => h2 (h ▸ hk)) fun h => h3 ⟨l, h, hk⟩⟩
    · rintro ⟨h1, h2⟩
      exact ⟨⟨h1, fun hk => h2 ⟨a, Or.inl rfl, hk⟩⟩, fun ⟨l, hl, hk⟩ => h2 ⟨l, Or.inr hl, hk⟩⟩

/-! ### Predicates -/

theorem pset_eq (t : Team) (l n : Nat) (b : Bool) :
    pset t l n b = { t with p := (pset t l n b).p, badP := (pset t l n b).badP } := by
  unfold pset; split <;> rfl

theorem pget_pset {n n' : Nat} (t : Team) (l l' : Nat) (b : Bool) (h : n < 8) (h' : n' < 8) :
    pget (pset t l n b) l' n' = if n ≠ 0 ∧ l' = l ∧ n' = n then b else pget t l' n' := by
  by_cases h0 : n = 0
  · simp [pset, h0]
  by_cases h0' : n' = 0
  · simp only [pget, h0', if_true]
    rw [if_neg (by omega)]
  · simp only [pget, pset, h0, h0', if_false, tgetD_tset]
    by_cases hl : l' = l
    · subst hl
      simp only [if_true, true_and, ne_eq, h0, not_false_eq_true]
      by_cases hn : n' = n
      · subst hn
        cases b <;> simp [h'] 
      · have hne : ¬ n' - n = 0 ∨ n' < n := by omega
        rw [if_neg hn]
        cases b <;> simp [h'] <;> intros <;> omega
    · rw [if_neg hl, if_neg fun hc => hl hc.2.1]

theorem writePreds_eq (t : Team) (ls : List Nat) (pd : Nat) (f : Nat → Bool) :
    writePreds t ls pd f = { t with p := (writePreds t ls pd f).p, badP := (writePreds t ls pd f).badP } := by
  unfold writePreds
  induction ls generalizing t with
  | nil => rfl
  | cons a ls ih => simp only [List.foldl_cons]; rw [ih, pset_eq t a pd (f a)]

/-- R97: a predicate written in several lanes. -/
theorem pget_writePreds {pd n : Nat} (t : Team) (ls : List Nat) (l : Nat) (f : Nat → Bool) (h : pd < 8) (h' : n < 8) :
    pget (writePreds t ls pd f) l n = if l ∈ ls ∧ pd ≠ 0 ∧ n = pd then f l else pget t l n := by
  unfold writePreds
  induction ls generalizing t with
  | nil => simp
  | cons a ls ih =>
    simp only [List.foldl_cons, ih, pget_pset t a l (f a) h h', List.mem_cons]
    by_cases hr : pd ≠ 0 ∧ n = pd
    · by_cases hl : l ∈ ls
      · rw [if_pos ⟨hl, hr⟩, if_pos ⟨Or.inr hl, hr⟩]
      · rw [if_neg fun hc => hl hc.1]
        by_cases ha : l = a
        · subst ha; rw [if_pos ⟨hr.1, rfl, hr.2⟩, if_pos ⟨Or.inl rfl, hr⟩]
        · rw [if_neg fun hc => ha hc.2.1, if_neg fun hc => (hc.1.elim ha hl)]
    · rw [if_neg fun hc => hr hc.2, if_neg fun hc => hr ⟨hc.1, hc.2.2⟩, if_neg fun hc => hr hc.2]

/-! ### Uniform registers -/

theorem kset_eq (t : Team) (n : Nat) (x : Word) :
    kset t n x = { t with k := (kset t n x).k, badK := (kset t n x).badK } := by
  unfold kset; split <;> rfl

theorem kget_kset {n n' : Nat} (t : Team) (x : Word) (h : n < 64) :
    kget (kset t n x) n' = if n ≠ 0 ∧ n' = n then x else kget t n' := by
  by_cases h0 : n = 0
  · simp [kset, h0]
  by_cases h0' : n' = 0
  · simp only [kget, h0', if_true]
    rw [if_neg (by omega)]
  · simp only [kget, kset, h0, h0', if_false, tgetD_tset]
    by_cases hn : n' = n
    · subst hn; simp [h, h0]
    · simp [hn]

theorem ksetD_eq (t : Team) (n : Nat) (x : Dbl) :
    ksetD t n x = { t with k := (ksetD t n x).k, badK := (ksetD t n x).badK } := by
  unfold ksetD; split
  · rfl
  · rw [kset_eq _ (n + 1), kset_eq t n]

theorem kget_ksetD {n n' : Nat} (t : Team) (x : Dbl) (h : n + 1 < 64) :
    kget (ksetD t n x) n' = if n ≠ 0 ∧ n' = n then x.setWidth 32
      else if n ≠ 0 ∧ n' = n + 1 then (x >>> 32).setWidth 32 else kget t n' := by
  unfold ksetD
  split
  · simp [*]
  · rw [kget_kset _ _ (by omega), kget_kset _ _ (by omega)]
    by_cases h1 : n' = n + 1
    · subst h1; simp [*]
    · simp [*]

/-! ### Lanes -/

/-- R67: the lanes an instruction acts in. -/
theorem mem_activeLanes (t : Team) (neg : Bool) (g : BitVec 3) (l : Nat) :
    l ∈ activeLanes t neg g ↔ l < t.size ∧ t.mask.getLsbD l = true ∧ pget t l g.toNat ≠ neg := by
  simp [activeLanes]

end Sys2Proof.Machine
end

