-- ==== Sys2Proof/Laws/State.lean ====
section
/-! SUPPORT. What each named update of the state leaves of each field: one lemma per field per update. -/
namespace Sys2Proof.Machine

variable (s : State)

@[simp] theorem putTeam_agenda (id : Nat) (x : Team) : (putTeam s id x).agenda = s.agenda := rfl
@[simp] theorem putTeam_cur (id : Nat) (x : Team) : (putTeam s id x).cur = s.cur := rfl
@[simp] theorem putTeam_now (id : Nat) (x : Team) : (putTeam s id x).now = s.now := rfl
@[simp] theorem putTeam_stamp (id : Nat) (x : Team) : (putTeam s id x).stamp = s.stamp := rfl
@[simp] theorem putTeam_issues (id : Nat) (x : Team) : (putTeam s id x).issues = s.issues := rfl
@[simp] theorem putTeam_fresh (id : Nat) (x : Team) : (putTeam s id x).fresh = s.fresh := rfl
@[simp] theorem putTeam_answer (id : Nat) (x : Team) : (putTeam s id x).answer = s.answer := rfl
@[simp] theorem putTeam_teams (id : Nat) (x : Team) : (putTeam s id x).teams = tput s.teams id x := rfl
@[simp] theorem putTeam_blocks (id : Nat) (x : Team) : (putTeam s id x).blocks = s.blocks := rfl
@[simp] theorem putTeam_ctxs (id : Nat) (x : Team) : (putTeam s id x).ctxs = s.ctxs := rfl
@[simp] theorem putTeam_nodes (id : Nat) (x : Team) : (putTeam s id x).nodes = s.nodes := rfl
@[simp] theorem putTeam_devs (id : Nat) (x : Team) : (putTeam s id x).devs = s.devs := rfl
@[simp] theorem putTeam_sites (id : Nat) (x : Team) : (putTeam s id x).sites = s.sites := rfl
@[simp] theorem putTeam_cores (id : Nat) (x : Team) : (putTeam s id x).cores = s.cores := rfl
@[simp] theorem putTeam_moves (id : Nat) (x : Team) : (putTeam s id x).moves = s.moves := rfl
@[simp] theorem putTeam_reqs (id : Nat) (x : Team) : (putTeam s id x).reqs = s.reqs := rfl
@[simp] theorem putTeam_colls (id : Nat) (x : Team) : (putTeam s id x).colls = s.colls := rfl
@[simp] theorem putTeam_gangs (id : Nat) (x : Team) : (putTeam s id x).gangs = s.gangs := rfl
@[simp] theorem putTeam_fabric (id : Nat) (x : Team) : (putTeam s id x).fabric = s.fabric := rfl
@[simp] theorem putTeam_errors (id : Nat) (x : Team) : (putTeam s id x).errors = s.errors := rfl
@[simp] theorem putTeam_mem (id : Nat) (x : Team) : (putTeam s id x).mem = s.mem := rfl

@[simp] theorem putBlock_agenda (id : Nat) (x : Block) : (putBlock s id x).agenda = s.agenda := rfl
@[simp] theorem putBlock_cur (id : Nat) (x : Block) : (putBlock s id x).cur = s.cur := rfl
@[simp] theorem putBlock_now (id : Nat) (x : Block) : (putBlock s id x).now = s.now := rfl
@[simp] theorem putBlock_stamp (id : Nat) (x : Block) : (putBlock s id x).stamp = s.stamp := rfl
@[simp] theorem putBlock_issues (id : Nat) (x : Block) : (putBlock s id x).issues = s.issues := rfl
@[simp] theorem putBlock_fresh (id : Nat) (x : Block) : (putBlock s id x).fresh = s.fresh := rfl
@[simp] theorem putBlock_answer (id : Nat) (x : Block) : (putBlock s id x).answer = s.answer := rfl
@[simp] theorem putBlock_teams (id : Nat) (x : Block) : (putBlock s id x).teams = s.teams := rfl
@[simp] theorem putBlock_blocks (id : Nat) (x : Block) : (putBlock s id x).blocks = tput s.blocks id x := rfl
@[simp] theorem putBlock_ctxs (id : Nat) (x : Block) : (putBlock s id x).ctxs = s.ctxs := rfl
@[simp] theorem putBlock_nodes (id : Nat) (x : Block) : (putBlock s id x).nodes = s.nodes := rfl
@[simp] theorem putBlock_devs (id : Nat) (x : Block) : (putBlock s id x).devs = s.devs := rfl
@[simp] theorem putBlock_sites (id : Nat) (x : Block) : (putBlock s id x).sites = s.sites := rfl
@[simp] theorem putBlock_cores (id : Nat) (x : Block) : (putBlock s id x).cores = s.cores := rfl
@[simp] theorem putBlock_moves (id : Nat) (x : Block) : (putBlock s id x).moves = s.moves := rfl
@[simp] theorem putBlock_reqs (id : Nat) (x : Block) : (putBlock s id x).reqs = s.reqs := rfl
@[simp] theorem putBlock_colls (id : Nat) (x : Block) : (putBlock s id x).colls = s.colls := rfl
@[simp] theorem putBlock_gangs (id : Nat) (x : Block) : (putBlock s id x).gangs = s.gangs := rfl
@[simp] theorem putBlock_fabric (id : Nat) (x : Block) : (putBlock s id x).fabric = s.fabric := rfl
@[simp] theorem putBlock_errors (id : Nat) (x : Block) : (putBlock s id x).errors = s.errors := rfl
@[simp] theorem putBlock_mem (id : Nat) (x : Block) : (putBlock s id x).mem = s.mem := rfl

@[simp] theorem putCtx_agenda (id : Nat) (x : Ctx) : (putCtx s id x).agenda = s.agenda := rfl
@[simp] theorem putCtx_cur (id : Nat) (x : Ctx) : (putCtx s id x).cur = s.cur := rfl
@[simp] theorem putCtx_now (id : Nat) (x : Ctx) : (putCtx s id x).now = s.now := rfl
@[simp] theorem putCtx_stamp (id : Nat) (x : Ctx) : (putCtx s id x).stamp = s.stamp := rfl
@[simp] theorem putCtx_issues (id : Nat) (x : Ctx) : (putCtx s id x).issues = s.issues := rfl
@[simp] theorem putCtx_fresh (id : Nat) (x : Ctx) : (putCtx s id x).fresh = s.fresh := rfl
@[simp] theorem putCtx_answer (id : Nat) (x : Ctx) : (putCtx s id x).answer = s.answer := rfl
@[simp] theorem putCtx_teams (id : Nat) (x : Ctx) : (putCtx s id x).teams = s.teams := rfl
@[simp] theorem putCtx_blocks (id : Nat) (x : Ctx) : (putCtx s id x).blocks = s.blocks := rfl
@[simp] theorem putCtx_ctxs (id : Nat) (x : Ctx) : (putCtx s id x).ctxs = tput s.ctxs id x := rfl
@[simp] theorem putCtx_nodes (id : Nat) (x : Ctx) : (putCtx s id x).nodes = s.nodes := rfl
@[simp] theorem putCtx_devs (id : Nat) (x : Ctx) : (putCtx s id x).devs = s.devs := rfl
@[simp] theorem putCtx_sites (id : Nat) (x : Ctx) : (putCtx s id x).sites = s.sites := rfl
@[simp] theorem putCtx_cores (id : Nat) (x : Ctx) : (putCtx s id x).cores = s.cores := rfl
@[simp] theorem putCtx_moves (id : Nat) (x : Ctx) : (putCtx s id x).moves = s.moves := rfl
@[simp] theorem putCtx_reqs (id : Nat) (x : Ctx) : (putCtx s id x).reqs = s.reqs := rfl
@[simp] theorem putCtx_colls (id : Nat) (x : Ctx) : (putCtx s id x).colls = s.colls := rfl
@[simp] theorem putCtx_gangs (id : Nat) (x : Ctx) : (putCtx s id x).gangs = s.gangs := rfl
@[simp] theorem putCtx_fabric (id : Nat) (x : Ctx) : (putCtx s id x).fabric = s.fabric := rfl
@[simp] theorem putCtx_errors (id : Nat) (x : Ctx) : (putCtx s id x).errors = s.errors := rfl
@[simp] theorem putCtx_mem (id : Nat) (x : Ctx) : (putCtx s id x).mem = s.mem := rfl

@[simp] theorem putNode_agenda (id : Nat) (x : Node) : (putNode s id x).agenda = s.agenda := rfl
@[simp] theorem putNode_cur (id : Nat) (x : Node) : (putNode s id x).cur = s.cur := rfl
@[simp] theorem putNode_now (id : Nat) (x : Node) : (putNode s id x).now = s.now := rfl
@[simp] theorem putNode_stamp (id : Nat) (x : Node) : (putNode s id x).stamp = s.stamp := rfl
@[simp] theorem putNode_issues (id : Nat) (x : Node) : (putNode s id x).issues = s.issues := rfl
@[simp] theorem putNode_fresh (id : Nat) (x : Node) : (putNode s id x).fresh = s.fresh := rfl
@[simp] theorem putNode_answer (id : Nat) (x : Node) : (putNode s id x).answer = s.answer := rfl
@[simp] theorem putNode_teams (id : Nat) (x : Node) : (putNode s id x).teams = s.teams := rfl
@[simp] theorem putNode_blocks (id : Nat) (x : Node) : (putNode s id x).blocks = s.blocks := rfl
@[simp] theorem putNode_ctxs (id : Nat) (x : Node) : (putNode s id x).ctxs = s.ctxs := rfl
@[simp] theorem putNode_nodes (id : Nat) (x : Node) : (putNode s id x).nodes = tput s.nodes id x := rfl
@[simp] theorem putNode_devs (id : Nat) (x : Node) : (putNode s id x).devs = s.devs := rfl
@[simp] theorem putNode_sites (id : Nat) (x : Node) : (putNode s id x).sites = s.sites := rfl
@[simp] theorem putNode_cores (id : Nat) (x : Node) : (putNode s id x).cores = s.cores := rfl
@[simp] theorem putNode_moves (id : Nat) (x : Node) : (putNode s id x).moves = s.moves := rfl
@[simp] theorem putNode_reqs (id : Nat) (x : Node) : (putNode s id x).reqs = s.reqs := rfl
@[simp] theorem putNode_colls (id : Nat) (x : Node) : (putNode s id x).colls = s.colls := rfl
@[simp] theorem putNode_gangs (id : Nat) (x : Node) : (putNode s id x).gangs = s.gangs := rfl
@[simp] theorem putNode_fabric (id : Nat) (x : Node) : (putNode s id x).fabric = s.fabric := rfl
@[simp] theorem putNode_errors (id : Nat) (x : Node) : (putNode s id x).errors = s.errors := rfl
@[simp] theorem putNode_mem (id : Nat) (x : Node) : (putNode s id x).mem = s.mem := rfl

@[simp] theorem modTeam_agenda (id : Nat) (f : Team → Team) : (modTeam s id f).agenda = s.agenda := rfl
@[simp] theorem modTeam_cur (id : Nat) (f : Team → Team) : (modTeam s id f).cur = s.cur := rfl
@[simp] theorem modTeam_now (id : Nat) (f : Team → Team) : (modTeam s id f).now = s.now := rfl
@[simp] theorem modTeam_stamp (id : Nat) (f : Team → Team) : (modTeam s id f).stamp = s.stamp := rfl
@[simp] theorem modTeam_issues (id : Nat) (f : Team → Team) : (modTeam s id f).issues = s.issues := rfl
@[simp] theorem modTeam_fresh (id : Nat) (f : Team → Team) : (modTeam s id f).fresh = s.fresh := rfl
@[simp] theorem modTeam_answer (id : Nat) (f : Team → Team) : (modTeam s id f).answer = s.answer := rfl
@[simp] theorem modTeam_teams (id : Nat) (f : Team → Team) : (modTeam s id f).teams = tmod s.teams id f := rfl
@[simp] theorem modTeam_blocks (id : Nat) (f : Team → Team) : (modTeam s id f).blocks = s.blocks := rfl
@[simp] theorem modTeam_ctxs (id : Nat) (f : Team → Team) : (modTeam s id f).ctxs = s.ctxs := rfl
@[simp] theorem modTeam_nodes (id : Nat) (f : Team → Team) : (modTeam s id f).nodes = s.nodes := rfl
@[simp] theorem modTeam_devs (id : Nat) (f : Team → Team) : (modTeam s id f).devs = s.devs := rfl
@[simp] theorem modTeam_sites (id : Nat) (f : Team → Team) : (modTeam s id f).sites = s.sites := rfl
@[simp] theorem modTeam_cores (id : Nat) (f : Team → Team) : (modTeam s id f).cores = s.cores := rfl
@[simp] theorem modTeam_moves (id : Nat) (f : Team → Team) : (modTeam s id f).moves = s.moves := rfl
@[simp] theorem modTeam_reqs (id : Nat) (f : Team → Team) : (modTeam s id f).reqs = s.reqs := rfl
@[simp] theorem modTeam_colls (id : Nat) (f : Team → Team) : (modTeam s id f).colls = s.colls := rfl
@[simp] theorem modTeam_gangs (id : Nat) (f : Team → Team) : (modTeam s id f).gangs = s.gangs := rfl
@[simp] theorem modTeam_fabric (id : Nat) (f : Team → Team) : (modTeam s id f).fabric = s.fabric := rfl
@[simp] theorem modTeam_errors (id : Nat) (f : Team → Team) : (modTeam s id f).errors = s.errors := rfl
@[simp] theorem modTeam_mem (id : Nat) (f : Team → Team) : (modTeam s id f).mem = s.mem := rfl

@[simp] theorem modBlock_agenda (id : Nat) (f : Block → Block) : (modBlock s id f).agenda = s.agenda := rfl
@[simp] theorem modBlock_cur (id : Nat) (f : Block → Block) : (modBlock s id f).cur = s.cur := rfl
@[simp] theorem modBlock_now (id : Nat) (f : Block → Block) : (modBlock s id f).now = s.now := rfl
@[simp] theorem modBlock_stamp (id : Nat) (f : Block → Block) : (modBlock s id f).stamp = s.stamp := rfl
@[simp] theorem modBlock_issues (id : Nat) (f : Block → Block) : (modBlock s id f).issues = s.issues := rfl
@[simp] theorem modBlock_fresh (id : Nat) (f : Block → Block) : (modBlock s id f).fresh = s.fresh := rfl
@[simp] theorem modBlock_answer (id : Nat) (f : Block → Block) : (modBlock s id f).answer = s.answer := rfl
@[simp] theorem modBlock_teams (id : Nat) (f : Block → Block) : (modBlock s id f).teams = s.teams := rfl
@[simp] theorem modBlock_blocks (id : Nat) (f : Block → Block) : (modBlock s id f).blocks = tmod s.blocks id f := rfl
@[simp] theorem modBlock_ctxs (id : Nat) (f : Block → Block) : (modBlock s id f).ctxs = s.ctxs := rfl
@[simp] theorem modBlock_nodes (id : Nat) (f : Block → Block) : (modBlock s id f).nodes = s.nodes := rfl
@[simp] theorem modBlock_devs (id : Nat) (f : Block → Block) : (modBlock s id f).devs = s.devs := rfl
@[simp] theorem modBlock_sites (id : Nat) (f : Block → Block) : (modBlock s id f).sites = s.sites := rfl
@[simp] theorem modBlock_cores (id : Nat) (f : Block → Block) : (modBlock s id f).cores = s.cores := rfl
@[simp] theorem modBlock_moves (id : Nat) (f : Block → Block) : (modBlock s id f).moves = s.moves := rfl
@[simp] theorem modBlock_reqs (id : Nat) (f : Block → Block) : (modBlock s id f).reqs = s.reqs := rfl
@[simp] theorem modBlock_colls (id : Nat) (f : Block → Block) : (modBlock s id f).colls = s.colls := rfl
@[simp] theorem modBlock_gangs (id : Nat) (f : Block → Block) : (modBlock s id f).gangs = s.gangs := rfl
@[simp] theorem modBlock_fabric (id : Nat) (f : Block → Block) : (modBlock s id f).fabric = s.fabric := rfl
@[simp] theorem modBlock_errors (id : Nat) (f : Block → Block) : (modBlock s id f).errors = s.errors := rfl
@[simp] theorem modBlock_mem (id : Nat) (f : Block → Block) : (modBlock s id f).mem = s.mem := rfl

@[simp] theorem modCtx_agenda (id : Nat) (f : Ctx → Ctx) : (modCtx s id f).agenda = s.agenda := rfl
@[simp] theorem modCtx_cur (id : Nat) (f : Ctx → Ctx) : (modCtx s id f).cur = s.cur := rfl
@[simp] theorem modCtx_now (id : Nat) (f : Ctx → Ctx) : (modCtx s id f).now = s.now := rfl
@[simp] theorem modCtx_stamp (id : Nat) (f : Ctx → Ctx) : (modCtx s id f).stamp = s.stamp := rfl
@[simp] theorem modCtx_issues (id : Nat) (f : Ctx → Ctx) : (modCtx s id f).issues = s.issues := rfl
@[simp] theorem modCtx_fresh (id : Nat) (f : Ctx → Ctx) : (modCtx s id f).fresh = s.fresh := rfl
@[simp] theorem modCtx_answer (id : Nat) (f : Ctx → Ctx) : (modCtx s id f).answer = s.answer := rfl
@[simp] theorem modCtx_teams (id : Nat) (f : Ctx → Ctx) : (modCtx s id f).teams = s.teams := rfl
@[simp] theorem modCtx_blocks (id : Nat) (f : Ctx → Ctx) : (modCtx s id f).blocks = s.blocks := rfl
@[simp] theorem modCtx_ctxs (id : Nat) (f : Ctx → Ctx) : (modCtx s id f).ctxs = tmod s.ctxs id f := rfl
@[simp] theorem modCtx_nodes (id : Nat) (f : Ctx → Ctx) : (modCtx s id f).nodes = s.nodes := rfl
@[simp] theorem modCtx_devs (id : Nat) (f : Ctx → Ctx) : (modCtx s id f).devs = s.devs := rfl
@[simp] theorem modCtx_sites (id : Nat) (f : Ctx → Ctx) : (modCtx s id f).sites = s.sites := rfl
@[simp] theorem modCtx_cores (id : Nat) (f : Ctx → Ctx) : (modCtx s id f).cores = s.cores := rfl
@[simp] theorem modCtx_moves (id : Nat) (f : Ctx → Ctx) : (modCtx s id f).moves = s.moves := rfl
@[simp] theorem modCtx_reqs (id : Nat) (f : Ctx → Ctx) : (modCtx s id f).reqs = s.reqs := rfl
@[simp] theorem modCtx_colls (id : Nat) (f : Ctx → Ctx) : (modCtx s id f).colls = s.colls := rfl
@[simp] theorem modCtx_gangs (id : Nat) (f : Ctx → Ctx) : (modCtx s id f).gangs = s.gangs := rfl
@[simp] theorem modCtx_fabric (id : Nat) (f : Ctx → Ctx) : (modCtx s id f).fabric = s.fabric := rfl
@[simp] theorem modCtx_errors (id : Nat) (f : Ctx → Ctx) : (modCtx s id f).errors = s.errors := rfl
@[simp] theorem modCtx_mem (id : Nat) (f : Ctx → Ctx) : (modCtx s id f).mem = s.mem := rfl

@[simp] theorem modNode_agenda (id : Nat) (f : Node → Node) : (modNode s id f).agenda = s.agenda := rfl
@[simp] theorem modNode_cur (id : Nat) (f : Node → Node) : (modNode s id f).cur = s.cur := rfl
@[simp] theorem modNode_now (id : Nat) (f : Node → Node) : (modNode s id f).now = s.now := rfl
@[simp] theorem modNode_stamp (id : Nat) (f : Node → Node) : (modNode s id f).stamp = s.stamp := rfl
@[simp] theorem modNode_issues (id : Nat) (f : Node → Node) : (modNode s id f).issues = s.issues := rfl
@[simp] theorem modNode_fresh (id : Nat) (f : Node → Node) : (modNode s id f).fresh = s.fresh := rfl
@[simp] theorem modNode_answer (id : Nat) (f : Node → Node) : (modNode s id f).answer = s.answer := rfl
@[simp] theorem modNode_teams (id : Nat) (f : Node → Node) : (modNode s id f).teams = s.teams := rfl
@[simp] theorem modNode_blocks (id : Nat) (f : Node → Node) : (modNode s id f).blocks = s.blocks := rfl
@[simp] theorem modNode_ctxs (id : Nat) (f : Node → Node) : (modNode s id f).ctxs = s.ctxs := rfl
@[simp] theorem modNode_nodes (id : Nat) (f : Node → Node) : (modNode s id f).nodes = tmod s.nodes id f := rfl
@[simp] theorem modNode_devs (id : Nat) (f : Node → Node) : (modNode s id f).devs = s.devs := rfl
@[simp] theorem modNode_sites (id : Nat) (f : Node → Node) : (modNode s id f).sites = s.sites := rfl
@[simp] theorem modNode_cores (id : Nat) (f : Node → Node) : (modNode s id f).cores = s.cores := rfl
@[simp] theorem modNode_moves (id : Nat) (f : Node → Node) : (modNode s id f).moves = s.moves := rfl
@[simp] theorem modNode_reqs (id : Nat) (f : Node → Node) : (modNode s id f).reqs = s.reqs := rfl
@[simp] theorem modNode_colls (id : Nat) (f : Node → Node) : (modNode s id f).colls = s.colls := rfl
@[simp] theorem modNode_gangs (id : Nat) (f : Node → Node) : (modNode s id f).gangs = s.gangs := rfl
@[simp] theorem modNode_fabric (id : Nat) (f : Node → Node) : (modNode s id f).fabric = s.fabric := rfl
@[simp] theorem modNode_errors (id : Nat) (f : Node → Node) : (modNode s id f).errors = s.errors := rfl
@[simp] theorem modNode_mem (id : Nat) (f : Node → Node) : (modNode s id f).mem = s.mem := rfl

@[simp] theorem putSite_agenda (id : Nat) (x : Site) : (putSite s id x).agenda = s.agenda := rfl
@[simp] theorem putSite_cur (id : Nat) (x : Site) : (putSite s id x).cur = s.cur := rfl
@[simp] theorem putSite_now (id : Nat) (x : Site) : (putSite s id x).now = s.now := rfl
@[simp] theorem putSite_stamp (id : Nat) (x : Site) : (putSite s id x).stamp = s.stamp := rfl
@[simp] theorem putSite_issues (id : Nat) (x : Site) : (putSite s id x).issues = s.issues := rfl
@[simp] theorem putSite_fresh (id : Nat) (x : Site) : (putSite s id x).fresh = s.fresh := rfl
@[simp] theorem putSite_answer (id : Nat) (x : Site) : (putSite s id x).answer = s.answer := rfl
@[simp] theorem putSite_teams (id : Nat) (x : Site) : (putSite s id x).teams = s.teams := rfl
@[simp] theorem putSite_blocks (id : Nat) (x : Site) : (putSite s id x).blocks = s.blocks := rfl
@[simp] theorem putSite_ctxs (id : Nat) (x : Site) : (putSite s id x).ctxs = s.ctxs := rfl
@[simp] theorem putSite_nodes (id : Nat) (x : Site) : (putSite s id x).nodes = s.nodes := rfl
@[simp] theorem putSite_devs (id : Nat) (x : Site) : (putSite s id x).devs = s.devs := rfl
@[simp] theorem putSite_sites (id : Nat) (x : Site) : (putSite s id x).sites = tput s.sites id x := rfl
@[simp] theorem putSite_cores (id : Nat) (x : Site) : (putSite s id x).cores = s.cores := rfl
@[simp] theorem putSite_moves (id : Nat) (x : Site) : (putSite s id x).moves = s.moves := rfl
@[simp] theorem putSite_reqs (id : Nat) (x : Site) : (putSite s id x).reqs = s.reqs := rfl
@[simp] theorem putSite_colls (id : Nat) (x : Site) : (putSite s id x).colls = s.colls := rfl
@[simp] theorem putSite_gangs (id : Nat) (x : Site) : (putSite s id x).gangs = s.gangs := rfl
@[simp] theorem putSite_fabric (id : Nat) (x : Site) : (putSite s id x).fabric = s.fabric := rfl
@[simp] theorem putSite_errors (id : Nat) (x : Site) : (putSite s id x).errors = s.errors := rfl
@[simp] theorem putSite_mem (id : Nat) (x : Site) : (putSite s id x).mem = s.mem := rfl

@[simp] theorem modSite_agenda (id : Nat) (f : Site → Site) : (modSite s id f).agenda = s.agenda := rfl
@[simp] theorem modSite_cur (id : Nat) (f : Site → Site) : (modSite s id f).cur = s.cur := rfl
@[simp] theorem modSite_now (id : Nat) (f : Site → Site) : (modSite s id f).now = s.now := rfl
@[simp] theorem modSite_stamp (id : Nat) (f : Site → Site) : (modSite s id f).stamp = s.stamp := rfl
@[simp] theorem modSite_issues (id : Nat) (f : Site → Site) : (modSite s id f).issues = s.issues := rfl
@[simp] theorem modSite_fresh (id : Nat) (f : Site → Site) : (modSite s id f).fresh = s.fresh := rfl
@[simp] theorem modSite_answer (id : Nat) (f : Site → Site) : (modSite s id f).answer = s.answer := rfl
@[simp] theorem modSite_teams (id : Nat) (f : Site → Site) : (modSite s id f).teams = s.teams := rfl
@[simp] theorem modSite_blocks (id : Nat) (f : Site → Site) : (modSite s id f).blocks = s.blocks := rfl
@[simp] theorem modSite_ctxs (id : Nat) (f : Site → Site) : (modSite s id f).ctxs = s.ctxs := rfl
@[simp] theorem modSite_nodes (id : Nat) (f : Site → Site) : (modSite s id f).nodes = s.nodes := rfl
@[simp] theorem modSite_devs (id : Nat) (f : Site → Site) : (modSite s id f).devs = s.devs := rfl
@[simp] theorem modSite_sites (id : Nat) (f : Site → Site) : (modSite s id f).sites = tput s.sites id (f (siteOf s id)) := rfl
@[simp] theorem modSite_cores (id : Nat) (f : Site → Site) : (modSite s id f).cores = s.cores := rfl
@[simp] theorem modSite_moves (id : Nat) (f : Site → Site) : (modSite s id f).moves = s.moves := rfl
@[simp] theorem modSite_reqs (id : Nat) (f : Site → Site) : (modSite s id f).reqs = s.reqs := rfl
@[simp] theorem modSite_colls (id : Nat) (f : Site → Site) : (modSite s id f).colls = s.colls := rfl
@[simp] theorem modSite_gangs (id : Nat) (f : Site → Site) : (modSite s id f).gangs = s.gangs := rfl
@[simp] theorem modSite_fabric (id : Nat) (f : Site → Site) : (modSite s id f).fabric = s.fabric := rfl
@[simp] theorem modSite_errors (id : Nat) (f : Site → Site) : (modSite s id f).errors = s.errors := rfl
@[simp] theorem modSite_mem (id : Nat) (f : Site → Site) : (modSite s id f).mem = s.mem := rfl

@[simp] theorem putDev_agenda (id : Nat) (x : Device) : (putDev s id x).agenda = s.agenda := rfl
@[simp] theorem putDev_cur (id : Nat) (x : Device) : (putDev s id x).cur = s.cur := rfl
@[simp] theorem putDev_now (id : Nat) (x : Device) : (putDev s id x).now = s.now := rfl
@[simp] theorem putDev_stamp (id : Nat) (x : Device) : (putDev s id x).stamp = s.stamp := rfl
@[simp] theorem putDev_issues (id : Nat) (x : Device) : (putDev s id x).issues = s.issues := rfl
@[simp] theorem putDev_fresh (id : Nat) (x : Device) : (putDev s id x).fresh = s.fresh := rfl
@[simp] theorem putDev_answer (id : Nat) (x : Device) : (putDev s id x).answer = s.answer := rfl
@[simp] theorem putDev_teams (id : Nat) (x : Device) : (putDev s id x).teams = s.teams := rfl
@[simp] theorem putDev_blocks (id : Nat) (x : Device) : (putDev s id x).blocks = s.blocks := rfl
@[simp] theorem putDev_ctxs (id : Nat) (x : Device) : (putDev s id x).ctxs = s.ctxs := rfl
@[simp] theorem putDev_nodes (id : Nat) (x : Device) : (putDev s id x).nodes = s.nodes := rfl
@[simp] theorem putDev_devs (id : Nat) (x : Device) : (putDev s id x).devs = tput s.devs id x := rfl
@[simp] theorem putDev_sites (id : Nat) (x : Device) : (putDev s id x).sites = s.sites := rfl
@[simp] theorem putDev_cores (id : Nat) (x : Device) : (putDev s id x).cores = s.cores := rfl
@[simp] theorem putDev_moves (id : Nat) (x : Device) : (putDev s id x).moves = s.moves := rfl
@[simp] theorem putDev_reqs (id : Nat) (x : Device) : (putDev s id x).reqs = s.reqs := rfl
@[simp] theorem putDev_colls (id : Nat) (x : Device) : (putDev s id x).colls = s.colls := rfl
@[simp] theorem putDev_gangs (id : Nat) (x : Device) : (putDev s id x).gangs = s.gangs := rfl
@[simp] theorem putDev_fabric (id : Nat) (x : Device) : (putDev s id x).fabric = s.fabric := rfl
@[simp] theorem putDev_errors (id : Nat) (x : Device) : (putDev s id x).errors = s.errors := rfl
@[simp] theorem putDev_mem (id : Nat) (x : Device) : (putDev s id x).mem = s.mem := rfl

@[simp] theorem modDev_agenda (id : Nat) (f : Device → Device) : (modDev s id f).agenda = s.agenda := rfl
@[simp] theorem modDev_cur (id : Nat) (f : Device → Device) : (modDev s id f).cur = s.cur := rfl
@[simp] theorem modDev_now (id : Nat) (f : Device → Device) : (modDev s id f).now = s.now := rfl
@[simp] theorem modDev_stamp (id : Nat) (f : Device → Device) : (modDev s id f).stamp = s.stamp := rfl
@[simp] theorem modDev_issues (id : Nat) (f : Device → Device) : (modDev s id f).issues = s.issues := rfl
@[simp] theorem modDev_fresh (id : Nat) (f : Device → Device) : (modDev s id f).fresh = s.fresh := rfl
@[simp] theorem modDev_answer (id : Nat) (f : Device → Device) : (modDev s id f).answer = s.answer := rfl
@[simp] theorem modDev_teams (id : Nat) (f : Device → Device) : (modDev s id f).teams = s.teams := rfl
@[simp] theorem modDev_blocks (id : Nat) (f : Device → Device) : (modDev s id f).blocks = s.blocks := rfl
@[simp] theorem modDev_ctxs (id : Nat) (f : Device → Device) : (modDev s id f).ctxs = s.ctxs := rfl
@[simp] theorem modDev_nodes (id : Nat) (f : Device → Device) : (modDev s id f).nodes = s.nodes := rfl
@[simp] theorem modDev_devs (id : Nat) (f : Device → Device) : (modDev s id f).devs = tput s.devs id (f (devOf s id)) := rfl
@[simp] theorem modDev_sites (id : Nat) (f : Device → Device) : (modDev s id f).sites = s.sites := rfl
@[simp] theorem modDev_cores (id : Nat) (f : Device → Device) : (modDev s id f).cores = s.cores := rfl
@[simp] theorem modDev_moves (id : Nat) (f : Device → Device) : (modDev s id f).moves = s.moves := rfl
@[simp] theorem modDev_reqs (id : Nat) (f : Device → Device) : (modDev s id f).reqs = s.reqs := rfl
@[simp] theorem modDev_colls (id : Nat) (f : Device → Device) : (modDev s id f).colls = s.colls := rfl
@[simp] theorem modDev_gangs (id : Nat) (f : Device → Device) : (modDev s id f).gangs = s.gangs := rfl
@[simp] theorem modDev_fabric (id : Nat) (f : Device → Device) : (modDev s id f).fabric = s.fabric := rfl
@[simp] theorem modDev_errors (id : Nat) (f : Device → Device) : (modDev s id f).errors = s.errors := rfl
@[simp] theorem modDev_mem (id : Nat) (f : Device → Device) : (modDev s id f).mem = s.mem := rfl

@[simp] theorem modVf_agenda (d id : Nat) (f : VfCore → VfCore) : (modVf s d id f).agenda = s.agenda := rfl
@[simp] theorem modVf_cur (d id : Nat) (f : VfCore → VfCore) : (modVf s d id f).cur = s.cur := rfl
@[simp] theorem modVf_now (d id : Nat) (f : VfCore → VfCore) : (modVf s d id f).now = s.now := rfl
@[simp] theorem modVf_stamp (d id : Nat) (f : VfCore → VfCore) : (modVf s d id f).stamp = s.stamp := rfl
@[simp] theorem modVf_issues (d id : Nat) (f : VfCore → VfCore) : (modVf s d id f).issues = s.issues := rfl
@[simp] theorem modVf_fresh (d id : Nat) (f : VfCore → VfCore) : (modVf s d id f).fresh = s.fresh := rfl
@[simp] theorem modVf_answer (d id : Nat) (f : VfCore → VfCore) : (modVf s d id f).answer = s.answer := rfl
@[simp] theorem modVf_teams (d id : Nat) (f : VfCore → VfCore) : (modVf s d id f).teams = s.teams := rfl
@[simp] theorem modVf_blocks (d id : Nat) (f : VfCore → VfCore) : (modVf s d id f).blocks = s.blocks := rfl
@[simp] theorem modVf_ctxs (d id : Nat) (f : VfCore → VfCore) : (modVf s d id f).ctxs = s.ctxs := rfl
@[simp] theorem modVf_nodes (d id : Nat) (f : VfCore → VfCore) : (modVf s d id f).nodes = s.nodes := rfl
@[simp] theorem modVf_devs (d id : Nat) (f : VfCore → VfCore) : (modVf s d id f).devs = tput s.devs d { devOf s d with vfcores := tput (devOf s d).vfcores id (f (tgetD (devOf s d).vfcores id {})) } := rfl
@[simp] theorem modVf_sites (d id : Nat) (f : VfCore → VfCore) : (modVf s d id f).sites = s.sites := rfl
@[simp] theorem modVf_cores (d id : Nat) (f : VfCore → VfCore) : (modVf s d id f).cores = s.cores := rfl
@[simp] theorem modVf_moves (d id : Nat) (f : VfCore → VfCore) : (modVf s d id f).moves = s.moves := rfl
@[simp] theorem modVf_reqs (d id : Nat) (f : VfCore → VfCore) : (modVf s d id f).reqs = s.reqs := rfl
@[simp] theorem modVf_colls (d id : Nat) (f : VfCore → VfCore) : (modVf s d id f).colls = s.colls := rfl
@[simp] theorem modVf_gangs (d id : Nat) (f : VfCore → VfCore) : (modVf s d id f).gangs = s.gangs := rfl
@[simp] theorem modVf_fabric (d id : Nat) (f : VfCore → VfCore) : (modVf s d id f).fabric = s.fabric := rfl
@[simp] theorem modVf_errors (d id : Nat) (f : VfCore → VfCore) : (modVf s d id f).errors = s.errors := rfl
@[simp] theorem modVf_mem (d id : Nat) (f : VfCore → VfCore) : (modVf s d id f).mem = s.mem := rfl

end Sys2Proof.Machine
end

