-- ==== Sys2Proof/Laws/Ops.lean ====
section
/-! SUPPORT. One lemma per shared operation: what issuing under the register checks, completing, raising a cause and the
instruction shapes of Machine/Operands.lean do. -/
namespace Sys2Proof.Machine

/-! ### The register checks (R66, R83, R280) -/

theorem groupFault_none {t : Team} {vs ks : List (Nat × Nat)} (ha : ∀ x ∈ vs ++ ks, x.1 % x.2 = 0)
    (hv : ∀ x ∈ vs, (64 ≤ x.1 → x.1 < 96 → t.e1 = true) ∧ (96 ≤ x.1 → t.e2 = true)) : groupFault t vs ks = none := by
  have h1 : ((vs ++ ks).find? fun x => x.1 % x.2 ≠ 0) = none := by
    rw [List.find?_eq_none]; intro x hx; simp [ha x hx]
  have h2 : (vs.find? fun x => (decide (64 ≤ x.1) && decide (x.1 < 96) && !t.e1) || (decide (96 ≤ x.1) && !t.e2)) = none := by
    rw [List.find?_eq_none]; intro x hx
    obtain ⟨p, q⟩ := hv x hx
    simp only [Bool.or_eq_true, Bool.and_eq_true, decide_eq_true_eq, Bool.not_eq_true', not_or, not_and, Bool.not_eq_false]
    exact ⟨fun h => p h.1 h.2, q⟩
  simp only [groupFault, h1, h2]

/-- R280: no register that is read holds an error: a lane register in a lane it is read from, a uniform register at all. -/
theorem badSource_none {t : Team} {srcs ks : List (Nat × Nat)} {reads : Option (Nat → List Nat)}
    (h : ∀ x ∈ srcs, ∀ key ∈ t.bad, ¬(x.1 ≤ key % 128 ∧ key % 128 < x.1 + x.2 ∧ key % 128 ≠ 0 ∧
      match reads with
      | some f => key / 128 ∈ f (key % 128)
      | none => t.mask.getLsbD (key / 128) = true))
    (hk : ∀ x ∈ ks, ∀ n ∈ t.badK, ¬(x.1 ≤ n ∧ n < x.1 + x.2 ∧ n ≠ 0)) : badSource t srcs ks reads = none := by
  have h1 : (groupRegs srcs).find? (fun n => n ≠ 0 && badLane t reads n) = none := by
    rw [List.find?_eq_none]
    intro n hn
    simp only [groupRegs, List.mem_flatMap, List.mem_map, List.mem_range] at hn
    obtain ⟨x, hx, i, hi, rfl⟩ := hn
    simp only [badLane, Bool.and_eq_true, List.any_eq_true, decide_eq_true_eq, not_and, not_exists]
    intro hz key hk hm hl
    refine h x hx key hk ⟨by omega, by omega, by simpa [hm] using hz, ?_⟩
    cases reads with
    | none => exact hl
    | some f => rw [hm]; simpa using hl
  have h2 : (groupRegs ks).find? (fun n => n ≠ 0 && t.badK.contains n) = none := by
    rw [List.find?_eq_none]
    intro n hn
    simp only [groupRegs, List.mem_flatMap, List.mem_map, List.mem_range] at hn
    obtain ⟨x, hx, i, hi, rfl⟩ := hn
    simp only [Bool.and_eq_true, decide_eq_true_eq, not_and, List.contains_eq_mem]
    intro hz hm
    exact hk x hx _ hm ⟨by omega, by omega, by simpa using hz⟩
  rw [badSource, h1, h2]

/-- What `withTeam` can do: nothing without a live team, raise 0x003 or 0x005, raise 0x2C6, or run. -/
theorem withTeam_cases (s : State) (dst src ks : List (Nat × Nat)) (f : Team → Out) (kd : List (Nat × Nat))
    (reads : Team → Option (Nat → List Nat)) :
    (withTeam s dst src ks f kd reads = .next s) ∨
    ∃ t, tget s.teams s.cur = some t ∧
      ((∃ c r, groupFault t (dst ++ src) (kd ++ ks) = some (c, r) ∧ withTeam s dst src ks f kd reads = .next (raise s c r)) ∨
        (∃ r, groupFault t (dst ++ src) (kd ++ ks) = none ∧ badSource t src ks (reads t) = some r ∧
          withTeam s dst src ks f kd reads = .next (raise s 0x2C6 r)) ∨
        (groupFault t (dst ++ src) (kd ++ ks) = none ∧ badSource t src ks (reads t) = none ∧
          withTeam s dst src ks f kd reads = f t)) := by
  unfold withTeam
  split
  · exact .inl rfl
  · rename_i t ht
    split
    · exact .inl rfl
    · split
      · exact .inr ⟨t, ht, .inl ⟨_, _, ‹_›, rfl⟩⟩
      · split
        · exact .inr ⟨t, ht, .inr (.inl ⟨_, ‹_›, ‹_›, rfl⟩)⟩
        · exact .inr ⟨t, ht, .inr (.inr ⟨‹_›, ‹_›, rfl⟩)⟩

theorem withTeam_run {s : State} {t : Team} {dst src ks : List (Nat × Nat)} (f : Team → Out) {kd : List (Nat × Nat)}
    {reads : Team → Option (Nat → List Nat)} (ht : tget s.teams s.cur = some t) (he : t.ended = false) (hm : t.mask ≠ 0)
    (hg : groupFault t (dst ++ src) (kd ++ ks) = none) (hb : badSource t src ks (reads t) = none) :
    withTeam s dst src ks f kd reads = f t := by
  have hc : (t.ended || (t.mask = 0 && t.wait = .none)) = false := by rw [he, decide_eq_false hm]; rfl
  simp only [withTeam, ht, hc, hg, hb]
  rfl

theorem withView_run {s : State} {w : View} {dst src ks : List (Nat × Nat)} (f : View → Out) {kd : List (Nat × Nat)}
    (hw : viewOf s s.cur = some w) (he : w.t.ended = false) (hm : w.t.mask ≠ 0)
    (hg : groupFault w.t (dst ++ src) (kd ++ ks) = none) (hb : badSource w.t src ks none = none) :
    withView s dst src ks f kd = f w := by
  have ht : tget s.teams s.cur = some w.t := by
    unfold viewOf at hw
    split at hw
    · cases hw
    · split at hw
      · cases hw
      · split at hw
        · injection hw with hw; subst hw; assumption
        · cases hw
  unfold withView
  rw [withTeam_run _ ht he hm hg hb, hw]

/-- What a view of a team holds. -/
theorem viewOf_some {s : State} {id : Nat} {w : View} (hw : viewOf s id = some w) :
    tget s.teams id = some w.t ∧ tget s.blocks w.t.block = some w.b ∧ tget s.ctxs w.b.ctx = some w.c ∧
      tget s.nodes w.b.node = some w.n := by
  unfold viewOf at hw
  split at hw
  · cases hw
  · split at hw
    · cases hw
    · split at hw
      · injection hw with hw; subst hw; exact ⟨‹_›, ‹_›, ‹_›, ‹_›⟩
      · cases hw

theorem viewOf_of {s : State} {id : Nat} {t : Team} {b : Block} {c : Ctx} {n : Node} (ht : tget s.teams id = some t)
    (hb : tget s.blocks t.block = some b) (hc : tget s.ctxs b.ctx = some c) (hn : tget s.nodes b.node = some n) :
    viewOf s id = some ⟨t, b, c, n⟩ := by
  simp [viewOf, ht, hb, hc, hn]

/-! ### Completing -/

theorem complete_run (s : State) (id : Nat) (t : Team) (len : Nat) (h : t.mask ≠ 0) :
    complete s id t len =
      putTeam s id { t with pc := t.pc + BitVec.ofNat 64 len, wait := .none, swept := 0, stopAt := none } := by
  rw [complete, if_neg h]

theorem finish_run (s : State) (t : Team) (len : Nat) (h : t.mask ≠ 0) :
    finish s t len =
      .next (putTeam s s.cur { t with pc := t.pc + BitVec.ofNat 64 len, wait := .none, swept := 0, stopAt := none }) := by
  rw [finish, complete_run _ _ _ _ h]

/-! ### The shapes of lane instructions -/

/-- What a lane instruction does when no register check stops it. -/
theorem laneOp_run {s : State} {t : Team} {len vd wd : Nat} {srcs : List (Nat × Nat)}
    {reads : Team → Option (Nat → List Nat)} (lanes : Team → List Nat)
    (f : Team → Nat → Nat) (ht : tget s.teams s.cur = some t) (he : t.ended = false) (hm : t.mask ≠ 0)
    (hg : groupFault t ([(vd, wd)] ++ srcs) [] = none) (hb : badSource t srcs [] (reads t) = none) :
    laneOp s len vd wd srcs lanes f reads =
      .next (putTeam s s.cur { writeLanes t (lanes t) vd wd (f t) with
        pc := t.pc + BitVec.ofNat 64 len, wait := .none, swept := 0, stopAt := none }) := by
  unfold laneOp
  rw [withTeam_run _ ht he hm hg hb, finish_run]
  · rw [writeLanes_eq]
  · rw [writeLanes_eq]; exact hm

theorem predOp_run {s : State} {t : Team} {len pd : Nat} {srcs : List (Nat × Nat)}
    {reads : Team → Option (Nat → List Nat)} (lanes : Team → List Nat)
    (f : Team → Nat → Bool) (ht : tget s.teams s.cur = some t) (he : t.ended = false) (hm : t.mask ≠ 0)
    (hg : groupFault t ([] ++ srcs) [] = none) (hb : badSource t srcs [] (reads t) = none) :
    predOp s len pd srcs lanes f reads =
      .next (putTeam s s.cur { writePreds t (lanes t) pd (f t) with
        pc := t.pc + BitVec.ofNat 64 len, wait := .none, swept := 0, stopAt := none }) := by
  unfold predOp
  rw [withTeam_run _ ht he hm hg hb, finish_run]
  · rw [writePreds_eq]
  · rw [writePreds_eq]; exact hm

/-- The flags raised over some lanes. -/
theorem orFlags {α : Type} (ls : List α) (a : FFlags) (g : α → FFlags) :
    ls.foldl (fun a r => a ||| g r) a = a ||| ls.foldl (fun a r => a ||| g r) 0 := by
  induction ls generalizing a with
  | nil => simp
  | cons x ls ih =>
    simp only [List.foldl_cons]
    rw [ih (a ||| g x), ih (0 ||| g x)]
    simp [BitVec.or_assoc]

theorem foldl_map_writeLanes (t : Team) (ls : List Nat) (vd wd : Nat) (f : Nat → Nat × FFlags) :
    (ls.map fun l => (l, f l)).foldl (fun acc r => vsetW acc r.1 vd wd r.2.1) t = writeLanes t ls vd wd fun l => (f l).1 := by
  simp [writeLanes, List.foldl_map]

theorem foldl_map_writePreds (t : Team) (ls : List Nat) (pd : Nat) (f : Nat → Bool × FFlags) :
    (ls.map fun l => (l, f l)).foldl (fun acc r => pset acc r.1 pd r.2.1) t = writePreds t ls pd fun l => (f l).1 := by
  simp [writePreds, List.foldl_map]

/-- What a float instruction does when no register check stops it and it raises no enabled flag (R45, R46). -/
theorem flagOp_run {s : State} {t : Team} {len vd wd : Nat} {srcs : List (Nat × Nat)}
    {reads : Team → Option (Nat → List Nat)} (lanes : Team → List Nat)
    (f : Team → Nat → Nat × FFlags) (ht : tget s.teams s.cur = some t) (he : t.ended = false) (hm : t.mask ≠ 0)
    (hg : groupFault t ([(vd, wd)] ++ srcs) [] = none) (hb : badSource t srcs [] (reads t) = none)
    (hf : (lanes t).foldl (fun a l => a ||| (f t l).2) (0 : FFlags) &&& t.fptrap.setWidth 5 = 0) :
    flagOp s len vd wd srcs lanes f reads =
      .next (putTeam s s.cur { writeLanes t (lanes t) vd wd (fun l => (f t l).1) with
        pc := t.pc + BitVec.ofNat 64 len
        wait := .none
        swept := 0
        stopAt := none
        fpflags := t.fpflags ||| ((lanes t).foldl (fun a l => a ||| (f t l).2) (0 : FFlags)).setWidth 32 }) := by
  unfold flagOp
  rw [withTeam_run _ ht he hm hg hb]
  simp only [List.foldl_map, hf, ne_eq, not_true_eq_false, if_false]
  rw [finish_run]
  · rw [show (lanes t).foldl (fun acc l => vsetW acc l vd wd (f t l).1) t = writeLanes t (lanes t) vd wd fun l => (f t l).1 from rfl,
      writeLanes_eq]
  · rw [show (lanes t).foldl (fun acc l => vsetW acc l vd wd (f t l).1) t = writeLanes t (lanes t) vd wd fun l => (f t l).1 from rfl,
      writeLanes_eq]; exact hm

/-- As `flagOp_run`, for a predicate. -/
theorem flagPred_run {s : State} {t : Team} {len pd : Nat} {srcs : List (Nat × Nat)}
    {reads : Team → Option (Nat → List Nat)} (lanes : Team → List Nat)
    (f : Team → Nat → Bool × FFlags) (ht : tget s.teams s.cur = some t) (he : t.ended = false) (hm : t.mask ≠ 0)
    (hg : groupFault t ([] ++ srcs) [] = none) (hb : badSource t srcs [] (reads t) = none)
    (hf : (lanes t).foldl (fun a l => a ||| (f t l).2) (0 : FFlags) &&& t.fptrap.setWidth 5 = 0) :
    flagPred s len pd srcs lanes f reads =
      .next (putTeam s s.cur { writePreds t (lanes t) pd (fun l => (f t l).1) with
        pc := t.pc + BitVec.ofNat 64 len
        wait := .none
        swept := 0
        stopAt := none
        fpflags := t.fpflags ||| ((lanes t).foldl (fun a l => a ||| (f t l).2) (0 : FFlags)).setWidth 32 }) := by
  unfold flagPred
  rw [withTeam_run _ ht he hm hg hb]
  simp only [List.foldl_map, hf, ne_eq, not_true_eq_false, if_false]
  rw [show (lanes t).foldl (fun acc l => pset acc l pd (f t l).1) t = writePreds t (lanes t) pd fun l => (f t l).1 from rfl]
  rw [finish_run]
  · rw [writePreds_eq]
  · rw [writePreds_eq]; exact hm

/-- R46: an enabled flag traps before any write. -/
theorem flagOp_trap {s : State} {t : Team} {len vd wd : Nat} {srcs : List (Nat × Nat)}
    {reads : Team → Option (Nat → List Nat)} (lanes : Team → List Nat)
    (f : Team → Nat → Nat × FFlags) (ht : tget s.teams s.cur = some t) (he : t.ended = false) (hm : t.mask ≠ 0)
    (hg : groupFault t ([(vd, wd)] ++ srcs) [] = none) (hb : badSource t srcs [] (reads t) = none)
    (hf : (lanes t).foldl (fun a l => a ||| (f t l).2) (0 : FFlags) &&& t.fptrap.setWidth 5 ≠ 0) :
    flagOp s len vd wd srcs lanes f reads =
      .next (raise s (0x1C0 + lowBit ((lanes t).foldl (fun a l => a ||| (f t l).2) (0 : FFlags) &&& t.fptrap.setWidth 5).toNat 5)
        ((lanes t).foldl (fun a l => a ||| (f t l).2) (0 : FFlags)).toNat) := by
  unfold flagOp
  rw [withTeam_run _ ht he hm hg hb]
  simp only [List.foldl_map, ne_eq, hf, not_false_eq_true, if_true]

end Sys2Proof.Machine
end

