-- ==== Sys2Proof/Tests/Slice0.lean ====
section
/-! SUPPORT. Tests: ill-formed instructions that WellFormed refuses, words written out from the encoding tables of spec 05
and what they decode to, single steps, and for every statement a state and operands that meet its hypotheses. -/
set_option Elab.async false
set_option maxRecDepth 20000
set_option exponentiation.threshold 1100

namespace Sys2Proof.Tests

open Sys2Proof Sys2Proof.Machine

/-! ### Ill-formed terms, one for each check of WellFormed (R83 step 4) -/

def a0 : A64 := ⟨0, 0, false, 0, 0, 0, 0, 0, 0⟩
def i0 : I64 := ⟨0, false, 0, 0, 0, 0⟩
def m0 : M64 := ⟨0, 0, false, 0, 0, 0, 0, 0⟩
def e0 : E64 := ⟨0, 0, 0, 0, 0, 0, 0, 0, 0, 0, 0⟩

/-- R67: p0 with negate; in every format that has a guard. -/
theorem test_wf_guard :
    Instr.legal (.iadd { a0 with n := true }) = false ∧ Instr.legal (.fadd { a0 with n := true }) = false ∧
    Instr.legal (.iaddImm { i0 with n := true }) = false ∧ Instr.legal (.ld { m0 with n := true }) = false ∧
    Instr.legal (.bra ⟨0, true, 0⟩) = false ∧ Instr.legal (.shfl { a0 with n := true }) = false ∧
    Instr.legal (.padd { a0 with n := true }) = false ∧ Instr.legal (.srd { i0 with imm := 1, n := true }) = false := by decide +kernel

/-- R68: each kind of permutation at its first illegal parameters, and a reserved kind. -/
theorem test_wf_permutation : [0x01, 0x20, 0x40, 0x48, 0x60, 0x66, 0xA0, 0xFF].all (fun p => !permOk p) = true ∧
    [0x00, 0x21, 0x3F, 0x41, 0x47, 0x61, 0x65, 0x80, 0x9F].all permOk = true := by decide +kernel

/-- R76: a modifier, a source, or a bit that an operation of major 0x01 does not take. -/
theorem test_wf_integer :
    Instr.legal (.iand { a0 with m := 0x40 }) = false ∧ Instr.legal (.imulh { a0 with m := 0x80 }) = false ∧
    Instr.legal (.iabs { a0 with vb := 1 }) = false ∧ Instr.legal (.iadd { a0 with vc := 1 }) = false ∧
    Instr.legal (.mov { a0 with pb := 0x21 }) = false ∧ Instr.legal (.isel { a0 with vc := 8 }) = false ∧
    Instr.legal (.icmp { a0 with vc := 6 }) = false ∧ Instr.legal (.icmp { a0 with vd := 8 }) = false ∧
    Instr.legal (.icmp { a0 with vc := 16 }) = false ∧ Instr.legal (.iadd { a0 with m := 1 }) = false := by decide +kernel

/-- R77: the reserved type, a rounding or a type that an operation does not take, a second source of a unary one. -/
theorem test_wf_float :
    Instr.legal (.fadd { a0 with m := 0x30 }) = false ∧ Instr.legal (.fmin { a0 with m := 0x40 }) = false ∧
    Instr.legal (.fclass { a0 with m := 0x10 }) = false ∧ Instr.legal (.fcmp { a0 with vc := 8 }) = false ∧
    Instr.legal (.fcmp { a0 with m := 0x10 }) = false ∧ Instr.legal (.frcp { a0 with vb := 1 }) = false ∧
    Instr.legal (.fadd { a0 with vc := 1 }) = false ∧ Instr.legal (.fcmp { a0 with vd := 8 }) = false := by decide +kernel

/-- R78, R42: a rounding code above 4, equal types, a type outside the list, rs without fewer bits, vb without rs. -/
theorem test_wf_convert :
    Instr.legal (.fcvt { a0 with vc := 1, m := 0x14 }) = false ∧ Instr.legal (.fcvt a0) = false ∧
    Instr.legal (.fcvt { a0 with vc := 4 }) = false ∧ Instr.legal (.fcvt { a0 with pb := 1, m := 0x10 }) = false ∧
    Instr.legal (.fcvt { a0 with vc := 1, vb := 1 }) = false ∧ Instr.legal (.fcvt { a0 with vc := 0x21 }) = false ∧
    Instr.legal (.fcvt { a0 with vc := 1, pb := 0x20 }) = false ∧ Instr.legal (.i2f { a0 with pb := 4 }) = false ∧
    Instr.legal (.f2i { a0 with pb := 1 }) = false ∧ Instr.legal (.frnd { a0 with pb := 2 }) = false ∧
    Instr.legal (.i2f { a0 with m := 0x10 }) = false ∧ Instr.legal (.fcvt { a0 with vc := 1, m := 0x20 }) = false := by decide +kernel

/-- R107 to R112: segment sizes, reserved bits and the operations of the scans. -/
theorem test_wf_cross :
    Instr.legal (.shfl { a0 with vc := 6 }) = false ∧ Instr.legal (.voteAny { a0 with vc := 11 }) = false ∧
    Instr.legal (.voteBallot { a0 with vc := 6 }) = false ∧ Instr.legal (.voteAny { a0 with vd := 8 }) = false ∧
    Instr.legal (.voteAll { a0 with va := 16 }) = false ∧ Instr.legal (.redux { a0 with m := 0x2C }) = false ∧
    Instr.legal (.redux { a0 with m := 0x40 }) = false ∧ Instr.legal (.scan { a0 with vc := 16 }) = false ∧
    Instr.legal (.padd { a0 with m := 4 }) = false ∧ Instr.legal (.pgoid { a0 with vb := 1 }) = false ∧
    Instr.legal (.plop { a0 with va := 8 }) = false ∧ Instr.legal (.pmovGet { a0 with va := 1 }) = false ∧
    Instr.legal (.pmovSet { a0 with vd := 1 }) = false ∧ Instr.legal (.k2v { a0 with va := 64 }) = false ∧
    Instr.legal (.v2k { a0 with m := 4 }) = false := by decide +kernel

/-- R79, R115, R124: immediates, special registers and KLOOP. -/
theorem test_wf_immediate :
    Instr.legal (.icmpImm { i0 with vd := 0x50 }) = false ∧ Instr.legal (.movImm { i0 with va := 1 }) = false ∧
    Instr.legal (.fminImm { i0 with m := 0x10 }) = false ∧ Instr.legal (.fcmpImm { i0 with vd := 64 }) = false ∧
    Instr.legal (.kaddImm { i0 with g := 1 }) = false ∧ Instr.legal (.kaddImm { i0 with vd := 64 }) = false ∧
    Instr.legal (.kmovImm { i0 with va := 1 }) = false ∧ Instr.legal (.kcmpImm { i0 with m := 26 }) = false ∧
    Instr.legal (.srd { i0 with imm := 0x008 }) = false ∧ Instr.legal (.srd { i0 with imm := 0x1001 }) = false ∧
    Instr.legal (.srd { i0 with imm := 0x050 }) = false ∧ Instr.legal (.srd { i0 with m := 8 }) = false ∧
    Instr.legal (.swr { i0 with m := 8, imm := 0x001 }) = false ∧ Instr.legal (.swr { i0 with imm := 0x060 }) = false ∧
    Instr.legal (.srd { i0 with imm := 0x100001 }) = false ∧ Instr.legal (.kloop { i0 with vd := 0 }) = false ∧
    Instr.legal (.kcmp ⟨10, 0, 0, 0⟩) = false := by decide +kernel

/-- R80, R142, R143, R149, R151, R152: sizes, scopes, bases and modifiers of the memory formats. -/
theorem test_wf_memory :
    Instr.legal (.ld { m0 with m := 5 }) = false ∧ Instr.legal (.ld { m0 with m := 0x0A }) = false ∧
    Instr.legal (.ld { m0 with m := 0x20 }) = false ∧ Instr.legal (.ld { m0 with sc := 1 }) = false ∧
    Instr.legal (.ld { m0 with m := 0x20, sc := 6 }) = false ∧ Instr.legal (.ld { m0 with m := 0x40, va := 64 }) = false ∧
    Instr.legal (.ld { m0 with m := 0x80 }) = false ∧ Instr.legal (.st { m0 with m := 0x10 }) = false ∧
    Instr.legal (.st { m0 with m := 0x08 }) = false ∧ Instr.legal (.atomAdd m0) = false ∧
    Instr.legal (.atomFadd { m0 with sc := 1, m := 0x80 }) = false ∧ Instr.legal (.redAdd { m0 with sc := 1, m := 0x10 }) = false ∧
    Instr.legal (.waita { m0 with m := 0x10 }) = false ∧ Instr.legal (.fenceAcq m0) = false ∧
    Instr.legal (.fenceRel { m0 with sc := 1, vd := 1 }) = false ∧ Instr.legal (.stMc { m0 with imm := 256 }) = false ∧
    Instr.legal (.stMc { m0 with m := 0x20, sc := 2 }) = false ∧ Instr.legal (.kld { m0 with m := 0x08 }) = false ∧
    Instr.legal (.kst { m0 with m := 0x10 }) = false ∧ Instr.legal (.kld { m0 with vi := 1 }) = false := by decide +kernel

/-- R155 to R161, R127, R82: barriers, tags, timelines, chunks, BRM. -/
theorem test_wf_sync :
    Instr.legal (.barArv { a0 with vc := 28 }) = false ∧ Instr.legal (.barExp { a0 with vc := 24 }) = false ∧
    Instr.legal (.barWait { a0 with vd := 1 }) = false ∧ Instr.legal (.barTest { a0 with vd := 64 }) = false ∧
    Instr.legal (.barSync { a0 with g := 1 }) = false ∧ Instr.legal (.tagWait { i0 with vd := 1 }) = false ∧
    Instr.legal (.tagFfs { i0 with m := 8 }) = false ∧ Instr.legal (.tagClr { i0 with vd := 1 }) = false ∧
    Instr.legal (.tlWait { i0 with m := 0x28 }) = false ∧ Instr.legal (.tlRd { i0 with imm := 2 }) = false ∧
    Instr.legal (.racq { i0 with imm := 4 }) = false ∧ Instr.legal (.racq { i0 with vd := 1 }) = false ∧
    Instr.legal (.rrel { i0 with m := 2 }) = false ∧ Instr.legal (.brm ⟨0, 0, 0, 1, 0, 0, 0, 8⟩) = false := by decide +kernel

/-- R81, R221, R222, R232, R234, R239, R243: fields an engine instruction does not read, formats, selectors, flags. -/
theorem test_wf_engine :
    Instr.legal (.mlds { e0 with fa := 1 }) = false ∧ Instr.legal (.mma { e0 with x2 := 1 }) = false ∧
    Instr.legal (.mloop { e0 with kq := 1 }) = false ∧ Instr.legal (.mzero { e0 with sh := 8 }) = false ∧
    Instr.legal (.mrel { e0 with kp := 1 }) = false ∧ Instr.legal (.mrd { e0 with fa := 0x12 }) = false ∧
    Instr.legal (.mrd { e0 with tb := 1 }) = false ∧ Instr.legal (.mqnt e0) = false ∧ Instr.legal (.mscac { e0 with fa := 1 }) = false ∧
    Instr.legal (.mcbl { e0 with x2 := 1 }) = false ∧ Instr.legal (.mhndGet { e0 with x1 := 1 }) = false ∧
    Instr.legal (.mhndSet { e0 with sh := 1 }) = false ∧ Instr.legal (.cpy { e0 with fl := 1 }) = false ∧
    Instr.legal (.cpy { e0 with kq := 1 }) = false ∧ Instr.legal (.gath { e0 with h := 1 }) = false ∧
    Instr.legal (.scat { e0 with sh := 1 }) = false ∧ Instr.legal (.xld { e0 with x2 := 1 }) = false ∧
    Instr.legal (.xadd { e0 with kq := 1 }) = false ∧ Instr.legal (.xset { e0 with m := 0x2C }) = false ∧
    Instr.legal (.xqry { e0 with m := 0x34 }) = false ∧ Instr.legal (.xqry { e0 with m := 0x2C, x1 := 1 }) = false ∧
    Instr.legal (.collAllReduce e0) = false ∧ Instr.legal (.collBroadcast { e0 with fl := 4, m := 0x30 }) = false ∧
    Instr.legal (.grpq { e0 with m := 0x0E }) = false := by decide +kernel

/-- R164 to R167, R244 to R248: immediates and fields of the object, shape, launch and system instructions. -/
theorem test_wf_system :
    Instr.legal (.oqry { i0 with imm := 3 }) = false ∧ Instr.legal (.ohint { i0 with imm := 2048 }) = false ∧
    Instr.legal (.opin { i0 with vd := 1 }) = false ∧ Instr.legal (.oalloc { i0 with imm := 32768 }) = false ∧
    Instr.legal (.ofree { i0 with imm := 1 }) = false ∧ Instr.legal (.oext { i0 with imm := 1 }) = false ∧
    Instr.legal (.otrim { i0 with va := 64 }) = false ∧ Instr.legal (.ogrp { i0 with imm := 4096 }) = false ∧
    Instr.legal (.shpRd { i0 with va := 1 }) = false ∧ Instr.legal (.shpPub { i0 with imm := 2 }) = false ∧
    Instr.legal (.launch { i0 with imm := 1 }) = false ∧ Instr.legal (.cancel { i0 with vd := 1 }) = false ∧
    Instr.legal (.ctrRd { i0 with imm := 1 }) = false ∧ Instr.legal (.sys { i0 with imm := 65536 }) = false ∧
    Instr.legal (.sleep { i0 with vd := 1 }) = false ∧ Instr.legal (.ounpin { i0 with g := 1 }) = false := by decide +kernel

/-! ### Words written out field by field from R69 to R82 -/

/-- R69. -/
def wC (op d s i : Nat) : Nat := 2 * op + 2 ^ 5 * d + 2 ^ 10 * s + 2 ^ 15 * i
/-- R70: L3, RI, RK, B, M, X. -/
def wL (major d a b g : Nat) : Nat := 1 + 4 * major + 2 ^ 8 * d + 2 ^ 15 * a + 2 ^ 22 * b + 2 ^ 29 * g
def wR (major d a imm : Nat) : Nat := 1 + 4 * major + 2 ^ 8 * d + 2 ^ 15 * a + 2 ^ 22 * imm
def wU (major d a b mn : Nat) : Nat := 1 + 4 * major + 2 ^ 8 * d + 2 ^ 14 * a + 2 ^ 20 * b + 2 ^ 26 * mn
def wB (major p n off : Nat) : Nat := 1 + 4 * major + 2 ^ 8 * p + 2 ^ 11 * n + 2 ^ 12 * off
def wX (mn imm : Nat) : Nat := 1 + 4 * 0x2A + 2 ^ 8 * mn + 2 ^ 16 * imm
/-- R74: A64, I64, M64, E64, J64. -/
def wA (major mn d a b c g n pa pb : Nat) : Nat := 3 + 4 * major + 2 ^ 8 * mn + 2 ^ 16 * d + 2 ^ 23 * a + 2 ^ 30 * b +
  2 ^ 37 * c + 2 ^ 44 * g + 2 ^ 47 * n + 2 ^ 48 * pa + 2 ^ 56 * pb
def wI (major mn d a g n imm : Nat) : Nat := 3 + 4 * major + 2 ^ 8 * mn + 2 ^ 14 * d + 2 ^ 21 * a + 2 ^ 28 * g + 2 ^ 31 * n +
  2 ^ 32 * imm
def wM (major mn d a i g n sc imm : Nat) : Nat := 3 + 4 * major + 2 ^ 8 * mn + 2 ^ 16 * d + 2 ^ 23 * a + 2 ^ 30 * i +
  2 ^ 37 * g + 2 ^ 40 * n + 2 ^ 41 * sc + 2 ^ 44 * imm
def wE (major mn x1 x2 h fa fb sh kp kq tb fl : Nat) : Nat := 3 + 4 * major + 2 ^ 8 * mn + 2 ^ 16 * x1 + 2 ^ 20 * x2 + 2 ^ 24 * h +
  2 ^ 27 * fa + 2 ^ 32 * fb + 2 ^ 37 * sh + 2 ^ 42 * kp + 2 ^ 48 * kq + 2 ^ 54 * tb + 2 ^ 60 * fl

/-- The decoder gives exactly this legal instruction, and the encoder gives the word back. -/
abbrev Reads (w : Nat) (i : Instr) : Prop := (decodeWord w).instr = some i ∧ encode i = some w

theorem test_word_c16 :
    Reads (wC 0 1 2 0) (.movC16 ⟨false, 2, 1⟩) ∧ Reads (wC 1 3 5 1) (.iaddC16 ⟨true, 5, 3⟩) ∧
    Reads (wC 2 1 2 0) (.isubC16 ⟨false, 2, 1⟩) ∧ Reads (wC 3 1 2 0) (.imulC16 ⟨false, 2, 1⟩) ∧
    Reads (wC 4 1 31 1) (.iandC16 ⟨true, 31, 1⟩) ∧ Reads (wC 5 1 2 0) (.iorC16 ⟨false, 2, 1⟩) ∧
    Reads (wC 6 1 2 0) (.ixorC16 ⟨false, 2, 1⟩) ∧ Reads (wC 7 1 31 1) (.ishlC16 ⟨true, 31, 1⟩) ∧
    Reads (wC 8 1 2 0) (.ishrC16 ⟨false, 2, 1⟩) ∧ Reads (wC 9 31 2 0) (.isarC16 ⟨false, 2, 31⟩) ∧
    Reads (wC 10 1 2 0) (.iminC16 ⟨false, 2, 1⟩) ∧ Reads (wC 11 1 2 0) (.imaxC16 ⟨false, 2, 1⟩) ∧
    Reads (wC 12 1 2 0) (.faddC16 ⟨2, 1⟩) ∧ Reads (wC 13 1 2 0) (.fsubC16 ⟨2, 1⟩) ∧ Reads (wC 14 1 2 0) (.fmulC16 ⟨2, 1⟩) ∧
    Reads (wC 15 1 2 0) (.fmaxC16 ⟨2, 1⟩) ∧ decodeWord (wC 12 1 2 1) = .bad .field := by decide +kernel

theorem test_word_l3 :
    Reads (wL 0x01 1 2 3 4) (.iaddL3 ⟨4, 3, 2, 1⟩) ∧ Reads (wL 0x02 1 2 3 4) (.isubL3 ⟨4, 3, 2, 1⟩) ∧
    Reads (wL 0x03 1 2 3 4) (.imulL3 ⟨4, 3, 2, 1⟩) ∧ Reads (wL 0x04 1 2 3 4) (.imulhL3 ⟨4, 3, 2, 1⟩) ∧
    Reads (wL 0x05 1 2 3 4) (.iandL3 ⟨4, 3, 2, 1⟩) ∧ Reads (wL 0x06 1 2 3 4) (.iorL3 ⟨4, 3, 2, 1⟩) ∧
    Reads (wL 0x07 1 2 3 4) (.ixorL3 ⟨4, 3, 2, 1⟩) ∧ Reads (wL 0x08 1 2 3 4) (.ishlL3 ⟨4, 3, 2, 1⟩) ∧
    Reads (wL 0x09 1 2 3 4) (.ishrL3 ⟨4, 3, 2, 1⟩) ∧ Reads (wL 0x0A 1 2 3 4) (.isarL3 ⟨4, 3, 2, 1⟩) ∧
    Reads (wL 0x0B 1 2 3 4) (.iminL3 ⟨4, 3, 2, 1⟩) ∧ Reads (wL 0x0C 1 2 3 4) (.imaxL3 ⟨4, 3, 2, 1⟩) ∧
    Reads (wL 0x0D 1 2 3 4) (.faddL3 ⟨4, 3, 2, 1⟩) ∧ Reads (wL 0x0E 1 2 3 4) (.fsubL3 ⟨4, 3, 2, 1⟩) ∧
    Reads (wL 0x0F 127 126 125 7) (.fmulL3 ⟨7, 125, 126, 127⟩) := by decide +kernel

theorem test_word_ri :
    Reads (wR 0x10 40 41 0x3FD) (.iaddRi ⟨0x3FD, 41, 40⟩) ∧ Reads (wR 0x11 1 2 3) (.iandRi ⟨3, 2, 1⟩) ∧
    Reads (wR 0x12 1 2 3) (.iorRi ⟨3, 2, 1⟩) ∧ Reads (wR 0x13 1 2 3) (.ixorRi ⟨3, 2, 1⟩) ∧
    Reads (wR 0x14 1 2 3) (.ishlRi ⟨3, 2, 1⟩) ∧ Reads (wR 0x15 1 2 3) (.ishrRi ⟨3, 2, 1⟩) ∧
    Reads (wR 0x16 1 2 3) (.isarRi ⟨3, 2, 1⟩) ∧ Reads (wR 0x17 1 0 3) (.movRi ⟨3, 1⟩) ∧
    decodeWord (wR 0x17 1 2 3) = .bad .field := by decide +kernel

theorem test_word_uniform :
    Reads (wU 0x18 1 2 0 0) (.kmov ⟨2, 1⟩) ∧ Reads (wU 0x18 1 2 3 1) (.kadd ⟨3, 2, 1⟩) ∧
    Reads (wU 0x18 1 2 3 2) (.ksub ⟨3, 2, 1⟩) ∧ Reads (wU 0x18 1 2 3 3) (.kmul ⟨3, 2, 1⟩) ∧
    Reads (wU 0x18 1 2 3 4) (.kand ⟨3, 2, 1⟩) ∧ Reads (wU 0x18 1 2 3 5) (.kor ⟨3, 2, 1⟩) ∧
    Reads (wU 0x18 1 2 3 6) (.kxor ⟨3, 2, 1⟩) ∧ Reads (wU 0x18 1 2 3 7) (.kshl ⟨3, 2, 1⟩) ∧
    Reads (wU 0x18 1 2 3 8) (.kshr ⟨3, 2, 1⟩) ∧ Reads (wU 0x18 1 2 3 9) (.ksar ⟨3, 2, 1⟩) ∧
    Reads (wU 0x18 1 2 3 10) (.kmin ⟨3, 2, 1⟩) ∧ Reads (wU 0x18 1 2 3 11) (.kmax ⟨3, 2, 1⟩) ∧
    Reads (wU 0x18 1 2 3 12) (.kminN ⟨3, 2, 1⟩) ∧ Reads (wU 0x18 63 62 61 13) (.kmaxN ⟨61, 62, 63⟩) ∧
    Reads (wU 0x19 1 2 3 9) (.kcmp ⟨9, 3, 2, 1⟩) ∧ decodeWord (wU 0x19 1 2 3 10) = .bad .minor ∧
    decodeWord (wU 0x18 1 2 3 14) = .bad .minor ∧ decodeWord (wU 0x18 1 2 3 0) = .bad .field := by decide +kernel

theorem test_word_branch :
    Reads (wB 0x1C 2 1 0xFFFFE) (.bra ⟨0xFFFFE, true, 2⟩) ∧ Reads (wB 0x1D 0 0 5) (.call ⟨5⟩) ∧ Reads (wB 0x1E 0 0 7) (.div ⟨7⟩) ∧
    decodeWord (wB 0x1D 1 0 5) = .bad .field ∧ Reads (wX 0 0) .nopW ∧ Reads 0x000001A9 .exit ∧ Reads (wX 2 0) .join ∧
    Reads (wX 3 0) .ret ∧ Reads (wX 4 0) .yield ∧ Reads (wX 5 0xBEEF) (.bkpt 0xBEEF) ∧ Reads (wX 6 63) (.trap 63) ∧
    Reads (wX 7 0) .eret ∧ decodeWord (wX 6 64) = .bad .field ∧
    Reads (3 + 4 * 0x1C + 2 ^ 8 * 1 + 2 ^ 12 * 10 + 2 ^ 16 * 3 + 2 ^ 20 * 8 + 2 ^ 24 * 5 + 2 ^ 34 * 6 + 2 ^ 44 * 7)
      (.brm ⟨0, 7, 6, 5, 8, 3, 10, 1⟩) := by decide +kernel

theorem test_word_m :
    Reads (wL 0x20 1 2 3 4) (.ldBM ⟨4, 3, 2, 1⟩) ∧ Reads (wL 0x21 1 2 3 4) (.ldHM ⟨4, 3, 2, 1⟩) ∧
    Reads (wL 0x22 1 2 3 4) (.ldWM ⟨4, 3, 2, 1⟩) ∧ Reads (wL 0x23 4 6 1 2) (.ldDM ⟨2, 1, 6, 4⟩) ∧
    Reads (wL 0x24 4 6 1 2) (.ldQM ⟨2, 1, 6, 4⟩) ∧ Reads (wL 0x25 1 2 3 4) (.stBM ⟨4, 3, 2, 1⟩) ∧
    Reads (wL 0x26 1 2 3 4) (.stHM ⟨4, 3, 2, 1⟩) ∧ Reads (wL 0x27 1 2 3 4) (.stWM ⟨4, 3, 2, 1⟩) ∧
    Reads (wL 0x28 1 2 127 4) (.stDM ⟨4, 127, 2, 1⟩) ∧ Reads (wL 0x29 1 2 3 4) (.stQM ⟨4, 3, 2, 1⟩) := by decide +kernel

/-- R76: v1 := v2 op v3, guard !p4, permutation xor(1) on va and rev(1) on vb. -/
theorem test_word_integer :
    (∀ x ∈ [(0, 0xE0, Instr.iadd), (1, 0xE0, .isub), (2, 0xE0, .imul), (3, 0x60, .imulh), (5, 0x60, .imin), (6, 0x60, .imax),
        (8, 0x20, .iand), (9, 0x20, .ior), (10, 0x20, .ixor), (11, 0x20, .ishl), (12, 0x20, .ishr), (13, 0x20, .isar),
        (14, 0x20, .irot)],
      Reads (wA 0x01 (x.1 + x.2.1) 1 2 3 0 4 1 0x21 0x61) (x.2.2 ⟨0x61, 0x21, true, 4, 0, 3, 2, 1, BitVec.ofNat 8 x.2.1⟩)) ∧
    (∀ x ∈ [(4, 0xE0, Instr.imad), (18, 0x60, .ibfx), (19, 0x20, .ibfi)],
      Reads (wA 0x01 (x.1 + x.2.1) 1 2 3 5 4 1 0x21 0x61) (x.2.2 ⟨0x61, 0x21, true, 4, 5, 3, 2, 1, BitVec.ofNat 8 x.2.1⟩)) ∧
    (∀ x ∈ [(7, 0xA0, Instr.iabs), (15, 0x20, .ipopc), (16, 0x20, .iclz), (17, 0x20, .ibrev), (22, 0x20, .mov)],
      Reads (wA 0x01 (x.1 + x.2.1) 1 2 0 0 4 1 0x21 0) (x.2.2 ⟨0, 0x21, true, 4, 0, 0, 2, 1, BitVec.ofNat 8 x.2.1⟩)) ∧
    Reads (wA 0x01 (20 + 0x20) 1 2 3 7 4 1 0x21 0x61) (.isel ⟨0x61, 0x21, true, 4, 7, 3, 2, 1, 0x20⟩) ∧
    Reads (wA 0x01 (21 + 0x60) 7 2 3 5 4 1 0x21 0x61) (.icmp ⟨0x61, 0x21, true, 4, 5, 3, 2, 7, 0x60⟩) ∧
    decodeWord (wA 0x01 23 1 2 3 0 0 0 0 0) = .bad .minor := by decide +kernel

/-- R77. -/
theorem test_word_float :
    (∀ x ∈ [(0, 0xE0, Instr.fadd), (1, 0xD0, .fsub), (2, 0x40, .fmul), (4, 0x20, .fmin), (5, 0x10, .fmax)],
      Reads (wA 0x02 (x.1 + x.2.1) 1 2 3 0 4 1 0x21 0x61) (x.2.2 ⟨0x61, 0x21, true, 4, 0, 3, 2, 1, BitVec.ofNat 8 x.2.1⟩)) ∧
    (∀ x ∈ [(7, 0xC0, Instr.frcp), (8, 0x90, .frsq), (9, 0x60, .fexp2), (10, 0, .flog2), (11, 0, .fclass)],
      Reads (wA 0x02 (x.1 + x.2.1) 1 2 0 0 4 1 0x21 0) (x.2.2 ⟨0, 0x21, true, 4, 0, 0, 2, 1, BitVec.ofNat 8 x.2.1⟩)) ∧
    Reads 0x0021A1A3058A630B (.ffma ⟨0, 0x21, true, 2, 13, 12, 11, 10, 0x60⟩) ∧
    Reads (wA 0x02 6 7 2 3 7 4 1 0x21 0x61) (.fcmp ⟨0x61, 0x21, true, 4, 7, 3, 2, 7, 0⟩) ∧
    decodeWord (wA 0x02 12 1 2 3 0 0 0 0 0) = .bad .minor := by decide +kernel

/-- R78, R106 to R112. -/
theorem test_word_cross :
    Reads (wA 0x03 (0 + 4 * 4) 1 2 3 0x06 4 1 0x21 0x00) (.fcvt ⟨0, 0x21, true, 4, 6, 3, 2, 1, 0x10⟩) ∧
    Reads (wA 0x03 (1 + 4 * 3) 1 2 0 0x02 4 1 0x21 3) (.i2f ⟨3, 0x21, true, 4, 2, 0, 2, 1, 0x0C⟩) ∧
    Reads (wA 0x03 (2 + 4 * 1) 1 2 0 0x01 4 1 0x21 3) (.f2i ⟨3, 0x21, true, 4, 1, 0, 2, 1, 0x04⟩) ∧
    Reads (wA 0x03 (3 + 4 * 2) 1 2 0 0x02 4 1 0x21 2) (.frnd ⟨2, 0x21, true, 4, 2, 0, 2, 1, 0x08⟩) ∧
    Reads (wA 0x04 (0 + 4 * 3 + 16) 2 4 6 5 4 1 0x21 0x61) (.shfl ⟨0x61, 0x21, true, 4, 5, 6, 4, 2, 0x1C⟩) ∧
    Reads (wA 0x04 1 7 11 0 10 4 1 0 0) (.voteAny ⟨0, 0, true, 4, 10, 0, 11, 7, 0⟩) ∧
    Reads (wA 0x04 (1 + 4) 7 11 0 10 4 1 0 0) (.voteAll ⟨0, 0, true, 4, 10, 0, 11, 7, 0⟩) ∧
    Reads (wA 0x04 (1 + 8) 7 11 0 5 4 1 0 0) (.voteBallot ⟨0, 0, true, 4, 5, 0, 11, 7, 0⟩) ∧
    Reads (wA 0x04 (1 + 12) 7 11 0 10 4 1 0 0) (.voteFfs ⟨0, 0, true, 4, 10, 0, 11, 7, 0⟩) ∧
    Reads (wA 0x04 (2 + 4 * 10) 1 2 0 10 4 1 0x21 0) (.redux ⟨0, 0x21, true, 4, 10, 0, 2, 1, 0x28⟩) ∧
    Reads (wA 0x04 (3 + 4 * 10 + 64) 1 2 0 10 4 1 0x21 0) (.scan ⟨0, 0x21, true, 4, 10, 0, 2, 1, 0x68⟩) ∧
    Reads (wA 0x05 0 2 4 6 0 4 1 0x21 0x61) (.padd ⟨0x61, 0x21, true, 4, 0, 6, 4, 2, 0⟩) ∧
    Reads (wA 0x05 1 2 4 6 0 4 1 0x21 0x61) (.pmake ⟨0x61, 0x21, true, 4, 0, 6, 4, 2, 0⟩) ∧
    Reads (wA 0x05 2 2 4 0 0 4 1 0x21 0) (.pgoid ⟨0, 0x21, true, 4, 0, 0, 4, 2, 0⟩) ∧
    Reads (wA 0x05 3 2 4 0 0 4 1 0x21 0) (.poff ⟨0, 0x21, true, 4, 0, 0, 4, 2, 0⟩) ∧
    Reads (wA 0x06 0 7 6 5 4 3 1 0 0xE8) (.plop ⟨0xE8, 0, true, 3, 4, 5, 6, 7, 0⟩) ∧
    Reads (wA 0x06 1 7 0 0 0 3 1 0 0) (.pmovGet ⟨0, 0, true, 3, 0, 0, 0, 7, 0⟩) ∧
    Reads (wA 0x06 (1 + 4) 0 7 0 0 3 1 0x21 0) (.pmovSet ⟨0, 0x21, true, 3, 0, 0, 7, 0, 0⟩) ∧
    Reads (wA 0x06 (2 + 32) 8 62 0 0 3 1 0 0) (.k2v ⟨0, 0, true, 3, 0, 0, 62, 8, 0x20⟩) ∧
    Reads (wA 0x06 (3 + 32) 62 8 0 0 3 1 0x21 0) (.v2k ⟨0, 0x21, true, 3, 0, 0, 8, 62, 0x20⟩) := by decide +kernel

/-- R79, R115, R124. -/
theorem test_word_immediate :
    (∀ x ∈ [(0, Instr.iaddImm), (2, .imulImm), (5, .iminImm), (6, .imaxImm), (8, .iandImm), (9, .iorImm), (10, .ixorImm),
        (11, .ishlImm), (12, .ishrImm), (13, .isarImm), (14, .irotImm)],
      Reads (wI 0x08 (x.1 + 32) 2 4 5 1 0xDEADBEEF) (x.2 ⟨0xDEADBEEF, true, 5, 4, 2, 0x20⟩)) ∧
    Reads (wI 0x08 (21 + 32) (7 + 8 * 9) 4 5 1 7) (.icmpImm ⟨7, true, 5, 4, 79, 0x20⟩) ∧
    Reads (wI 0x08 22 2 0 5 1 7) (.movImm ⟨7, true, 5, 0, 2, 0⟩) ∧
    (∀ x ∈ [(0, Instr.faddImm), (1, .fsubImm), (2, .fmulImm)],
      Reads (wI 0x09 (x.1 + 48) 2 4 5 1 0x3FC00000) (x.2 ⟨0x3FC00000, true, 5, 4, 2, 0x30⟩)) ∧
    Reads (wI 0x09 4 2 4 5 1 7) (.fminImm ⟨7, true, 5, 4, 2, 0⟩) ∧ Reads (wI 0x09 5 2 4 5 1 7) (.fmaxImm ⟨7, true, 5, 4, 2, 0⟩) ∧
    Reads (wI 0x09 6 (7 + 8 * 7) 4 5 1 7) (.fcmpImm ⟨7, true, 5, 4, 63, 0⟩) ∧
    (∀ x ∈ [(1, Instr.kaddImm), (2, .ksubImm), (3, .kmulImm), (4, .kandImm), (5, .korImm), (6, .kxorImm), (7, .kshlImm),
        (8, .kshrImm), (9, .ksarImm), (10, .kminImm), (11, .kmaxImm), (12, .kminNImm), (13, .kmaxNImm)],
      Reads (wI 0x0A x.1 63 62 0 0 9) (x.2 ⟨9, false, 0, 62, 63, 0⟩)) ∧
    Reads (wI 0x0A 0 63 0 0 0 9) (.kmovImm ⟨9, false, 0, 0, 63, 0⟩) ∧
    Reads (wI 0x0A 25 63 62 0 0 9) (.kcmpImm ⟨9, false, 0, 62, 63, 25⟩) ∧ decodeWord (wI 0x0A 15 1 2 0 0 0) = .bad .minor ∧
    Reads (wI 0x0B (0 + 4) 2 0 5 1 0x050) (.srd ⟨0x050, true, 5, 0, 2, 4⟩) ∧
    Reads (wI 0x0B (1 + 8) 0 3 0 0 0x061) (.swr ⟨0x061, false, 0, 3, 0, 8⟩) ∧
    Reads (wI 0x0B 2 3 0 0 0 0xFFFFFFF8) (.kloop ⟨0xFFFFFFF8, false, 0, 0, 3, 0⟩) ∧
    decodeWord (wI 0x08 1 2 4 0 0 0) = .bad .minor := by decide +kernel

/-- R80, R142, R143, R149, R151, R152. -/
theorem test_word_memory :
    Reads (wM 0x10 (1 + 8 + 16 + 32 + 64) 2 4 6 5 1 5 0xFFFF8) (.ld ⟨0xFFFF8, 5, true, 5, 6, 4, 2, 0x79⟩) ∧
    Reads (wM 0x11 (4 + 32) 8 4 6 5 1 3 8) (.st ⟨8, 3, true, 5, 6, 4, 8, 0x24⟩) ∧
    (∀ x ∈ [(0, Instr.atomAdd), (1, .atomAddCmb), (2, .atomAddNoc), (3, .atomAddCmbNoc), (4, .atomMin), (5, .atomMax), (6, .atomMinN),
        (7, .atomMaxN), (8, .atomAnd), (9, .atomOr), (10, .atomXor), (11, .atomExch), (12, .atomCas)],
      Reads (wM 0x12 (x.1 + 16 + 32 + 64 + 128) 2 4 8 5 1 4 8) (x.2 ⟨8, 4, true, 5, 8, 4, 2, 0xF0⟩)) ∧
    Reads (wM 0x12 (13 + 16) 2 4 8 5 1 4 8) (.atomFadd ⟨8, 4, true, 5, 8, 4, 2, 0x10⟩) ∧
    (∀ x ∈ [(0, Instr.redAdd), (1, .redAddNoc), (2, .redMin), (3, .redMax), (4, .redMinN), (5, .redMaxN), (6, .redAnd), (7, .redOr),
        (8, .redXor)],
      Reads (wM 0x13 (x.1 + 32 + 64 + 128) 2 4 8 5 1 4 8) (x.2 ⟨8, 4, true, 5, 8, 4, 2, 0xE0⟩)) ∧
    Reads (wM 0x14 (0 + 4 + 8 + 64) 2 4 6 5 1 3 8) (.waita ⟨8, 3, true, 5, 6, 4, 2, 0x4C⟩) ∧
    Reads (wM 0x14 1 0 0 0 0 0 5 0) (.fenceAcq ⟨0, 5, false, 0, 0, 0, 0, 0⟩) ∧
    Reads (wM 0x14 (1 + 4) 0 0 0 0 0 1 0) (.fenceRel ⟨0, 1, false, 0, 0, 0, 0, 0⟩) ∧
    Reads (wM 0x14 (1 + 8) 0 0 0 0 0 2 0) (.fenceAr ⟨0, 2, false, 0, 0, 0, 0, 0⟩) ∧ Reads (wM 0x14 (1 + 12) 0 0 0 0 0 0 0) .fenceRec ∧
    Reads (wM 0x14 (2 + 4 * 3 + 32) 2 4 0 5 1 3 255) (.stMc ⟨255, 3, true, 5, 0, 4, 2, 0x2C⟩) ∧
    Reads (wM 0x15 (0 + 2 * 1 + 16 + 32) 2 4 0 0 0 3 8) (.kld ⟨8, 3, false, 0, 0, 4, 2, 0x32⟩) ∧
    Reads (wM 0x15 (1 + 2 * 3 + 32) 2 4 0 0 0 3 8) (.kst ⟨8, 3, false, 0, 0, 4, 2, 0x26⟩) ∧
    decodeWord (wM 0x12 14 0 0 0 0 0 1 0) = .bad .minor ∧ decodeWord (wM 0x12 0 0 0 0 0 0 0 0) = .bad .field := by decide +kernel

/-- R155 to R161, R127. -/
theorem test_word_sync :
    (∀ x ∈ [(0, Instr.barArv), (1, .barWait), (2, .barSync)],
      Reads (wA 0x18 x.1 0 0 0 27 0 0 0 0) (x.2 ⟨0, 0, false, 0, 27, 0, 0, 0, 0⟩)) ∧
    Reads (wA 0x18 3 0 63 0 23 0 0 0x34 0x12) (.barExp ⟨0x12, 0x34, false, 0, 23, 0, 63, 0, 0⟩) ∧
    Reads (wA 0x18 4 63 0 0 27 0 0 0 0) (.barTest ⟨0, 0, false, 0, 27, 0, 0, 63, 0⟩) ∧
    Reads (wI 0x19 (0 + 8) 0 62 0 0 6) (.tagWait ⟨6, false, 0, 62, 0, 8⟩) ∧ Reads (wI 0x19 1 3 62 0 0 6) (.tagFfs ⟨6, false, 0, 62, 3, 0⟩) ∧
    Reads (wI 0x19 2 0 62 0 0 6) (.tagClr ⟨6, false, 0, 62, 0, 0⟩) ∧
    Reads (wI 0x19 (3 + 8 * 4) 0 62 0 0 0xFFFFFFFF) (.tlWait ⟨0xFFFFFFFF, false, 0, 62, 0, 0x20⟩) ∧
    Reads (wI 0x19 (4 + 8 * 2) 62 0 0 0 1) (.tlRd ⟨1, false, 0, 0, 62, 0x10⟩) ∧
    Reads (wI 0x1A (0 + 2) 5 0 0 0 3) (.racq ⟨3, false, 0, 0, 5, 2⟩) ∧ Reads (wI 0x1A 1 0 0 0 0 3) (.rrel ⟨3, false, 0, 0, 0, 0⟩) ∧
    decodeWord (wI 0x19 5 0 0 0 0 0) = .bad .minor := by decide +kernel

/-- R81, R232. -/
theorem test_word_matrix :
    Reads (wE 0x20 0 0 2 0 0 0x1A 3 10 0 0 0) (.mlds ⟨0, 0, 0, 10, 3, 0x1A, 0, 0, 2, 0, 0⟩) ∧ Reads (wE 0x20 1 0 0 0 0 0 0 0 0 0 0) .mswp ∧
    Reads (wE 0x20 2 1 0 4 5 2 3 10 0 0 3) (.mma ⟨3, 0, 0, 10, 3, 2, 5, 4, 0, 1, 0⟩) ∧
    Reads (wE 0x20 3 1 2 4 5 2 3 10 0 0 7) (.mloop ⟨7, 0, 0, 10, 3, 2, 5, 4, 2, 1, 0⟩) ∧
    Reads (wE 0x20 4 0 0 4 0 0 7 0 0 0 1) (.mzero ⟨1, 0, 0, 0, 7, 0, 0, 4, 0, 0, 0⟩) ∧
    Reads (wE 0x20 5 0 0 4 0 0 0 0 0 0 0) (.mrel ⟨0, 0, 0, 0, 0, 0, 0, 4, 0, 0, 0⟩) ∧
    Reads (wE 0x20 6 1 0 4 5 0 0 0 7 63 12) (.mrd ⟨12, 63, 7, 0, 0, 0, 5, 4, 0, 1, 0⟩) ∧
    Reads (wE 0x20 7 1 0 4 0x13 0 0 10 7 63 12) (.mqnt ⟨12, 63, 7, 10, 0, 0, 0x13, 4, 0, 1, 0⟩) ∧
    Reads (wE 0x20 (8 + 16 * 5) 1 2 4 0 0 0 0 0 0 1) (.mscac ⟨1, 0, 0, 0, 0, 0, 0, 4, 2, 1, 0x50⟩) ∧
    Reads (wE 0x20 9 1 0 0 0 0 0 10 0 0 0) (.mcbl ⟨0, 0, 0, 10, 0, 0, 0, 0, 0, 1, 0⟩) ∧
    Reads (wE 0x20 10 0 0 4 0 0 0 10 0 0 0) (.mhndGet ⟨0, 0, 0, 10, 0, 0, 0, 4, 0, 0, 0⟩) ∧
    Reads (wE 0x20 (10 + 16) 0 0 4 0 0 0 10 0 0 0) (.mhndSet ⟨0, 0, 0, 10, 0, 0, 0, 4, 0, 0, 0⟩) := by decide +kernel

/-- R221, R222, R239, R243. -/
theorem test_word_engine :
    Reads (wE 0x21 0 1 2 0 0 0 0 0 7 63 12) (.cpy ⟨12, 63, 7, 0, 0, 0, 0, 0, 2, 1, 0⟩) ∧
    Reads (wE 0x21 1 1 2 0 0 0 0 10 7 63 12) (.gath ⟨12, 63, 7, 10, 0, 0, 0, 0, 2, 1, 0⟩) ∧
    Reads (wE 0x21 2 1 2 0 0 0 0 10 7 63 12) (.scat ⟨12, 63, 7, 10, 0, 0, 0, 0, 2, 1, 0⟩) ∧
    Reads (wE 0x22 0 1 0 0 0 0 0 10 0 0 0) (.xld ⟨0, 0, 0, 10, 0, 0, 0, 0, 0, 1, 0⟩) ∧
    Reads (wE 0x22 1 1 2 0 0 0 0 10 0 0 0) (.xadd ⟨0, 0, 0, 10, 0, 0, 0, 0, 2, 1, 0⟩) ∧
    Reads (wE 0x22 (2 + 4 * 10) 1 0 0 0 0 0 10 0 0 0) (.xset ⟨0, 0, 0, 10, 0, 0, 0, 0, 0, 1, 0x28⟩) ∧
    Reads (wE 0x22 (3 + 4 * 11) 0 0 0 0 0 0 10 15 0 0) (.xqry ⟨0, 0, 15, 10, 0, 0, 0, 0, 0, 0, 0x2C⟩) ∧
    Reads (wE 0x23 0 1 0 0 2 0 0 10 7 63 12) (.collAllReduce ⟨12, 63, 7, 10, 0, 0, 2, 0, 0, 1, 0⟩) ∧
    Reads (wE 0x23 (0 + 2 + 16) 1 2 0 2 0 0 10 7 63 12) (.collReduceScatter ⟨12, 63, 7, 10, 0, 0, 2, 0, 2, 1, 0x10⟩) ∧
    Reads (wE 0x23 (0 + 4) 1 2 0 2 0 0 10 7 63 12) (.collAllGather ⟨12, 63, 7, 10, 0, 0, 2, 0, 2, 1, 0⟩) ∧
    Reads (wE 0x23 (0 + 6) 1 2 0 2 0 0 10 7 63 12) (.collAllToAll ⟨12, 63, 7, 10, 0, 0, 2, 0, 2, 1, 0⟩) ∧
    Reads (wE 0x23 (0 + 8) 1 0 0 2 0 0 10 7 63 12) (.collBroadcast ⟨12, 63, 7, 10, 0, 0, 2, 0, 0, 1, 0⟩) ∧
    Reads (wE 0x23 (1 + 2 * 6) 0 0 0 0 0 0 10 7 0 0) (.grpq ⟨0, 0, 7, 10, 0, 0, 0, 0, 0, 0, 0x0C⟩) ∧
    decodeWord (wE 0x23 (0 + 10) 0 0 0 0 0 0 0 0 0 12) = .bad .field := by decide +kernel

/-- R164 to R167, R244 to R248. -/
theorem test_word_system :
    Reads (wI 0x24 0 2 4 0 0 2) (.oqry ⟨2, false, 0, 4, 2, 0⟩) ∧ Reads (wI 0x24 1 2 4 0 0 1024) (.ohint ⟨1024, false, 0, 4, 2, 0⟩) ∧
    Reads (wI 0x24 2 0 4 0 0 0) (.opin ⟨0, false, 0, 4, 0, 0⟩) ∧ Reads (wI 0x24 3 0 4 0 0 0) (.ounpin ⟨0, false, 0, 4, 0, 0⟩) ∧
    Reads (wI 0x24 (4 + 16) 2 4 0 0 0x7FFF) (.oalloc ⟨0x7FFF, false, 0, 4, 2, 0x10⟩) ∧
    Reads (wI 0x24 5 0 4 0 0 0) (.ofree ⟨0, false, 0, 4, 0, 0⟩) ∧ Reads (wI 0x24 (6 + 16) 2 4 0 0 0) (.oext ⟨0, false, 0, 4, 2, 0x10⟩) ∧
    Reads (wI 0x24 7 0 4 0 0 0) (.otrim ⟨0, false, 0, 4, 0, 0⟩) ∧
    Reads (wI 0x24 8 2 4 0 0 0x80000FFF) (.ogrp ⟨0x80000FFF, false, 0, 4, 2, 0⟩) ∧
    Reads (wI 0x25 0 2 0 0 0 0) (.shpRd ⟨0, false, 0, 0, 2, 0⟩) ∧ Reads (wI 0x25 1 2 0 0 0 0) (.shpWait ⟨0, false, 0, 0, 2, 0⟩) ∧
    Reads (wI 0x25 2 2 4 0 0 1) (.shpPub ⟨1, false, 0, 4, 2, 0⟩) ∧ Reads (wI 0x25 3 2 4 0 0 0) (.launch ⟨0, false, 0, 4, 2, 0⟩) ∧
    Reads (wI 0x25 (4 + 8 * 3) 0 4 0 0 0) (.cancel ⟨0, false, 0, 4, 0, 0x18⟩) ∧
    Reads (wI 0x25 (5 + 8 * 2) 2 4 0 0 0) (.ctrRd ⟨0, false, 0, 4, 2, 0x10⟩) ∧ Reads (wI 0x26 0 2 4 0 0 6) (.sys ⟨6, false, 0, 4, 2, 0⟩) ∧
    Reads (wI 0x26 1 0 4 0 0 0xFFFF) (.sleep ⟨0xFFFF, false, 0, 4, 0, 0⟩) ∧ decodeWord (wI 0x24 9 0 0 0 0 0) = .bad .minor ∧
    decodeWord (3 + 4 * 0x07) = .bad .major := by decide +kernel

/-! ### The states of the tests -/

open Sys2Proof.Spec

/-- Team 5 of block 1, context 2, node 3: two lanes of 32 on, every chunk held. -/
def tm : Team := { block := 1, num := 0, size := 32, pc := 0x1000, mask := 3, e1 := true, e2 := true }
def bl : Block := { ctx := 2, node := 3, ordinal := 0, teams := [5], spad := 1024, filled := true }
def cx : Ctx := { dev := 0, die := 0, core := 0, slot := .a, vf := 0, node := 3, state := .running, blocks := [1] }
/-- Its handler lies 256 bytes behind the kernel's entry. -/
def nd : Node :=
  { dev := 0, vf := 0, entry := 3, ident := 7, desc := { kernel := 0x1000, grid := 1, handler := some 0x100 }, state := .running, priority := 24 }
/-- The machine with these alone. -/
def st (t : Team) (b : Block) (c : Ctx) (n : Node) : State :=
  { mem := {}, cur := 5, teams := [(5, t)], blocks := [(1, b)], ctxs := [(2, c)], nodes := [(3, n)] }

theorem cur_st {t b c n} (h1 : t.ended = false) (h2 : t.mask ≠ 0) : Current (st t b c n) t := ⟨rfl, h1, h2⟩

/-- A machine with these among others. -/
theorem cur_of {s : State} {t} (h : tget s.teams s.cur = some t) (h1 : t.ended = false) (h2 : t.mask ≠ 0) : Current s t :=
  ⟨h, h1, h2⟩

theorem res_of {s : State} {t b c n} (h : tget s.teams s.cur = some t) (h1 : t.ended = false) (h2 : t.mask ≠ 0)
    (hb : tget s.blocks t.block = some b) (hc : tget s.ctxs b.ctx = some c) (hn : tget s.nodes b.node = some n) :
    Resident s t b c n := ⟨⟨h, h1, h2⟩, hb, hc, hn⟩

/-- A team that holds every chunk and has no bad register has its operands, if the groups are aligned. -/
theorem ops {t : Team} (h1 : t.e1 = true) (h2 : t.e2 = true) (hb : t.bad = [] ∧ t.badK = []) {dst src ks kd : List (Nat × Nat)}
    {reads : Nat → Nat → Prop} (h : (dst ++ src ++ kd ++ ks).all (fun x => x.1 % x.2 == 0) = true) :
    Operands t dst src ks kd reads where
  aligned x hx := by simpa using List.all_eq_true.mp h x hx
  acquired _ _ := ⟨fun _ _ => h1, fun _ => h2⟩
  sound _ _ key hk := by rw [hb.1] at hk; simp at hk
  uniform _ _ n hn := by rw [hb.2] at hn; simp at hn

/-- The same of uniform registers. -/
theorem unis {t : Team} (hb : t.badK = []) {kd ks : List (Nat × Nat)} (h : (kd ++ ks).all (fun x => x.1 % x.2 == 0) = true) :
    Uniforms t kd ks where
  aligned x hx := by simpa using List.all_eq_true.mp h x hx
  sound _ _ n hn := by rw [hb] at hn; simp at hn

theorem trap_of {s : State} {t} {b : Block} {c : Ctx} {n : Node} {off : Nat} {entry : Dbl} (h : tget s.teams s.cur = some t)
    (h1 : t.ended = false) (h2 : t.mask ≠ 0) (h3 : t.handler = false) (hb : tget s.blocks t.block = some b)
    (hc : tget s.ctxs b.ctx = some c) (hn : tget s.nodes b.node = some n) (hp : b.provisional = false)
    (ho : n.desc.handler = some off) (he : entry = n.desc.kernel + BitVec.ofNat 64 off) : Trappable s t entry :=
  ⟨⟨h, h1, h2⟩, h3, b, c, n, off, hb, hc, hn, hp, ho, he⟩

theorem calm {t : Team} (h : t.fptrap = 0) (on : Nat → Prop) (flags : Nat → FFlags) : Untrapped t on flags := by
  intro l b _ _ _; rw [h]; simp

/-- A lane that acts is one of the mask, below the size. -/
theorem on_iff {t : Team} {neg : Bool} {g : BitVec 3} {l : Nat} : On t neg g l ↔ l ∈ activeLanes t neg g := by
  simp [On, activeLanes]

/-- What holds of each listed lane holds of every lane that acts. -/
theorem all_on {t : Team} {neg : Bool} {g : BitVec 3} {P : Nat → Prop} [DecidablePred P]
    (h : (activeLanes t neg g).all (fun l => decide (P l)) = true) : ∀ l, On t neg g l → P l := by
  intro l hl; simpa using List.all_eq_true.mp h l (on_iff.mp hl)

theorem le_ticks (dev n : Nat) : n ≤ ticks dev n := by
  induction n with
  | zero => exact Nat.zero_le _
  | succ n ih => simp only [ticks]; omega

/-- A clock has counted at least the steps since the device's reset at step 0. -/
theorem le_clock {s : State} {dev : Nat} (h : (devOf s dev).base = 0) : s.now ≤ clock s dev := by
  have h1 := le_ticks dev s.now
  simp only [clock, h, ticks]
  omega

/-- The plain state and its parts. -/
def s0 : State := st tm bl cx nd
theorem cur0 : Current s0 tm := cur_st rfl (by decide +kernel)
theorem res0 : Resident s0 tm bl cx nd := ⟨cur0, rfl, rfl, rfl⟩
theorem trap0 : Trappable s0 tm 0x1100 := trap_of rfl rfl (by decide +kernel) rfl rfl rfl rfl rfl rfl (by decide +kernel)
theorem ops0 {dst src ks kd reads} (h : (dst ++ src ++ kd ++ ks).all (fun x => x.1 % x.2 == 0) = true) :
    Operands tm dst src ks kd reads := ops rfl rfl ⟨rfl, rfl⟩ h
theorem unis0 {kd ks} (h : (kd ++ ks).all (fun x => x.1 % x.2 == 0) = true) : Uniforms tm kd ks := unis rfl h

/-! ### What meets the hypotheses of the statements -/

/-- Every integer form of one format, at the last register and with the widest operands, and a destination of v0. -/
theorem witness_IntegerForms : Current s0 tm ∧
    (∃ L, shortInt (.iaddC16 ⟨true, 31, 31⟩) = some L ∧ Operands tm [(L.vd, L.wd)] L.src [] [] (L.reads tm)) ∧
    (∃ L, shortInt (.isarL3 ⟨7, 127, 127, 0⟩) = some L ∧ Operands tm [(L.vd, L.wd)] L.src [] [] (L.reads tm)) ∧
    (∃ L, shortInt (.movRi ⟨1023, 127⟩) = some L ∧ Operands tm [(L.vd, L.wd)] L.src [] [] (L.reads tm)) ∧
    (∃ L, longInt (.imad ⟨0x21, 0x61, true, 7, 126, 124, 122, 126, 0xE0⟩) = some L ∧ Operands tm [(L.vd, L.wd)] L.src [] [] (L.reads tm)) ∧
    (∃ L, longInt (.isel ⟨0, 0, false, 0, 7, 3, 2, 1, 0⟩) = some L ∧ Operands tm [(L.vd, L.wd)] L.src [] [] (L.reads tm)) ∧
    (∃ L, immInt (.irotImm ⟨0xFFFFFFFF, true, 7, 126, 126, 0x20⟩) = some L ∧ Operands tm [(L.vd, L.wd)] L.src [] [] (L.reads tm)) :=
  ⟨cur0, ⟨_, rfl, ops0 (by decide +kernel)⟩, ⟨_, rfl, ops0 (by decide +kernel)⟩, ⟨_, rfl, ops0 (by decide +kernel)⟩, ⟨_, rfl, ops0 (by decide +kernel)⟩,
    ⟨_, rfl, ops0 (by decide +kernel)⟩, ⟨_, rfl, ops0 (by decide +kernel)⟩⟩

theorem witness_IntegerCompares : Current s0 tm ∧
    (∃ L, cmpInt (.icmp ⟨0, 0, false, 0, 5, 126, 124, 7, 0x60⟩) = some L ∧ Operands tm [] L.src [] [] (L.reads tm)) ∧
    (∃ L, cmpInt (.icmpImm ⟨0x80000000, false, 0, 126, 79, 0x20⟩) = some L ∧ Operands tm [] L.src [] [] (L.reads tm)) :=
  ⟨cur0, ⟨_, rfl, ops0 (by decide +kernel)⟩, ⟨_, rfl, ops0 (by decide +kernel)⟩⟩

theorem witness_FloatArithmetic : Current s0 tm ∧
    (∃ L, floatArith (.fmaxC16 ⟨31, 31⟩) = some L ∧ Operands tm [(L.vd, L.wd)] L.src [] [] (L.reads tm) ∧
      Untrapped tm (L.on tm) fun l => (L.val tm l).2) ∧
    (∃ L, floatArith (.fmulL3 ⟨7, 127, 126, 127⟩) = some L ∧ Operands tm [(L.vd, L.wd)] L.src [] [] (L.reads tm) ∧
      Untrapped tm (L.on tm) fun l => (L.val tm l).2) ∧
    (∃ L, floatArith (.ffma ⟨0, 0x21, true, 2, 13, 12, 11, 10, 0x60⟩) = some L ∧ Operands tm [(L.vd, L.wd)] L.src [] [] (L.reads tm) ∧
      Untrapped tm (L.on tm) fun l => (L.val tm l).2) ∧
    (∃ L, floatArith (.fmaxImm ⟨0x7F800000, false, 0, 127, 0, 0⟩) = some L ∧ Operands tm [(L.vd, L.wd)] L.src [] [] (L.reads tm) ∧
      Untrapped tm (L.on tm) fun l => (L.val tm l).2) :=
  ⟨cur0, ⟨_, rfl, ops0 (by decide +kernel), calm rfl _ _⟩, ⟨_, rfl, ops0 (by decide +kernel), calm rfl _ _⟩,
    ⟨_, rfl, ops0 (by decide +kernel), calm rfl _ _⟩, ⟨_, rfl, ops0 (by decide +kernel), calm rfl _ _⟩⟩

theorem witness_FloatConversionsAndReductions : Current s0 tm ∧
    (∃ L, floatMove (.fcvt ⟨0, 0, false, 0, 6, 3, 2, 1, 0x10⟩) = some L ∧ Operands tm [(L.vd, L.wd)] L.src [] [] (L.reads tm) ∧
      Untrapped tm (L.on tm) fun l => (L.val tm l).2) ∧
    (∃ L, floatMove (.f2i ⟨0, 0, false, 0, 3, 0, 127, 126, 0⟩) = some L ∧ Operands tm [(L.vd, L.wd)] L.src [] [] (L.reads tm) ∧
      Untrapped tm (L.on tm) fun l => (L.val tm l).2) ∧
    (∃ L, floatMove (.scan ⟨0, 0, false, 0, 10, 0, 2, 1, 0x68⟩) = some L ∧ Operands tm [(L.vd, L.wd)] L.src [] [] (L.reads tm) ∧
      Untrapped tm (L.on tm) fun l => (L.val tm l).2) :=
  ⟨cur0, ⟨_, rfl, ops0 (by decide +kernel), calm rfl _ _⟩, ⟨_, rfl, ops0 (by decide +kernel), calm rfl _ _⟩, ⟨_, rfl, ops0 (by decide +kernel), calm rfl _ _⟩⟩

theorem witness_FloatCompares : Current s0 tm ∧
    (∃ L, floatCompare (.fcmp ⟨0, 0, false, 0, 7, 127, 126, 7, 0⟩) = some L ∧ Operands tm [] L.src [] [] (L.reads tm) ∧
      Untrapped tm (L.on tm) fun l => (L.val tm l).2) ∧
    (∃ L, floatCompare (.fcmpImm ⟨0x7FC00000, false, 0, 127, 63, 0⟩) = some L ∧ Operands tm [] L.src [] [] (L.reads tm) ∧
      Untrapped tm (L.on tm) fun l => (L.val tm l).2) :=
  ⟨cur0, ⟨_, rfl, ops0 (by decide +kernel), calm rfl _ _⟩, ⟨_, rfl, ops0 (by decide +kernel), calm rfl _ _⟩⟩

/-- A team that traps on every flag; v1 of lane 0 is a signalling NaN. -/
def tmNan : Team := { tm with fptrap := 0x1F, v := [(1, 0x7F800001)] }
theorem trapNan : Trappable (st tmNan bl cx nd) tmNan 0x1100 :=
  trap_of rfl rfl (by decide +kernel) rfl rfl rfl rfl rfl rfl (by decide +kernel)

/-- Both instructions raise NV in lane 0 (R45: a signalling NaN). -/
theorem witness_FloatTrap : Trappable (st tmNan bl cx nd) tmNan 0x1100 ∧
    (∃ L, floatArith (.faddC16 ⟨2, 1⟩) = some L ∧ Operands tmNan [(L.vd, L.wd)] L.src [] [] (L.reads tmNan) ∧
      ¬Untrapped tmNan (L.on tmNan) fun l => (L.val tmNan l).2) ∧
    (∃ L, floatMove (.frnd ⟨0, 0, false, 0, 0, 0, 1, 1, 0⟩) = some L ∧ Operands tmNan [(L.vd, L.wd)] L.src [] [] (L.reads tmNan) ∧
      ¬Untrapped tmNan (L.on tmNan) fun l => (L.val tmNan l).2) ∧
    (∃ L, floatCompare (.fcmpImm ⟨0, false, 0, 1, 1, 0⟩) = some L ∧ Operands tmNan [] L.src [] [] (L.reads tmNan) ∧
      ¬Untrapped tmNan (L.on tmNan) fun l => (L.val tmNan l).2) := by
  have on0 : On tmNan false 0 0 := by unfold On; decide
  refine ⟨trapNan, ⟨_, rfl, ops rfl rfl ⟨rfl, rfl⟩ (by decide +kernel), fun h => ?_⟩, ⟨_, rfl, ops rfl rfl ⟨rfl, rfl⟩ (by decide +kernel), fun h => ?_⟩,
    ⟨_, rfl, ops rfl rfl ⟨rfl, rfl⟩ (by decide +kernel), fun h => ?_⟩⟩
  all_goals exact absurd (h 0 0 on0 (by decide +kernel) (by decide +kernel)) (by decide +kernel)

/-- A tie of f32 between an even and an odd code: 2^24 + 1. -/
theorem witness_RoundingIsToANeighbour :
    f32 ∈ [f32, f16, bf16, e2m3, e2m1] ∧ (2 ^ 24 + 1 : Nat) ≠ 0 ∧ (∀ q, RMode.rn ≠ .rs q) ∧
    (fround f32 .rn (.num false (2 ^ 24 + 1) 0)).2 &&& fOF = 0 ∧
    (fround f32 .rn (.num false (2 ^ 24 + 1) 0)).2 &&& fNX ≠ 0 := by
  exact ⟨by simp, by decide +kernel, (fun q h => by cases h), by decide +kernel, by decide +kernel⟩

theorem witness_AcrossLanes : Current s0 tm ∧
    (∃ L, crossLane (.shfl ⟨0, 0, false, 0, 5, 127, 126, 126, 0x1C⟩) = some L ∧
      Instr.legal (.shfl ⟨0, 0, false, 0, 5, 127, 126, 126, 0x1C⟩) = true ∧ Operands tm [(L.vd, L.wd)] L.src [] [] (L.reads tm)) ∧
    (∃ L, crossLane (.voteFfs ⟨0, 0, false, 0, 10, 0, 15, 127, 0⟩) = some L ∧
      Instr.legal (.voteFfs ⟨0, 0, false, 0, 10, 0, 15, 127, 0⟩) = true ∧ Operands tm [(L.vd, L.wd)] L.src [] [] (L.reads tm)) ∧
    (∃ L, crossLane (.padd ⟨0, 0, true, 7, 0, 126, 124, 122, 0⟩) = some L ∧
      Instr.legal (.padd ⟨0, 0, true, 7, 0, 126, 124, 122, 0⟩) = true ∧ Operands tm [(L.vd, L.wd)] L.src [] [] (L.reads tm)) ∧
    (∃ L, crossLane (.pmovGet ⟨0, 0, false, 0, 0, 0, 0, 127, 0⟩) = some L ∧
      Instr.legal (.pmovGet ⟨0, 0, false, 0, 0, 0, 0, 127, 0⟩) = true ∧ Operands tm [(L.vd, L.wd)] L.src [] [] (L.reads tm)) ∧
    (∃ L, crossPred (.voteAll ⟨0, 0, false, 0, 10, 0, 15, 7, 0⟩) = some L) ∧ ∃ L, crossPred (.plop ⟨0xE8, 0, true, 3, 4, 5, 6, 7, 0⟩) = some L :=
  ⟨cur0, ⟨_, rfl, by decide +kernel, ops0 (by decide +kernel)⟩, ⟨_, rfl, by decide +kernel, ops0 (by decide +kernel)⟩, ⟨_, rfl, by decide +kernel, ops0 (by decide +kernel)⟩,
    ⟨_, rfl, by decide +kernel, ops0 (by decide +kernel)⟩, ⟨_, rfl⟩, ⟨_, rfl⟩⟩

/-- PMOV.set, K2V.d and V2K.d; V2K with its lowest acting lane 1, and with none. -/
theorem witness_MovesBetweenFiles : Current s0 tm ∧ Operands tm [] [(127, 1)] [] [] (PermReads ⟨1, 0, false, 0, 0, 0, 127, 0, 0⟩ 1 0 0 tm) ∧
    Operands tm [(126, 2)] [] [] [(62, 2)] ∧ Operands tm [] [(126, 2)] [] [(62, 2)] (PermReads ⟨1, 0, false, 0, 0, 0, 126, 62, 0x20⟩ 2 0 0 tm) ∧ (∀ l, ¬On tm false 1 l) ∧
    On { tm with mask := 2 } false 0 1 ∧ ∀ j, j < 1 → ¬On { tm with mask := 2 } false 0 j :=
  ⟨cur0, ops0 (by decide +kernel), ops0 (by decide +kernel), ops0 (by decide +kernel), all_on (P := fun _ => False) (by decide +kernel), by unfold On; decide,
    by unfold On; decide⟩

theorem witness_UniformOperations : Current s0 tm ∧
    (∃ L, uniform (.kmaxN ⟨63, 62, 0⟩) = some L ∧ Instr.legal (.kmaxN ⟨63, 62, 0⟩) = true ∧ Uniforms tm [(L.kd, 1)] (L.ks.map fun n => (n, 1))) ∧
    (∃ L, uniform (.kcmp ⟨9, 63, 62, 63⟩) = some L ∧ Instr.legal (.kcmp ⟨9, 63, 62, 63⟩) = true ∧
      Uniforms tm [(L.kd, 1)] (L.ks.map fun n => (n, 1))) ∧
    (∃ L, uniform (.kcmpImm ⟨0xFFFFFFFF, false, 0, 63, 63, 25⟩) = some L ∧
      Instr.legal (.kcmpImm ⟨0xFFFFFFFF, false, 0, 63, 63, 25⟩) = true ∧ Uniforms tm [(L.kd, 1)] (L.ks.map fun n => (n, 1))) :=
  ⟨cur0, ⟨_, rfl, by decide +kernel, unis0 (by decide +kernel)⟩, ⟨_, rfl, by decide +kernel, unis0 (by decide +kernel)⟩,
    ⟨_, rfl, by decide +kernel, unis0 (by decide +kernel)⟩⟩

/-- SRD per lane of a double, to a uniform pair, and SWR of a team's and of the block's register. -/
theorem witness_SpecialRegisters : Resident s0 tm bl cx nd ∧ Operands tm [(126, 2)] [] [] ∧
    (I64.m ⟨0x050, false, 0, 0, 126, 4⟩).getLsbD 3 = false ∧ (I64.m ⟨0x050, false, 0, 0, 62, 12⟩).getLsbD 3 = true ∧
    sub (62 : BitVec 7) 0 6 % 2 = 0 ∧ sub (0x071 : BitVec 32) 0 12 ≠ 0x062 ∧ sub (0x062 : BitVec 32) 0 12 = 0x062 ∧
    (I64.m ⟨0x062, false, 0, 3, 0, 8⟩).getLsbD 2 = false ∧ Uniforms tm [] [(62, 2)] ∧ Uniforms tm [] [(63, 1)] := by
  refine ⟨res0, ops0 (by decide +kernel), ?_, ?_, ?_, ?_, ?_, ?_,
    unis0 (by decide +kernel), unis0 (by decide +kernel)⟩ <;> decide +kernel

theorem high_clear {m : LaneSet} (h : m.toNat < 2 ^ 32) {l : Nat} (hl : 32 ≤ l) : m.getLsbD l = false := by
  rw [BitVec.getLsbD, Nat.testBit_lt_two_pow (Nat.lt_of_lt_of_le h (Nat.pow_le_pow_right (by omega) hl))]

theorem mask_small {t : Team} (h : t.mask.toNat < 2 ^ 32) {l : Nat} (hl : t.mask.getLsbD l = true) : l < 32 := by
  rcases Nat.lt_or_ge l 32 with h1 | h1
  · exact h1
  · rw [high_clear h h1] at hl; simp at hl

/-- A statement about every lane of a small mask. -/
theorem all_mask {t : Team} (h : t.mask.toNat < 2 ^ 32) {P : Nat → Prop} (hp : ∀ l, l < 32 → t.mask.getLsbD l = true → P l) :
    ∀ l, t.mask.getLsbD l = true → P l := fun l hl => hp l (mask_small h hl) hl

theorem lanes_of {t : Team} {m : LaneSet} {p : Nat → Prop} (ht : t.mask.toNat < 2 ^ 32) (hm : m.toNat < 2 ^ 32)
    (h : ∀ l, l < 32 → (m.getLsbD l = true ↔ t.mask.getLsbD l = true ∧ p l)) : Lanes t m p := by
  intro l
  by_cases hl : l < 32
  · exact h l hl
  · have h1 := high_clear hm (Nat.le_of_not_lt hl)
    have h2 := high_clear ht (Nat.le_of_not_lt hl)
    simp [h1, h2]

/-- A team whose predicate p1 holds in lane 0 alone, with one frame that has seven pending paths. -/
def fr (n : Nat) : Frame := { join := 0x3000, pending := (List.range n).map fun i => ⟨0x4000 + BitVec.ofNat 64 (2 * i), 4⟩ }
def tmP : Team := { tm with p := [(0, 2)], frames := [fr 7] }

/-- DIV at depth 15; BRA with every lane, with none, and split with seven paths pending. -/
theorem witness_Branches :
    (Current (st { tm with frames := List.replicate 15 (fr 0) } bl cx nd) { tm with frames := List.replicate 15 (fr 0) } ∧
      (List.replicate 15 (fr 0)).length < 16) ∧
    (Current s0 tm ∧ ∀ l, tm.mask.getLsbD l = true → On tm false 0 l) ∧
    (Current s0 tm ∧ ∀ l, tm.mask.getLsbD l = true → ¬On tm false 1 l) ∧
    (Current (st tmP bl cx nd) tmP ∧ tmP.frames = fr 7 :: [] ∧ Lanes tmP 1 (On tmP false 1) ∧ Lanes tmP 2 (fun l => ¬On tmP false 1 l) ∧
      (1 : LaneSet) ≠ 0 ∧ (2 : LaneSet) ≠ 0 ∧ (recorded (fr 7) (tmP.pc + 4) 2).pending.length ≤ 8) := by
  refine ⟨⟨cur_st rfl (by decide +kernel), by decide +kernel⟩, ⟨cur0, all_mask (by decide +kernel) ?_⟩, ⟨cur0, all_mask (by decide +kernel) ?_⟩,
    cur_st rfl (by decide +kernel), rfl, lanes_of (by decide +kernel) (by decide +kernel) ?_, lanes_of (by decide +kernel) (by decide +kernel) ?_, by decide +kernel, by decide +kernel,
    by decide +kernel⟩
  all_goals unfold On; decide

/-- BRM with one group, where every lane takes pair 0, and with two, where lane 0 takes it and lane 1 falls through. -/
def jb (c : BitVec 4) : J64 := ⟨0, 0, 0, 8, 8, 8, 8, c⟩
def groupOf (x : Dbl) : LaneSet := if x = 0x1010 then 1 else if x = 0x1008 then 2 else 0
theorem witness_BranchesMultiway :
    (Current s0 tm ∧ ∀ l, tm.mask.getLsbD l = true → l < tm.size ∧ brmDest tm (jb 0) l = 0x1010) ∧
    (Current (st tmP bl cx nd) tmP ∧ (∀ l, tmP.mask.getLsbD l = true → l < tmP.size) ∧ tmP.frames = fr 7 :: [] ∧
      brmAddresses tmP (jb 1) = [0x1010, 0x1008] ∧ ([0x1008] : List Dbl) ≠ [] ∧
      (∀ x, Lanes tmP (groupOf x) fun l => brmDest tmP (jb 1) l = x) ∧
      (([0x1008] : List Dbl).foldl (fun f x => recorded f x (groupOf x)) (fr 7)).pending.length ≤ 8) := by
  refine ⟨⟨cur0, all_mask (by decide +kernel) (by decide +kernel)⟩, cur_st rfl (by decide +kernel), all_mask (by decide +kernel) (by decide +kernel), rfl, by decide +kernel,
    by decide +kernel, fun x => ?_, by decide +kernel⟩
  have h0 : brmDest tmP (jb 1) 0 = 0x1010 := by decide +kernel
  have h1 : brmDest tmP (jb 1) 1 = 0x1008 := by decide +kernel
  have hm : ∀ l, l < 32 → tmP.mask.getLsbD l = true → l = 0 ∨ l = 1 := by decide +kernel
  refine lanes_of (by decide +kernel) ?_ fun l hl => ?_
  · unfold groupOf; split
    · decide
    · split <;> decide
  · have hg : ∀ l, l < 32 → ((1 : LaneSet).getLsbD l = true ↔ l = 0) ∧ ((2 : LaneSet).getLsbD l = true ↔ l = 1) := by decide +kernel
    have h3 : ∀ l, l = 0 ∨ l = 1 → tmP.mask.getLsbD l = true := by rintro l (rfl | rfl) <;> decide
    unfold groupOf
    constructor
    · intro h
      split at h
      · subst x; obtain rfl := (hg l hl).1.mp h; exact ⟨h3 0 (.inl rfl), h0⟩
      · split at h
        · subst x; obtain rfl := (hg l hl).2.mp h; exact ⟨h3 1 (.inr rfl), h1⟩
        · simp at h
    · rintro ⟨h, rfl⟩
      obtain rfl | rfl := hm l hl h
      · rw [h0]; decide
      · rw [h1]; decide

/-- JOIN and EXIT with a pending path; with none and lanes arrived; with an empty frame over another; the last path. -/
theorem witness_PathEnds :
    (Current (st tmP bl cx nd) tmP ∧ tmP.frames = fr 7 :: [] ∧ (∀ c, tmP.calls.head? = some c → c.depth < tmP.frames.length) ∧
      ∃ p ps, (fr 7).pending = p :: ps) ∧
    (Current (st { tm with frames := [fr 0], calls := [⟨0, 0⟩] } bl cx nd) { tm with frames := [fr 0], calls := [⟨0, 0⟩] } ∧
      (fr 0).pending = [] ∧ (fr 0).arrived ||| tm.mask ≠ 0 ∧
      ∀ c : CallEntry, ([⟨0, 0⟩] : List CallEntry).head? = some c → c.depth < [fr 0].length) ∧
    (Current (st { tm with frames := [fr 0, fr 0] } bl cx nd) { tm with frames := [fr 0, fr 0] } ∧ (fr 0).pending = [] ∧
      (fr 0).arrived = 0) ∧
    (Current s0 tm ∧ tm.wait = .none ∧ tm.detach = none ∧ tm.frames = []) := by
  refine ⟨⟨cur_st rfl (by decide +kernel), rfl, by simp [tmP, tm], _, _, rfl⟩, ⟨cur_st rfl (by decide +kernel), rfl, by decide +kernel, ?_⟩,
    ⟨cur_st rfl (by decide +kernel), rfl, rfl⟩, cur0, rfl, rfl, rfl⟩
  intro c h
  simp at h
  subst h
  decide

theorem witness_CallsAndLoops :
    (Current (st { tm with calls := List.replicate 15 ⟨0, 0⟩ } bl cx nd) { tm with calls := List.replicate 15 ⟨0, 0⟩ } ∧
      (List.replicate 15 (⟨0, 0⟩ : CallEntry)).length < 16) ∧
    (Current (st { tm with calls := [⟨0x2000, 0⟩] } bl cx nd) { tm with calls := [⟨0x2000, 0⟩] } ∧ (0 : Nat) = tm.frames.length) ∧
    Current s0 tm ∧ Instr.legal (.kloop ⟨0xFFFFFFF8, false, 0, 0, 63, 0⟩) = true ∧ Uniforms tm [] [(63, 1)] :=
  ⟨⟨cur_st rfl (by decide +kernel), by decide +kernel⟩, ⟨cur_st rfl (by decide +kernel), rfl⟩, cur0, by decide +kernel, unis0 (by decide +kernel)⟩

def withFrames (n : Nat) : Team := { tm with frames := List.replicate n (fr 0) }
theorem trap_st {t : Team} (h1 : t.ended = false) (h2 : t.mask ≠ 0) (h3 : t.handler = false) (hb : t.block = 1) :
    Trappable (st t bl cx nd) t 0x1100 :=
  trap_of rfl h1 h2 h3 (by rw [hb]; rfl) rfl rfl rfl rfl (by decide +kernel)

theorem witness_ControlFaults :
    (Trappable (st (withFrames 16) bl cx nd) (withFrames 16) 0x1100 ∧ 16 ≤ (withFrames 16).frames.length) ∧
    (Trappable (st { tmP with frames := [] } bl cx nd) { tmP with frames := [] } 0x1100 ∧
      Lanes { tmP with frames := [] } 1 (On { tmP with frames := [] } false 1) ∧
      Lanes { tmP with frames := [] } 2 fun l => ¬On { tmP with frames := [] } false 1 l) ∧
    (Trappable (st { tmP with frames := [fr 8] } bl cx nd) { tmP with frames := [fr 8] } 0x1100 ∧
      Lanes { tmP with frames := [fr 8] } 1 (On { tmP with frames := [fr 8] } false 1) ∧
      Lanes { tmP with frames := [fr 8] } 2 (fun l => ¬On { tmP with frames := [fr 8] } false 1 l) ∧ 8 ≤ (fr 8).pending.length ∧
      ∀ q ∈ (fr 8).pending, q.pc ≠ tmP.pc + 4) ∧
    (Trappable s0 tm 0x1100 ∧ tm.frames = [] ∧ tm.calls = []) ∧
    (Trappable (st { tm with frames := [fr 0], calls := [⟨0, 1⟩] } bl cx nd) { tm with frames := [fr 0], calls := [⟨0, 1⟩] } 0x1100 ∧
      ∃ c : CallEntry, ([⟨0, 1⟩] : List CallEntry).head? = some c ∧ 1 ≤ c.depth) ∧
    (Trappable (st { tm with calls := List.replicate 16 ⟨0, 0⟩ } bl cx nd) { tm with calls := List.replicate 16 ⟨0, 0⟩ } 0x1100 ∧
      16 ≤ (List.replicate 16 (⟨0, 0⟩ : CallEntry)).length) ∧
    (Trappable (st { tm with calls := [⟨0, 1⟩] } bl cx nd) { tm with calls := [⟨0, 1⟩] } 0x1100 ∧ (1 : Nat) ≠ tm.frames.length) := by
  have p1 : ∀ fs, Lanes { tmP with frames := fs } 1 (On { tmP with frames := fs } false 1) := fun fs =>
    lanes_of (t := { tmP with frames := fs }) (by show tmP.mask.toNat < _; decide) (by decide +kernel)
      (by show ∀ l, l < 32 → ((1 : LaneSet).getLsbD l = true ↔ tmP.mask.getLsbD l = true ∧ On tmP false 1 l); unfold On; decide)
  have p2 : ∀ fs, Lanes { tmP with frames := fs } 2 (fun l => ¬On { tmP with frames := fs } false 1 l) := fun fs =>
    lanes_of (t := { tmP with frames := fs }) (by show tmP.mask.toNat < _; decide) (by decide +kernel)
      (by show ∀ l, l < 32 → ((2 : LaneSet).getLsbD l = true ↔ tmP.mask.getLsbD l = true ∧ ¬On tmP false 1 l); unfold On; decide)
  exact ⟨⟨trap_st rfl (by decide +kernel) rfl rfl, by decide +kernel⟩, ⟨trap_st rfl (by decide +kernel) rfl rfl, p1 _, p2 _⟩,
    ⟨trap_st rfl (by decide +kernel) rfl rfl, p1 _, p2 _, by decide +kernel, by decide +kernel⟩, ⟨trap0, rfl, rfl⟩,
    ⟨trap_st rfl (by decide +kernel) rfl rfl, _, rfl, by decide +kernel⟩, ⟨trap_st rfl (by decide +kernel) rfl rfl, by decide +kernel⟩,
    trap_st rfl (by decide +kernel) rfl rfl, by decide +kernel⟩

theorem witness_TrapsAndReturn : Trappable s0 tm 0x1100 ∧ (Resident s0 tm bl cx nd ∧ cx.attached = false) ∧
    Resident (st tm bl { cx with attached := true } nd) tm bl { cx with attached := true } nd ∧
    (Current (st { tm with handler := true } bl cx nd) { tm with handler := true } ∧ { tm with handler := true }.handler = true) :=
  ⟨trap0, ⟨res0, rfl⟩, res_of rfl rfl (by decide +kernel) rfl rfl rfl, cur_st rfl (by decide +kernel), rfl⟩

/-- A team without chunks: with a budget of two and a free pool; with the pool taken by other teams; with a budget of one. -/
def tmB (b : Nat) : Team := { tm with e1 := false, e2 := false, budget := b }
/-- 3,072 lanes hold 786,432 bytes of base registers. -/
def tmBig : Team := { tm with size := 1024, block := 1, num := 1 }
def fullPool : State := { st (tmB 2) { bl with teams := [5, 6, 7, 8] } cx nd with
  teams := [(5, tmB 2), (6, tmBig), (7, tmBig), (8, tmBig)] }
theorem witness_RegisterAcquisition :
    (Resident (st (tmB 2) bl cx nd) (tmB 2) bl cx nd ∧ KeepsBudget (tmB 2) 3 ∧
      poolUsed (st (tmB 2) bl cx nd) cx + missingBytes (tmB 2) 3 ≤ poolBytes cx) ∧
    (Resident fullPool (tmB 2) { bl with teams := [5, 6, 7, 8] } cx nd ∧ KeepsBudget (tmB 2) 3 ∧
      poolBytes cx < poolUsed fullPool cx + missingBytes (tmB 2) 3 ∧ fullPool.cur ∉ cx.racq ∧
      ∃ id u, id ≠ fullPool.cur ∧ id ∉ cx.racq ∧ (id, u) ∈ ctxTeams fullPool cx ∧ u.ended = false) ∧
    (Trappable (st (tmB 1) bl cx nd) (tmB 1) 0x1100 ∧ ¬KeepsBudget (tmB 1) 3) ∧
    (Trappable (st (tmB 2) bl cx nd) (tmB 2) 0x1100 ∧ ¬KeepsBudget (tmB 2) 2) ∧ (Resident s0 tm bl cx nd ∧ cx.racq = []) := by
  refine ⟨⟨res_of rfl rfl (by decide +kernel) rfl rfl rfl, by unfold KeepsBudget; decide, by decide +kernel⟩,
    ⟨res_of rfl rfl (by decide +kernel) rfl rfl rfl, by unfold KeepsBudget; decide, by decide +kernel, by decide +kernel, 6, tmBig, by decide +kernel, by decide +kernel,
      by decide +kernel, rfl⟩,
    ⟨trap_st rfl (by decide +kernel) rfl rfl, by unfold KeepsBudget; decide⟩, ⟨trap_st rfl (by decide +kernel) rfl rfl, by unfold KeepsBudget; decide⟩,
    res0, rfl⟩

theorem whole_of {s : State} {t : Team} (h1 : t.served = 0) (h2 : t.stopAt = none) (h3 : t.watch = []) (h4 : s.reqs = []) :
    Whole s t := ⟨h1, h2, h3, fun _ _ _ hx => by rw [h4] at hx; simp at hx⟩

/-- The parts of `OnMemory` that a machine without requests, errors, copies and debugger gives. -/
theorem mem_of {s : State} {t b c n} {w : Want} {on : Nat → Prop} {ea : Nat → Dbl} {key : Nat → Nat → Nat} (hr : Resident s t b c n)
    (h1 : t.served = 0) (h0 : t.stopAt = none) (h2 : t.watch = []) (h3 : s.reqs = []) (h4 : c.attached = false) (h5 : s.errors = [])
    (h6 : c.l1 = []) (h7 : (siteOf s (2 * c.dev + c.die)).l2 = [])
    (place : ∀ l, on l → AtHand s t b c n w (∀ j, on j → j = l) l (ea l) (key l)) : OnMemory s t b c n w on ea key where
  resident := hr
  whole := whole_of h1 h0 h2 h3
  quiet := by simp [h3]
  unwatched := h4
  place := place
  sound _ l i _ _ := by simp [h5, tget]
  coherent _ l i _ _ := ⟨by simp [h6, tget], by simp [h7, tget]⟩

/-- Pointers into the own scratchpad. -/
theorem spad_of {s : State} {t b c n} {neg : Bool} {g : BitVec 3} {ea : Nat → Dbl} {w : Want} (hr : Resident s t b c n)
    (h1 : t.served = 0) (h0 : t.stopAt = none) (h2 : t.watch = []) (h3 : s.reqs = []) (h4 : c.attached = false) (h5 : s.errors = [])
    (h6 : c.l1 = []) (h7 : (siteOf s (2 * c.dev + c.die)).l2 = [])
    (h : (activeLanes t neg g).all (fun l => !(ea l).getLsbD 63 && sub (ea l) 60 3 == 2 && sub (ea l) 57 3 == 0 &&
      sub (ea l) 0 57 % w.size == 0 && decide (sub (ea l) 0 57 + w.size ≤ b.spad)) = true) :
    OnMemory s t b c n w (On t neg g) ea (fun l i => ownKey t (ea l) + i) :=
  mem_of hr h1 h0 h2 h3 h4 h5 h6 h7 fun l hl => by
    have := List.all_eq_true.mp h l (on_iff.mp hl)
    simp only [Bool.and_eq_true, beq_iff_eq, decide_eq_true_eq, Bool.not_eq_true'] at this
    exact .inl ⟨⟨this.1.1.1.1, this.1.1.1.2, this.1.1.2, this.1.2, this.2⟩, fun _ _ => rfl⟩

/-- k2.d points to the last 16 bytes of the scratchpad, v2.d of lane 0 and of lane 1 to the last two words. -/
def tmS : Team := { tm with
  k := [(2, 0x3F0), (3, 0x20000000)]
  v := [(2, 0x3F8), (3, 0x20000000), (130, 0x3FC), (131, 0x20000000)] }
def sS : State := st tmS bl cx nd
theorem resS : Resident sS tmS bl cx nd := res_of rfl rfl (by decide +kernel) rfl rfl rfl
theorem opsS {dst src ks} (h : (dst ++ src ++ [] ++ ks).all (fun x => x.1 % x.2 == 0) = true) : Operands tmS dst src ks := ops rfl rfl ⟨rfl, rfl⟩ h

/-- k2.d names the last double of object 9 of site 0, at home there; v2.d of lane 0 and of lane 1 its last two words. -/
def tmU : Team := { tm with
  k := [(2, 0xFF8), (3, 0x80000024)]
  v := [(2, 0xFF8), (3, 0x80000024), (130, 0xFFC), (131, 0x80000024)] }
def objU : ObjEntry := { state := .home, size := 4096, cap := 4096, key := 1 }
def sU : State := { st tmU bl cx nd with
  sites := [(0, { locator := [(Config.locatorHash 9 % 8192, [⟨9, 0, 0⟩])], objects := [(9, objU)] })] }
theorem resU : Resident sU tmU bl cx nd := res_of rfl rfl (by decide +kernel) rfl rfl rfl
theorem opsU {dst src ks} (h : (dst ++ src ++ [] ++ ks).all (fun x => x.1 % x.2 == 0) = true) : Operands tmU dst src ks := ops rfl rfl ⟨rfl, rfl⟩ h
theorem near_of {s b c} (w : Want) (ea : Dbl) (h1 : ea.getLsbD 63 = true) (h2 : ea.toNat % w.size = 0)
    (h3 : goidSite (ptrGoid ea) < 2 * s.fabric.devices) (h4 : c.die < 2) (h5 : s.moves = []) (h6 : s.reqs = []) (h7 : s.fabric.msgs = [])
    (h8 : b.provisional = false) : ObjectPointer s b c w ea :=
  ⟨h1, h2, h3, h4, by simp [h5], by simp [h6], fun ⟨x, hx, _⟩ => by simp [h7] at hx, fun _ => h8⟩
theorem homeU {s : State} {b : Block} {c : Ctx} {w : Want} {ea : Dbl} (hs : s.sites = sU.sites) (hd : c.dev = 0) (hi : c.die = 0)
    (hp : ObjectPointer s b c w ea) (h : ptrGoid ea = 9) : HomeServed s b c w ea 0 objU where
  pointer := hp
  located := ⟨⟨9, 0, 0⟩, by rw [h]; simp [locate, siteOf, hs, sU, hd, hi, tgetD, tget], rfl⟩
  ways := by rw [h]; simp [siteOf, hs, sU, hd, hi, tgetD, tget]
  registered := by
    have e : homeSite s 9 = homeSite sU 9 := by simp [homeSite, regEntry, siteOf, hs]
    rw [h, e]; decide +kernel
  reached := .inl hd.symm
  near _ := hd.symm
  entry := by rw [h]; simp [objAt, siteOf, hs, sU, tgetD, tget]
  state := rfl

/-- Pointers into object 9. -/
theorem obj_of {on : Nat → Prop} {ea : Nat → Dbl} {w : Want}
    (h : ∀ l, on l → (ea l).getLsbD 63 = true ∧ (ea l).toNat % w.size = 0 ∧ ptrGoid (ea l) = 9 ∧ sub (ea l) 0 34 + w.size ≤ 4096) :
    OnMemory sU tmU bl cx nd w on ea (fun l i => (ea l).toNat + i) :=
  mem_of resU rfl rfl rfl rfl rfl rfl rfl rfl fun l hl =>
    .inr (.inl ⟨0, objU, homeU rfl rfl rfl (near_of w _ (h l hl).1 (h l hl).2.1 (by rw [(h l hl).2.2.1]; show goidSite 9 < 2 * 512; decide +kernel)
      (by decide +kernel) rfl rfl rfl rfl) (h l hl).2.2.1, (h l hl).2.2.2, fun _ _ => rfl⟩)

/-- k2.d names the last double of a page of region 0 that the context has cached a translation of, and v2.d its last words; region 3
has a page in host bias, and a root whose entry 0 is not present. -/
def tmMp : Team := { tm with
  k := [(2, 0x4FF8)]
  v := [(2, 0x4FF8), (130, 0x4FFC)] }
def pageMp : Xlat := ⟨0x8000, true, false, 0⟩
def cxMp : Ctx := { cx with tlb := [(4, pageMp), (3 * 2 ^ 48 + 4, ⟨0x9000, true, true, 0⟩), (7, ⟨0xA000, false, false, 0⟩)], roots := [(3, 0x100000)] }
def sMp : State := { st tmMp bl cxMp nd with mem := writeBytes {} (slotKey 0 0 0x100000) [1] }
theorem resMp : Resident sMp tmMp bl cxMp nd := res_of rfl rfl (by decide +kernel) rfl rfl rfl
theorem opsMp {dst src ks} (h : (dst ++ src ++ [] ++ ks).all (fun x => x.1 % x.2 == 0) = true) : Operands tmMp dst src ks := ops rfl rfl ⟨rfl, rfl⟩ h

/-- Pointers into that page. -/
theorem flat_of {on : Nat → Prop} {ea : Nat → Dbl} {w : Want}
    (h : ∀ l, on l → (ea l).getLsbD 63 = false ∧ sub (ea l) 60 3 = 0 ∧ (ea l).toNat % w.size = 0 ∧ 0x4000 ≤ sub (ea l) 0 60 ∧
      sub (ea l) 0 60 + w.size ≤ 0x5000) :
    OnMemory sMp tmMp bl cxMp nd w on ea (fun l i => slotKey 0 0 (0x8000 + (sub (ea l) 0 60 + i) % 4096)) :=
  mem_of resMp rfl rfl rfl rfl rfl rfl rfl rfl fun l hl => .inr (.inr
    { flat := (h l hl).1
      region := .inl (h l hl).2.1
      aligned := (h l hl).2.2.1
      own := fun h1 => by rw [(h l hl).2.1] at h1; simp at h1
      pages := fun i hi => ⟨pageMp, by
        have hb := h l hl
        have hv : byteVa sMp tmMp bl cxMp nd (sub (ea l) 60 3) l (ea l) i = sub (ea l) 0 60 + i := by
          rw [hb.2.1]; simp [byteVa]
        have ht : tget cxMp.tlb (0 * 2 ^ 48 + (sub (ea l) 0 60 + i) / 4096) = some pageMp := by
          rw [show (sub (ea l) 0 60 + i) / 4096 = 4 by omega]; rfl
        rw [hv, hb.2.1]
        refine ⟨?_, rfl, by decide +kernel, rfl, fun _ => rfl, fun _ => .inr ht, fun _ => .inr ⟨?_, ?_⟩⟩
        · rw [xlate, if_neg (by omega), ht]
        · rfl
        · rfl⟩
      silent := fun ⟨x, hx, _⟩ => by simp [sMp, st] at hx
      firm := fun _ => rfl })

/-- In the scratchpad LD.w of two lanes, LD.q from a uniform base, and a prefetch, each at the end of the allocation; LD.w of an object
and of flat memory, at their ends. -/
theorem witness_LaneLoads :
    (∃ a, loadForm (.ldWM ⟨0, 0, 2, 127⟩) = some a ∧ a.code < 5 ∧
      Operands tmS [(a.reg, wordsOf a.code)] (addressRegs a.kbase a.va a.vi) (addressUni a.kbase a.va) ∧
      (∃ key, OnMemory sS tmS bl cx nd ⟨true, false, true, false, 2 ^ a.code⟩ (On tmS a.neg a.g) (a.ea tmS) key) ∧
      Operands tmU [(a.reg, wordsOf a.code)] (addressRegs a.kbase a.va a.vi) (addressUni a.kbase a.va) ∧
      (∃ key, OnMemory sU tmU bl cx nd ⟨true, false, true, false, 2 ^ a.code⟩ (On tmU a.neg a.g) (a.ea tmU) key) ∧
      Operands tmMp [(a.reg, wordsOf a.code)] (addressRegs a.kbase a.va a.vi) (addressUni a.kbase a.va) ∧
      (∃ key, OnMemory sMp tmMp bl cxMp nd ⟨true, false, true, false, 2 ^ a.code⟩ (On tmMp a.neg a.g) (a.ea tmMp) key)) ∧
    (∃ a, loadForm (.ld ⟨0, 0, false, 0, 0, 2, 124, 0x44⟩) = some a ∧ a.code < 5 ∧
      Operands tmS [(a.reg, wordsOf a.code)] (addressRegs a.kbase a.va a.vi) (addressUni a.kbase a.va) ∧
      ∃ key, OnMemory sS tmS bl cx nd ⟨true, false, true, false, 2 ^ a.code⟩ (On tmS a.neg a.g) (a.ea tmS) key) ∧
    (∃ a, loadForm (.ldBM ⟨0, 3, 2, 0⟩) = some a ∧ a.code < 5 ∧
      Operands tmS [(a.reg, wordsOf a.code)] (addressRegs a.kbase a.va a.vi) (addressUni a.kbase a.va) ∧
      ∃ key, OnMemory sS tmS bl cx nd ⟨true, false, true, false, 2 ^ a.code⟩ (On tmS a.neg a.g) (a.ea tmS) key) :=
  ⟨⟨_, rfl, by decide +kernel, opsS (by decide +kernel), ⟨_, spad_of resS rfl rfl rfl rfl rfl rfl rfl rfl (by decide +kernel)⟩,
      opsU (by decide +kernel), ⟨_, obj_of (all_on (by decide +kernel))⟩,
      opsMp (by decide +kernel), ⟨_, flat_of (all_on (by decide +kernel))⟩⟩,
    ⟨_, rfl, by decide +kernel, opsS (by decide +kernel), _, spad_of resS rfl rfl rfl rfl rfl rfl rfl rfl (by decide +kernel)⟩,
    ⟨_, rfl, by decide +kernel, opsS (by decide +kernel), _, spad_of resS rfl rfl rfl rfl rfl rfl rfl rfl (by decide +kernel)⟩⟩

/-- ST.w of two lanes at each place, and ST.q.rel at device scope with nothing outstanding. -/
theorem witness_LaneStores :
    (∃ a, storeForm (.stWM ⟨0, 0, 2, 127⟩) = some a ∧ a.code < 5 ∧
      Operands tmS [] (addressRegs a.kbase a.va a.vi ++ [(a.reg, wordsOf a.code)]) (addressUni a.kbase a.va) ∧
      (∃ key, OnMemory sS tmS bl cx nd ⟨false, true, false, false, 2 ^ a.code⟩ (On tmS a.neg a.g) (a.ea tmS) key) ∧
      Operands tmU [] (addressRegs a.kbase a.va a.vi ++ [(a.reg, wordsOf a.code)]) (addressUni a.kbase a.va) ∧
      (∃ key, OnMemory sU tmU bl cx nd ⟨false, true, false, false, 2 ^ a.code⟩ (On tmU a.neg a.g) (a.ea tmU) key) ∧
      Operands tmMp [] (addressRegs a.kbase a.va a.vi ++ [(a.reg, wordsOf a.code)]) (addressUni a.kbase a.va) ∧
      (∃ key, OnMemory sMp tmMp bl cxMp nd ⟨false, true, false, false, 2 ^ a.code⟩ (On tmMp a.neg a.g) (a.ea tmMp) key) ∧
      Released tmS cx a.order ∧ Released tmU cx a.order ∧ Released tmMp cxMp a.order) ∧
    (∃ a, storeForm (.st ⟨0, 3, false, 0, 0, 2, 124, 0x64⟩) = some a ∧ a.code < 5 ∧
      Operands tmS [] (addressRegs a.kbase a.va a.vi ++ [(a.reg, wordsOf a.code)]) (addressUni a.kbase a.va) ∧
      (∃ key, OnMemory sS tmS bl cx nd ⟨false, true, false, false, 2 ^ a.code⟩ (On tmS a.neg a.g) (a.ea tmS) key) ∧ Released tmS cx a.order) :=
  ⟨⟨_, rfl, by decide +kernel, opsS (by decide +kernel), ⟨_, spad_of resS rfl rfl rfl rfl rfl rfl rfl rfl (by decide +kernel)⟩,
      opsU (by decide +kernel), ⟨_, obj_of (all_on (by decide +kernel))⟩,
      opsMp (by decide +kernel), ⟨_, flat_of (all_on (by decide +kernel))⟩,
      (by intro _ h; cases h), (by intro _ h; cases h), by intro _ h; cases h⟩,
    ⟨_, rfl, by decide +kernel, opsS (by decide +kernel), ⟨_, spad_of resS rfl rfl rfl rfl rfl rfl rfl rfl (by decide +kernel)⟩,
      fun _ _ => ⟨fun _ => ⟨rfl, by decide +kernel⟩, fun _ => rfl⟩⟩⟩

/-- Two lanes at one key, word by word. -/
theorem one_of {on : Nat → Prop} {size : Nat} {ea : Nat → Dbl} {f : Dbl → Nat → Nat} (x : Dbl) (h : ∀ l, on l → ea l = x) :
    OneOrApart on size (fun l i => f (ea l) i) := fun l j hl hj => .inl fun i _ => by simp only [h l hl, h j hj]

/-- ATOM.CAS.d of both lanes at one location of the scratchpad and of the object, and RED.ADD with a release. -/
theorem witness_LaneReadModifyWrite :
    (∃ op o, atomForm (.atomCas ⟨8, 1, false, 0, 124, 2, 126, 0xC0⟩) = some (op, o) ∧
      Instr.legal (.atomCas ⟨8, 1, false, 0, 124, 2, 126, 0xC0⟩) = true ∧
      Operands tmS [(o.vd.toNat, atomWords o)] ((if o.m.getLsbD 6 then [] else [(o.va.toNat, 2)]) ++
        [(o.vi.toNat, operandWords op o)]) (if o.m.getLsbD 6 then [(sub o.va 0 6, 2)] else []) ∧
      (∃ key, OnMemory sS tmS bl cx nd ⟨true, true, false, false, 4 * atomWords o⟩ (On tmS o.n o.g)
        (fun l => eaOf tmS (o.m.getLsbD 6) o.va.toNat 0 o.imm.toInt l) key ∧ OneOrApart (On tmS o.n o.g) (4 * atomWords o) key) ∧
      Released tmS cx (if 2 ≤ sub o.m 4 2 then some o.sc.toNat else none)) ∧
    (∃ op o, atomForm (.atomCas ⟨0, 1, false, 0, 124, 2, 126, 0xC0⟩) = some (op, o) ∧
      ∃ key, OnMemory sU tmU bl cx nd ⟨true, true, false, false, 4 * atomWords o⟩ (On tmU o.n o.g)
        (fun l => eaOf tmU (o.m.getLsbD 6) o.va.toNat 0 o.imm.toInt l) key ∧ OneOrApart (On tmU o.n o.g) (4 * atomWords o) key) ∧
    (∃ op o, redForm (.redAdd ⟨12, 5, false, 0, 0, 2, 127, 0x60⟩) = some (op, o) ∧
      Instr.legal (.redAdd ⟨12, 5, false, 0, 0, 2, 127, 0x60⟩) = true ∧
      Operands tmS [] (addressRegs (o.m.getLsbD 6) o.va.toNat o.vi.toNat ++ [(o.vd.toNat, atomWords o)])
        (addressUni (o.m.getLsbD 6) o.va.toNat) ∧
      (∃ key, OnMemory sS tmS bl cx nd ⟨true, true, false, true, 4 * atomWords o⟩ (On tmS o.n o.g)
        (fun l => eaOf tmS (o.m.getLsbD 6) o.va.toNat o.vi.toNat o.imm.toInt l) key ∧ OneOrApart (On tmS o.n o.g) (4 * atomWords o) key) ∧
      Released tmS cx (if sub o.m 4 2 = 2 then some o.sc.toNat else none)) :=
  ⟨⟨_, _, rfl, by decide +kernel, opsS (by decide +kernel), ⟨_, spad_of resS rfl rfl rfl rfl rfl rfl rfl rfl (by decide +kernel),
      one_of (f := fun p i => ownKey tmS p + i) 0x20000000000003F8 (all_on (by decide +kernel))⟩, by intro _ h; cases h⟩,
    ⟨_, _, rfl, _, obj_of (all_on (by decide +kernel)),
      one_of (f := fun p i => p.toNat + i) 0x8000002400000FF8 (all_on (by decide +kernel))⟩,
    ⟨_, _, rfl, by decide +kernel, opsS (by decide +kernel), ⟨_, spad_of resS rfl rfl rfl rfl rfl rfl rfl rfl (by decide +kernel),
      one_of (f := fun p i => ownKey tmS p + i) 0x20000000000003FC (all_on (by decide +kernel))⟩,
      fun _ _ => ⟨fun _ => ⟨rfl, by decide +kernel⟩, fun _ => rfl⟩⟩⟩

/-- KLD and KST of a double, at each place; and a machine whose locator knows nothing of the object, or names a stub, or another device. -/
def oU : M64 := ⟨0, 0, false, 0, 0, 2, 2, 6⟩
def sLv (l : Nat) : State := { st tmU bl cx nd with
  sites := if l = 0 then [] else if l = 1 then
      [(0, { locator := [(Config.locatorHash 9 % 8192, [⟨9, 0, 0⟩])], objects := [(9, { objU with state := .stub })] })]
    else [(0, { locator := [(Config.locatorHash 9 % 8192, [⟨9, 2, 0⟩])] })] }
theorem resLv (l : Nat) : Resident (sLv l) tmU bl cx nd := res_of rfl rfl (by decide +kernel) rfl rfl rfl
theorem leavesL (w : Want) (ea : Dbl) (h1 : ea.getLsbD 63 = true) (h2 : ea.toNat % w.size = 0) (h3 : ptrGoid ea = 9) :
    Leaves (sLv 0) bl cx w ea 0 .registry ∧ (w.combines = false → Leaves (sLv 1) bl cx w ea 0 .toSite) ∧
      (w.combines = true → Leaves (sLv 2) bl cx w ea 2 .egress) := by
  have hp : ∀ l, ObjectPointer (sLv l) bl cx w ea := fun l =>
    near_of w ea h1 h2 (by rw [h3]; show goidSite 9 < 2 * 512; decide +kernel) (by decide +kernel) rfl rfl rfl rfl
  refine ⟨⟨hp 0, .inr ⟨rfl, by rw [h3]; decide +kernel, rfl⟩, .inl rfl, fun _ => ⟨rfl, rfl⟩⟩, fun hw => ⟨hp 1, .inl ⟨⟨9, 0, 0⟩, ?_, rfl,
    .inr ⟨rfl, fun h => by (rw [hw] at h; cases h), ?_⟩⟩, .inl rfl, fun _ => ⟨rfl, rfl⟩⟩,
    fun hw => ⟨hp 2, .inl ⟨⟨9, 2, 0⟩, ?_, rfl, .inl ⟨rfl, hw, by decide +kernel⟩⟩, .inr ⟨List.not_mem_nil, by decide +kernel, 0, by decide +kernel, List.not_mem_nil⟩,
      fun _ => ⟨rfl, rfl⟩⟩⟩
  · rw [h3]; simp [locate, siteOf, sLv, st, cx, tgetD, tget]
  · rw [h3]; intro e he
    have : e.state = .stub := by simp [objAt, siteOf, sLv, st, tgetD, tget] at he; simp [← he]
    exact .inl this
  · rw [h3]; simp [locate, siteOf, sLv, st, cx, tgetD, tget]

theorem witness_UniformAndSentAccesses :
    (sub oU.m 1 3 = 3 ∧ Uniforms tmU [(sub oU.vd 0 6, wordsOf 3)] [(sub oU.va 0 6, 2)] ∧
      Uniforms tmU [] [(sub oU.va 0 6, 2), (sub oU.vd 0 6, wordsOf 3)] ∧
      (∃ key, OnMemory sU tmU bl cx nd ⟨true, false, true, false, 2 ^ 3⟩ (fun l => l = 0) (fun _ => kAddress tmU oU) key) ∧
      (∃ key, OnMemory sU tmU bl cx nd ⟨false, true, false, false, 2 ^ 3⟩ (fun l => l = 0) (fun _ => kAddress tmU oU) key) ∧
      (∃ key, OnMemory sMp tmMp bl cxMp nd ⟨true, false, true, false, 2 ^ 3⟩ (fun l => l = 0) (fun _ => kAddress tmMp oU) key) ∧
      (∃ key, OnMemory sMp tmMp bl cxMp nd ⟨false, true, false, false, 2 ^ 3⟩ (fun l => l = 0) (fun _ => kAddress tmMp oU) key) ∧
      Released tmU cx (if oU.m.getLsbD 5 then some oU.sc.toNat else none)) ∧
    (sub oU.vd 0 6 ≠ 0 ∧ Whole (sLv 1) tmU ∧ (sLv 1).reqs = [] ∧ cx.attached = false ∧
      (∀ w : Want, w.size = 8 → Leaves (sLv 0) bl cx w (kAddress tmU oU) 0 .registry) ∧
      Leaves (sLv 1) bl cx ⟨true, false, true, false, 8⟩ (kAddress tmU oU) 0 .toSite ∧
      Leaves (sLv 1) bl cx ⟨false, true, false, false, 8⟩ (kAddress tmU oU) 0 .toSite) ∧
    (∃ a, loadForm (.ldWM ⟨1, 0, 2, 127⟩) = some a ∧ a.reg ≠ 0 ∧ storeForm (.stWM ⟨1, 0, 2, 127⟩) = some a ∧ a.order = none ∧
      (let t := { tmU with p := [(0, 2)] }
       OneLane (st t bl cx nd) t bl cx nd a.neg a.g 0 ∧ a.ea t 0 = a.ea tmU 0 ∧
       Operands t [(a.reg, wordsOf a.code)] (addressRegs a.kbase a.va a.vi) (addressUni a.kbase a.va) ∧
       Operands t [] (addressRegs a.kbase a.va a.vi ++ [(a.reg, wordsOf a.code)]) (addressUni a.kbase a.va)) ∧
      Leaves (sLv 1) bl cx ⟨true, false, true, false, 2 ^ a.code⟩ (a.ea tmU 0) 0 .toSite ∧
      Leaves (sLv 1) bl cx ⟨false, true, false, false, 2 ^ a.code⟩ (a.ea tmU 0) 0 .toSite) ∧
    (∃ op o, atomForm (.atomAdd ⟨0, 1, false, 1, 4, 2, 6, 0x40⟩) = some (op, o) ∧
      Instr.legal (.atomAdd ⟨0, 1, false, 1, 4, 2, 6, 0x40⟩) = true ∧
      Leaves (sLv 2) bl cx ⟨true, true, false, true, 4 * atomWords o⟩ (eaOf tmU (o.m.getLsbD 6) o.va.toNat 0 o.imm.toInt 0) 2 .egress) ∧
    (∃ op o, redForm (.redAdd ⟨0, 1, false, 1, 0, 2, 6, 0x40⟩) = some (op, o) ∧
      Instr.legal (.redAdd ⟨0, 1, false, 1, 0, 2, 6, 0x40⟩) = true ∧
      Leaves (sLv 2) bl cx ⟨true, true, false, true, 4 * atomWords o⟩ (eaOf tmU (o.m.getLsbD 6) o.va.toNat o.vi.toNat o.imm.toInt 0) 2 .egress) := by
  have hk : kAddress tmU oU = 0x8000002400000FF8 := by decide +kernel
  have hp : kAddress tmMp oU = 0x4FF8 := by decide +kernel
  have ho : ∀ w : Want, w.size = 8 → ∀ l, l = 0 → (kAddress tmU oU).getLsbD 63 = true ∧ (kAddress tmU oU).toNat % w.size = 0 ∧
      ptrGoid (kAddress tmU oU) = 9 ∧ sub (kAddress tmU oU) 0 34 + w.size ≤ 4096 := by
    intro w hw l _; rw [hk, hw]; decide +kernel
  have hf : ∀ w : Want, w.size = 8 → ∀ l, l = 0 → (kAddress tmMp oU).getLsbD 63 = false ∧ sub (kAddress tmMp oU) 60 3 = 0 ∧
      (kAddress tmMp oU).toNat % w.size = 0 ∧ 0x4000 ≤ sub (kAddress tmMp oU) 0 60 ∧ sub (kAddress tmMp oU) 0 60 + w.size ≤ 0x5000 := by
    intro w hw l _; rw [hp, hw]; decide +kernel
  refine ⟨⟨by decide +kernel, unis rfl (by decide +kernel), unis rfl (by decide +kernel), ⟨_, obj_of (ho _ rfl)⟩, ⟨_, obj_of (ho _ rfl)⟩,
      ⟨_, flat_of (hf _ rfl)⟩, ⟨_, flat_of (hf _ rfl)⟩, by intro _ h; cases h⟩,
    ⟨by decide +kernel, whole_of rfl rfl rfl rfl, rfl, rfl,
      fun w hw => (leavesL w _ (ho w hw 0 rfl).1 (ho w hw 0 rfl).2.1 (ho w hw 0 rfl).2.2.1).1,
      (leavesL _ _ (by decide +kernel) (by decide +kernel) (by decide +kernel)).2.1 rfl,
      (leavesL _ _ (by decide +kernel) (by decide +kernel) (by decide +kernel)).2.1 rfl⟩,
    ⟨_, rfl, by decide +kernel, rfl, rfl, ⟨⟨res_of rfl rfl (by decide +kernel) rfl rfl rfl, whole_of rfl rfl rfl rfl, by simp [st], rfl,
        by unfold On; decide, all_on (by decide +kernel)⟩, by decide +kernel, ops rfl rfl ⟨rfl, rfl⟩ (by decide +kernel), ops rfl rfl ⟨rfl, rfl⟩ (by decide +kernel)⟩,
      (leavesL _ _ (by decide +kernel) (by decide +kernel) (by decide +kernel)).2.1 rfl,
      (leavesL _ _ (by decide +kernel) (by decide +kernel) (by decide +kernel)).2.1 rfl⟩,
    ⟨_, _, rfl, by decide +kernel, (leavesL _ _ (by decide +kernel) (by decide +kernel) (by decide +kernel)).2.2 rfl⟩,
    ⟨_, _, rfl, by decide +kernel, (leavesL _ _ (by decide +kernel) (by decide +kernel) (by decide +kernel)).2.2 rfl⟩⟩

/-- One acting lane of two. -/
def tmF (lo hi : Word) : Team := { tm with p := [(0, 2)], v := if lo = 0 then [(3, hi)] else [(2, lo), (3, hi)] }
def sFl (t : Team) (c : Ctx) : State := { st t bl c nd with sites := sU.sites, mem := sMp.mem, fabric := { devices := 4 } }
theorem one_of_two (lo hi : Word) (c : Ctx) (hc : c.attached = false) : OneLane (sFl (tmF lo hi) c) (tmF lo hi) bl c nd false 1 0 :=
  ⟨res_of rfl rfl (by simp [tmF, tm]) rfl rfl rfl, whole_of rfl rfl rfl rfl, by simp [sFl, st], hc,
    ⟨by simp [tmF, tm], by simp [tmF, tm], by simp [tmF, tm, pget, tgetD, tget]⟩, fun j hj => Decidable.byContradiction fun hne => hj.2.2 (by
      have h : (0 : Nat) ≠ j := fun h => hne h.symm
      simp [pget, tmF, tgetD, tget, h])⟩

/-- An address that each check of R134 refuses: a reserved region; a member that the cluster has not; two bytes past an aligned place; the
end of the scratchpad; more than the private storage; an unmapped page; a page that is not writable; an object pointer that is not
aligned, one past the last site, and one past the end of an object. -/
theorem witness_FaultsAndTranslation : ∃ a, loadForm (.ldWM ⟨1, 0, 2, 127⟩) = some a ∧ storeForm (.stWM ⟨1, 0, 2, 127⟩) = some a ∧ a.code < 5 ∧ a.reg ≠ 0 ∧
    a.order = none ∧ a.neg = false ∧ a.g = 1 ∧
    (∀ x ∈ [((0 : Word), (0x40000000 : Word), false, 0x042), (0x400, 0x22000000, false, 0x043), (0x3FE, 0x20000000, false, 0x041),
        (0x400, 0x20000000, false, 0x040), (0x10, 0x10000000, false, 0x080), (0x8000, 0, false, 0x080), (0x7000, 0, true, 0x081),
        (2, 0x80000000, false, 0x044), (4, 0xFFE00000, false, 0x0C3), (0x1000, 0x80000024, false, 0x0C1)],
      (let t := tmF x.1 x.2.1
       LoadOrStore t (if x.2.2.1 then .stWM ⟨1, 0, 2, 127⟩ else .ldWM ⟨1, 0, 2, 127⟩) a ∧ OneLane (sFl t cxMp) t bl cxMp nd a.neg a.g 0 ∧
       t.handler = false ∧ t.detach = none ∧ bl.provisional = false ∧ (∃ j, j ≠ 0 ∧ t.mask.getLsbD j = true) ∧
       (FailsCheck (sFl t cxMp) bl cxMp nd x.2.2.1 (a.ea t 0) (2 ^ a.code) x.2.2.2))) := by
  refine ⟨_, rfl, rfl, by decide +kernel, by decide +kernel, rfl, rfl, rfl, ?_⟩
  have hops : ∀ (t : Team) {d u}, t.e1 = true → t.e2 = true → t.bad = [] ∧ t.badK = [] → ((d ++ u ++ [] ++ []).all fun (x : Nat × Nat) => x.1 % x.2 == 0) = true →
      Operands t d u [] := fun t d u h1 h2 h3 h => ops h1 h2 h3 h
  simp only [List.forall_mem_cons]
  refine ⟨?_, ?_, ?_, ?_, ?_, ?_, ?_, ?_, ?_, ?_, by simp⟩
  all_goals refine ⟨?_, one_of_two _ _ _ rfl, rfl, rfl, rfl, ⟨1, by decide +kernel, by decide +kernel⟩, ?_⟩
  all_goals first
    | exact .inl ⟨rfl, by decide +kernel, ops rfl rfl ⟨rfl, rfl⟩ (by decide +kernel)⟩
    | exact .inr ⟨rfl, ops rfl rfl ⟨rfl, rfl⟩ (by decide +kernel)⟩
    | skip
  · exact .inl ⟨by decide +kernel, .inl ⟨by decide +kernel, rfl⟩⟩
  · exact .inl ⟨by decide +kernel, .inr (.inl (by decide +kernel))⟩
  · exact .inl ⟨by decide +kernel, .inr (.inr (.inl (by decide +kernel)))⟩
  · exact .inl ⟨by decide +kernel, .inr (.inr (.inr (.inl (by decide +kernel))))⟩
  · exact .inl ⟨by decide +kernel, .inr (.inr (.inr (.inr (.inl (by decide +kernel)))))⟩
  · exact .inl ⟨by decide +kernel, .inr (.inr (.inr (.inr (.inr (.inl (by decide +kernel))))))⟩
  · exact .inl ⟨by decide +kernel, .inr (.inr (.inr (.inr (.inr (.inr ⟨by decide +kernel, by decide +kernel, rfl, rfl,
      .inr ⟨⟨0xA000, false, false, 0⟩, by decide +kernel, rfl⟩⟩)))))⟩
  · exact .inr (.inl (by decide +kernel))
  · exact .inr (.inr (.inl ⟨by decide +kernel, by decide +kernel, by decide +kernel, fun ⟨x, hx, _⟩ => by simp [sFl, st] at hx, rfl⟩))
  · exact .inr (.inr (.inr ⟨0, objU, homeU rfl rfl rfl (near_of _ _ (by decide +kernel) (by decide +kernel) (by decide +kernel)
      (by decide +kernel) rfl rfl rfl rfl) (by decide +kernel), by decide +kernel, rfl, rfl, rfl⟩))

/-- A page in host bias and a level that is not present stall; a table entry of each kind stands at its place. -/
theorem witness_PageStallsAndWalk :
    (let t := tmF 0x4000 0x30000000
     OneLane (sFl t cxMp) t bl cxMp nd false 1 0 ∧
     xlate (sFl t cxMp) cxMp (sub (eaOf t false 2 0 0 0) 60 3) (sub (eaOf t false 2 0 0 0) 0 60) = .page ⟨0x9000, true, true, 0⟩) ∧
    (let t := tmF 0 0x30000000
     OneLane (sFl t cxMp) t bl cxMp nd false 1 0 ∧
     xlate (sFl t cxMp) cxMp (sub (eaOf t false 2 0 0 0) 60 3) (sub (eaOf t false 2 0 0 0) 0 60) = .absent false) ∧
    tget cxMp.tlb (0 * 2 ^ 48 + 0x4FF8 / 4096) = some pageMp ∧ tget cxMp.roots 3 = some 0x100000 ∧ tget cxMp.roots 1 = none ∧
    (∀ e ∈ [0, 0x10, 3, 0x11, 0x15, 0x200015, 0x200011, 0x1, 0x5, 0x2D],
      readNat (writeBytes {} (slotKey 0 0 0x1008) (natBytes 8 e)) (slotKey 0 (slotOf {} 0 0x1008) 0x1008) 8 = e) ∧
    (Nat.testBit 0 0 = false ∧ Reserved 3 ∧ ∀ e ∈ [0x11, 0x15, 0x200015, 0x1, 0x2D], ¬Reserved e) := by
  refine ⟨⟨one_of_two _ _ _ rfl, by decide +kernel⟩, ⟨one_of_two _ _ _ rfl, by decide +kernel⟩, by decide +kernel, by decide +kernel, by decide +kernel,
    by decide +kernel, rfl, ⟨1, by decide +kernel, .inl rfl⟩, ?_⟩
  rintro e he ⟨i, h1, h2⟩
  have hs : e < 2 ^ 64 := (by decide +kernel : ∀ e ∈ [0x11, 0x15, 0x200015, 0x1, 0x2D], e < 2 ^ 64) e he
  have hi : i < 64 := Decidable.byContradiction fun h => by
    rw [Nat.testBit_lt_two_pow (Nat.lt_of_lt_of_le hs (Nat.pow_le_pow_right (by decide) (Nat.le_of_not_lt h)))] at h1
    cases h1
  exact (by decide +kernel : ∀ e ∈ [0x11, 0x15, 0x200015, 0x1, 0x2D], ∀ i, i < 64 → Nat.testBit e i = true →
    ¬(i = 1 ∨ 6 ≤ i ∧ i < 12 ∨ 52 ≤ i ∧ i < 56 ∨ 62 ≤ i)) e he i hi h1 h2

/-- WAITA on the last word: words that differ from what it expects, words that do not, a woken one, and no lane; in the scratchpad, an
object and flat memory. -/
def oW : M64 := ⟨12, 0, false, 0, 4, 2, 1, 0x40⟩
def tmW (x : Word) : Team := { tm with k := [(2, 0x3F0), (3, 0x20000000)], v := if x = 0 then [] else [(4, x), (132, x)] }
theorem witness_WaitsAndFences :
    (∀ x, x = 1 ∨ x = 0 →
      Operands (tmW x) [(oW.vd.toNat, 1)] [(oW.vi.toNat, 1)] [(sub oW.va 0 6, 2)] ∧
      (∃ key, OnMemory (st (tmW x) bl cx nd) (tmW x) bl cx nd ⟨true, false, false, false, 4⟩ (On (tmW x) false 0)
        (fun l => eaOf (tmW x) true oW.va.toNat 0 oW.imm.toInt l) key) ∧ (tmW x).wait = .none) ∧
    (∃ key, OnMemory sU tmU bl cx nd ⟨true, false, false, false, 4⟩ (On tmU false 0) (fun l => eaOf tmU true 2 0 4 l) key) ∧
    (∃ key, OnMemory sMp tmMp bl cxMp nd ⟨true, false, false, false, 4⟩ (On tmMp false 0) (fun l => eaOf tmMp true 2 0 4 l) key) ∧
    (On (tmW 1) false 0 0 ∧ gathered {} (fun i => ownKey (tmW 1) (eaOf (tmW 1) true 2 0 12 0) + i) 4 ≠ vgetW (tmW 1) 0 4 1) ∧
    (On (tmW 0) false 0 0 ∧ ∀ l, On (tmW 0) false 0 l →
      gathered {} (fun i => ownKey (tmW 0) (eaOf (tmW 0) true 2 0 12 l) + i) 4 = vgetW (tmW 0) l 4 1) ∧
    (∀ l, ¬On (tmW 0) false 1 l) ∧ ({ tm with wait := .waita true 0 [] } : Team).wait = .waita true 0 [] ∧
    (Resident s0 tm bl cx nd ∧ tm.served = 0 ∧ tm.watch = [] ∧ Released tm cx (some 5)) ∧
    (Resident (st tm bl { cx with out := 1 } nd) tm bl { cx with out := 1 } nd ∧ (1 : Nat) ≠ 0) ∧
    (¬Multicasting s0 s0.cur ∧ Multicasting { s0 with fabric := { msgs := [(9, .mcast 5 2 255 77 31 0 [] [] 0 false)] } } 5) := by
  refine ⟨?_, ⟨_, obj_of (all_on (by decide +kernel))⟩, ⟨_, flat_of (all_on (by decide +kernel))⟩,
    ⟨by unfold On; decide, by decide +kernel⟩, ⟨by unfold On; decide, all_on (by decide +kernel)⟩,
    all_on (P := fun _ => False) (by decide +kernel), rfl, ⟨res0, rfl, rfl, fun _ _ => ⟨fun _ => ⟨rfl, by decide +kernel⟩, fun _ => rfl⟩⟩,
    ⟨res_of rfl rfl (by decide +kernel) rfl rfl rfl, by decide +kernel⟩, (fun h => by obtain ⟨_, h, _⟩ := h; cases h),
    ⟨(9, .mcast 5 2 255 77 31 0 [] [] 0 false), List.mem_cons_self, 2, 255, 77, 31, 0, [], [], 0, false, rfl⟩⟩
  rintro x (rfl | rfl) <;>
    exact ⟨ops rfl rfl ⟨rfl, rfl⟩ (by decide +kernel), ⟨_, spad_of (res_of rfl rfl (by decide +kernel) rfl rfl rfl) rfl rfl rfl rfl rfl rfl rfl rfl (by decide +kernel)⟩, rfl⟩

/-- A group entry with ranks 0 and 1023 and a window of 4,096 bytes. -/
def gr : Group := { gid := 77, members := 1 ||| (1 <<< 1023), rank := 0, size := 2, base := 0, bytes := 4096 }
def cxG : Ctx := { cx with groups := [(255, gr)] }
/-- ST.mc of doubles at the window's last offset; and an entry that is not there. -/
def tmG : Team := { tm with v := [(2, 4088), (130, 4088)] }
theorem witness_MulticastStores :
    (Resident (st tmG bl cxG nd) tmG bl cxG nd ∧ Operands tmG [] [(2, 2), (4, wordsOf 3)] [] ∧ bl.provisional = false ∧
      Whole (st tmG bl cxG nd) tmG ∧
      cxG.attached = false ∧ tget cxG.groups 255 = some gr ∧ gr.valid = true ∧ (st tmG bl cxG nd).fabric.down = [] ∧
      (cxG.out = 0 ∧ ∀ p ∈ cxG.parked, p.count = 0) ∧ ∀ l, On tmG false 0 l → vgetW tmG l 2 2 % 2 ^ 3 = 0 ∧ vgetW tmG l 2 2 + 2 ^ 3 ≤ gr.bytes.toNat) ∧
    (Trappable s0 tm 0x1100 ∧ Operands tm [] [(2, 2), (4, wordsOf 3)] [] ∧ Free s0 tm ∧ tget s0.blocks tm.block = some bl ∧
      ∀ c e, tget s0.ctxs bl.ctx = some c → tget c.groups 255 = some e → e.valid = false) := by
  refine ⟨⟨res_of rfl rfl (by decide +kernel) rfl rfl rfl, ops rfl rfl ⟨rfl, rfl⟩ (by decide +kernel), rfl,
    whole_of rfl rfl rfl rfl, rfl, rfl, rfl, rfl, ⟨rfl, by decide +kernel⟩, all_on (by decide +kernel)⟩, trap0, ops0 (by decide +kernel),
    (whole_of rfl rfl rfl rfl : Whole s0 tm).free, rfl, ?_⟩
  intro c e hc he
  have : c = cx := by simpa [s0, st, tget, bl] using hc.symm
  subst this
  simp [cx, tget] at he

/-- Block barrier 15 of team 0 alone; a node of clusters of one block, cooperative, with every block placed. -/
def bX (x : Bar) : Block := { bl with barMask := [(15, 1)], bars := [(15, x)] }
def ndK : Node := { nd with desc := { nd.desc with cluster := 1, coop := true }, next := 1, blocks := 1 }
def sX (t : Team) (x : Bar) : State := st t (bX x) cx ndK

theorem arrivedX (t : Team) (x : Bar) (h : t.ended = false) (hn : t.num = 0) (ha : x.arrived = [5]) :
    AllArrived (sX t x) (.block 1 15) x := by
  have hm : barMembers (sX t x) (.block 1 15) = [5] := by
    simp [barMembers, sX, st, bX, bl, tget, tgetD, h, hn]
  refine ⟨rfl, by rw [hm]; simp, by rw [hm, ha]; simp⟩

/-- A barrier in each row of the table: overrun, waiting, complete, short of bytes, over its bytes; and the last barrier of a
cluster and of a grid, which stand in the node. -/
theorem witness_BarrierTest :
    (Placed (sX tm { overrun := true }) (.block 1 15) ∧ (barOf (sX tm { overrun := true }) (.block 1 15)).overrun = true) ∧
    (Placed (sX tm {}) (.block 1 15) ∧ (barOf (sX tm {}) (.block 1 15)).overrun = false ∧ ¬AllArrived (sX tm {}) (.block 1 15) {}) ∧
    (∀ c : Int, c = 0 ∨ c = 1 ∨ c = -1 → Placed (sX tm { arrived := [5], c0 := c }) (.block 1 15) ∧
      AllArrived (sX tm { arrived := [5], c0 := c }) (.block 1 15) { arrived := [5], c0 := c } ∧
      barBytes (.block 1 15) { arrived := [5], c0 := c } = c) ∧
    Placed (sX tm {}) (.node 3 (0 * 32 + 23) 23) ∧ Placed (sX tm {}) (.node 3 27 27) := by
  refine ⟨⟨rfl, rfl⟩, ⟨rfl, rfl, fun h => ?_⟩, fun c hc => ⟨rfl, arrivedX _ _ rfl rfl rfl, rfl⟩, rfl, rfl⟩
  exact absurd (h.2.2 5 (by decide +kernel)) (by decide +kernel)

/-- BAR.arv of the last barrier of each kind, an arrival that counts and one that does not. -/
theorem witness_BarrierInstructionsArrival :
    (Resident (sX tm {}) tm (bX {}) cx ndK ∧ sub (15 : BitVec 7) 0 5 = 15 ∧ Names tm (bX {}) ndK 15 (.block 1 15) ∧
      Counts tm 15 (barOf (sX tm {}) (.block 1 15)) ∧ BarReleased cx 15) ∧
    (Names tm (bX {}) ndK 23 (.node 3 23 23) ∧ Counts tm 23 (barOf (sX tm {}) (.node 3 23 23)) ∧ BarReleased cx 23) ∧
    (Names tm (bX {}) ndK 27 (.node 3 27 27) ∧ (bX {}).provisional = false ∧ Counts tm 27 (barOf (sX tm {}) (.node 3 27 27)) ∧
      BarReleased cx 27) ∧
    (Resident (sX { tm with counted := [(15, 0)] } {}) { tm with counted := [(15, 0)] } (bX {}) cx ndK ∧
      ¬Counts { tm with counted := [(15, 0)] } 15 (barOf (sX { tm with counted := [(15, 0)] } {}) (.block 1 15))) := by
  refine ⟨⟨res_of rfl rfl (by decide +kernel) rfl rfl rfl, by decide +kernel, .inl ⟨by decide +kernel, ⟨1, rfl, by decide +kernel⟩, rfl⟩, by unfold Counts; decide, .inl (by decide +kernel)⟩,
    ⟨.inr (.inl ⟨by decide +kernel, by decide +kernel, by decide +kernel, rfl⟩), by unfold Counts; decide, .inr ⟨rfl, by decide +kernel⟩⟩,
    ⟨.inr (.inr ⟨by decide +kernel, by decide +kernel, rfl, rfl⟩), rfl, by unfold Counts; decide, .inr ⟨rfl, by decide +kernel⟩⟩,
    res_of rfl rfl (by decide +kernel) rfl rfl rfl, by unfold Counts; decide⟩

/-- BAR.wait that passes and that waits; BAR.sync; both in overrun. -/
theorem witness_BarrierInstructionsWait :
    (Resident (sX tm {}) tm (bX {}) cx ndK ∧ tm.wait = .none ∧ (barOf (sX tm {}) (.block 1 15)).overrun = false ∧
      Passed tm 15 (barOf (sX tm {}) (.block 1 15)) ∧ 0 ≤ barBytes (.block 1 15) (barOf (sX tm {}) (.block 1 15))) ∧
    (Resident (sX { tm with counted := [(15, 0)] } {}) { tm with counted := [(15, 0)] } (bX {}) cx ndK ∧
      ¬Passed { tm with counted := [(15, 0)] } 15 (barOf (sX { tm with counted := [(15, 0)] } {}) (.block 1 15))) ∧
    (Trappable (sX tm { overrun := true }) tm 0x1100 ∧ (barOf (sX tm { overrun := true }) (.block 1 15)).overrun = true) := by
  refine ⟨⟨res_of rfl rfl (by decide +kernel) rfl rfl rfl, rfl, rfl, by intro p h; simp [tm, tget] at h, by decide +kernel⟩,
    ⟨res_of rfl rfl (by decide +kernel) rfl rfl rfl, fun h => absurd (h 0 rfl) (by decide +kernel)⟩,
    trap_of rfl rfl (by decide +kernel) rfl rfl rfl rfl rfl rfl (by decide +kernel), rfl⟩

/-- BAR.exp of the most bytes, in the present and in the next phase; too many at once and in sum; BAR.test both ways. -/
theorem witness_BarrierBytesTestAndFaults :
    (let t := { tm with k := [(2, 0x7FFF0000)] }
     let o : A64 := ⟨0xFF, 0xFF, false, 0, 15, 0, 2, 0, 0⟩
     Resident (sX t {}) t (bX {}) cx ndK ∧ Names t (bX {}) ndK 15 (.block 1 15) ∧ Uniforms t [] [(sub o.va 0 6, 1)] ∧
     (kget t (sub o.va 0 6)).toNat + o.pb.toNat * 256 + o.pa.toNat = 2 ^ 31 - 1 ∧
     (barOf (sX t {}) (.block 1 15)).c0 + ((2 ^ 31 - 1 : Nat) : Int) < 2 ^ 31) ∧
    (let t := { tm with k := [(2, 0x80000000)] }
     Trappable (sX t {}) t 0x1100 ∧ 2 ^ 31 ≤ (kget t 2).toNat) ∧
    (let t := { tm with k := [(2, 0x7FFFFFFF)] }
     Trappable (sX t { c0 := 1 }) t 0x1100 ∧
     2 ^ 31 ≤ (barOf (sX t { c0 := 1 }) (.block 1 15)).c0 + (((kget t 2).toNat : Nat) : Int)) ∧
    (let t := { tm with counted := [(15, 0)] }
     Resident (sX t {}) t (bX {}) cx ndK ∧ ¬Passed t 15 (barOf (sX t {}) (.block 1 15))) ∧
    (Trappable (sX tm {}) tm 0x1100 ∧ tget (bX {}).barMask 14 = none) ∧ (Trappable s0 tm 0x1100 ∧ nd.desc.cluster = 0 ∧ nd.desc.coop = false) ∧
    (let t := { tm with num := 1 }
     Trappable (sX t {}) t 0x1100 ∧ tget (bX {}).barMask 15 = some 1 ∧ Nat.testBit 1 t.num = false) := by
  refine ⟨⟨res_of rfl rfl (by decide +kernel) rfl rfl rfl, .inl ⟨by decide +kernel, ⟨1, rfl, by decide +kernel⟩, rfl⟩, unis rfl (by decide +kernel), by decide +kernel, by decide +kernel⟩,
    ⟨trap_of rfl rfl (by decide +kernel) rfl rfl rfl rfl rfl rfl (by decide +kernel), by decide +kernel⟩,
    ⟨trap_of rfl rfl (by decide +kernel) rfl rfl rfl rfl rfl rfl (by decide +kernel), by decide +kernel⟩,
    ⟨res_of rfl rfl (by decide +kernel) rfl rfl rfl, fun h => absurd (h 0 rfl) (by decide +kernel)⟩,
    ⟨trap_of rfl rfl (by decide +kernel) rfl rfl rfl rfl rfl rfl (by decide +kernel), rfl⟩, ⟨trap0, rfl, rfl⟩,
    trap_of rfl rfl (by decide +kernel) rfl rfl rfl rfl rfl rfl (by decide +kernel), rfl, by decide +kernel⟩

/-- TAG.wait on tag 63 and on an empty mask; TAG.wait.any; one that blocks; one that is neither ready nor pending. -/
def oT (m : BitVec 6) (lo : BitVec 32) : I64 := ⟨lo, false, 0, 2, 6, m⟩
def tmT : Team := { tm with k := [(3, 0x80000000)] }
def bT (x : Tag) : Block := { bl with tags := [(63, x)] }
theorem maskT {lo : BitVec 32} {i : Nat} : maskHas tmT (oT 0 lo) i ↔ i < 64 ∧ (0x8000000000000000#64 ||| lo.setWidth 64).getLsbD i = true := by
  have h : kgetD tmT (sub (oT 0 lo).va 0 6) = 0x8000000000000000#64 := by
    show kgetD tmT (sub (2 : BitVec 7) 0 6) = _
    decide
  unfold maskHas; rw [h]; rfl
theorem tag63 {i : Nat} (h : maskHas tmT (oT 0 0) i) : i = 63 := by
  have h1 := maskT.mp h
  have h2 : ∀ j, j < 64 → (0x8000000000000000#64 ||| (0#32).setWidth 64).getLsbD j = true → j = 63 := by decide +kernel
  exact h2 i h1.1 h1.2
theorem has63 : maskHas tmT (oT 0 0) 63 := by unfold maskHas; decide
theorem witness_TagsAndTimelinesTags :
    (Resident (st tmT (bT {}) cx nd) tmT (bT {}) cx nd ∧ Uniforms tmT [] [(sub (oT 0 0).va 0 6, 2)] ∧ (oT 0 0).m.getLsbD 3 = false ∧
      (∀ i, maskHas tmT (oT 0 0) i → (tag (bT {}) i).ready = true ∧ (tag (bT {}) i).err = false) ∧
      ∃ i, maskHas tmT (oT 0 0) i ∧ (tag (bT {}) i).ready = true) ∧
    (oT 8 0).m.getLsbD 3 = true ∧
    (let b := bT { ready := false, count := 15 }
     Resident (st tmT b cx nd) tmT b cx nd ∧ (∃ i, maskHas tmT (oT 0 0) i ∧ (tag b i).ready = false) ∧
     ∀ i, maskHas tmT (oT 0 0) i → (tag b i).ready = true ∨ (tag b i).count ≠ 0) ∧
    (let b := bT { ready := false }
     Trappable (st tmT b cx nd) tmT 0x1100 ∧ ∃ i, maskHas tmT (oT 0 0) i ∧ (tag b i).ready = false ∧ (tag b i).count = 0) := by
  refine ⟨⟨res_of rfl rfl (by decide +kernel) rfl rfl rfl, unis rfl (by decide +kernel), by decide +kernel, fun i h => ?_, 63, has63, rfl⟩, by decide +kernel,
    ⟨res_of rfl rfl (by decide +kernel) rfl rfl rfl, ⟨63, has63, rfl⟩, fun i h => ?_⟩,
    trap_of rfl rfl (by decide +kernel) rfl rfl rfl rfl rfl rfl (by decide +kernel), 63, has63, rfl, rfl⟩
  · rw [tag63 h]; exact ⟨rfl, rfl⟩
  · rw [tag63 h]; exact .inr (by decide +kernel)

/-- TL.wait of the coll timeline at its counter, at the last number issued, and one past it. -/
def cxT : Ctx := { cx with coll := { issued := 9, count := 4 } }
def oL (k : BitVec 32) : I64 := ⟨k, false, 0, 0, 62, 0x18⟩
theorem witness_TagsAndTimelinesTimelines :
    Resident (st tm bl cxT nd) tm bl cxT nd ∧ sub (oL 4).m 3 3 = 3 ∧ Uniforms tm [] [(sub (oL 4).va 0 6, 2)] ∧
    (kgetD tm (sub (oL 4).va 0 6) + (oL 4).imm.signExtend 64).toNat = (timeline bl cxT 3).count ∧
    4 ≤ (timeline bl cxT 3).issued ∧ (∀ f ∈ (timeline bl cxT 3).failed, 4 < f) ∧
    ((timeline bl cxT 3).count < 9 ∧ 9 ≤ (timeline bl cxT 3).issued) ∧
    (Trappable (st tm bl cxT nd) tm 0x1100 ∧ (timeline bl cxT 3).issued < 10) ∧ sub (62 : BitVec 7) 0 6 % 2 = 0 := by
  refine ⟨res_of rfl rfl (by decide +kernel) rfl rfl rfl, ?_, unis0 (by decide +kernel), ?_, ?_, ?_, ?_,
    ⟨trap_of rfl rfl (by decide +kernel) rfl rfl rfl rfl rfl rfl (by decide +kernel), ?_⟩, ?_⟩ <;> decide +kernel

/-- A record of one row of 16 bytes (format 2, bf16) at the end of the scratchpad. -/
def rec16 : TileRec :=
  { base := 0x20000000000003F0, rows := 1, cols := 8, pitch := 16, format := 2, swizzle := 0, fillMode := 0, vrows := 1, vcols := 8,
    fillValue := 0 }
theorem use16 : Usable rec16 := by constructor <;> decide +kernel
/-- The 32 bytes of that record (R215). -/
def bytes16 : List Byte := natBytes 8 0x20000000000003F0 ++ natBytes 2 1 ++ natBytes 2 8 ++ natBytes 4 16 ++ natBytes 1 2 ++ natBytes 1 0 ++
  natBytes 2 1 ++ natBytes 2 8 ++ natBytes 2 0 ++ natBytes 4 0 ++ natBytes 4 0
theorem of16 : RecordOf bytes16 rec16 :=
  by constructor <;> decide +kernel
/-- k2.d names offset 0x3E0 of the scratchpad, where the record lies. -/
def tmX : Team := { tm with k := [(2, 0x3E0), (3, 0x20000000)], x := [(1, rec16), (2, rec16)] }
def oX (x1 x2 : BitVec 4) (m : BitVec 8) : E64 := ⟨0, 0, 0, 2, 0, 0, 0, 0, x2, x1, m⟩
def cellX (i : Nat) : Option (Nat × Byte) :=
  if bytes16.getD i 0 = 0 then none else some (spadKey 1 (0x3E0 + i), bytes16.getD i 0)
def sX' : State := { st tmX bl cx nd with mem := { cells := (List.range 32).filterMap cellX } }
theorem witness_TileRegisters :
    (Resident sX' tmX bl cx nd ∧ Uniforms tmX [] [(2, 2)] ∧ OwnBytes bl (kgetD tmX 2) 32 ∧ RecordOf bytes16 rec16 ∧ Usable rec16 ∧
      tget cx.records (ownKey tmX (kgetD tmX 2)) = none ∧ tget sX'.errors (ownKey tmX (kgetD tmX 2) / 64) = none ∧
      bytes16 = readBytes sX'.mem (ownKey tmX (kgetD tmX 2)) 32) ∧
    tget { cx with records := [(ownKey tmX (kgetD tmX 2), bytes16)] }.records (ownKey tmX (kgetD tmX 2)) = some bytes16 ∧
    (HoldsTile tmX 2 rec16 ∧ Advanced rec16.base.toNat (-16) (rec16.base.toNat - 16) ∧
      Usable { rec16 with base := BitVec.ofNat 64 (rec16.base.toNat - 16) } ∧ Advanced rec16.base.toNat 8 (rec16.base.toNat + 8) ∧
      ¬Usable { rec16 with base := BitVec.ofNat 64 (rec16.base.toNat + 8) }) ∧
    (Instr.legal (.xset (oX 1 0 0x28)) = true ∧ Uniforms tmX [] [(2, 1)] ∧ HoldsTile tmX 1 rec16 ∧ FieldSet rec16 { rec16 with vrows := 0, vcols := 8 } 10 0x80000 ∧
      Usable { rec16 with vrows := 0, vcols := 8 } ∧ FieldSet rec16 { rec16 with vrows := 2, vcols := 8 } 10 0x80002 ∧
      ¬Usable { rec16 with vrows := 2, vcols := 8 }) ∧
    (Instr.legal (.xqry (oX 1 0 0x30)) = true ∧ sub (oX 1 0 0x30).m 2 6 = 12) ∧ sub (oX 0 0 0x2C).m 2 6 = 11 ∧ sub (oX 0 0 0x40).m 2 6 = 16 ∧
    (Trappable sX' tmX 0x1100 ∧ tget tmX.x 15 = none) ∧
    (Trappable (st { tmX with badX := [2] } bl cx nd) { tmX with badX := [2] } 0x1100 ∧ Uniforms { tmX with badX := [2] } [] [(2, 2)] ∧
      (tget { tmX with badX := [2] }.x 2).isSome = true ∧ 2 ∈ { tmX with badX := [2] }.badX) := by
  have adv : ∀ q d, Advanced rec16.base.toNat d q ↔ q / 2 ^ 60 = rec16.base.toNat / 2 ^ 60 ∧ ∃ k : Int, (q : Int) = rec16.base.toNat + d + k * 2 ^ 60 := by
    intro q d
    have h : ¬(2 ^ 63 ≤ rec16.base.toNat) := by decide +kernel
    simp only [Advanced, if_neg h]
  refine ⟨⟨res_of rfl rfl (by decide +kernel) rfl rfl rfl, unis rfl (by decide +kernel), (by constructor <;> decide +kernel), of16, use16, rfl, rfl,
    by decide +kernel⟩, by simp [tget], ⟨⟨rfl, by decide +kernel⟩, (adv _ _).mpr ⟨by decide +kernel, 0, by decide +kernel⟩, ?_, (adv _ _).mpr ⟨by decide +kernel, 0, by decide +kernel⟩, ?_⟩,
    ⟨by decide +kernel, unis rfl (by decide +kernel), ⟨rfl, by decide +kernel⟩, by unfold FieldSet; decide, ?_, by unfold FieldSet; decide, ?_⟩, ⟨by decide +kernel, by decide +kernel⟩, by decide +kernel, by decide +kernel,
    ⟨trap_of rfl rfl (by decide +kernel) rfl rfl rfl rfl rfl rfl (by decide +kernel), rfl⟩,
    trap_of rfl rfl (by decide +kernel) rfl rfl rfl rfl rfl rfl (by decide +kernel), unis rfl (by decide +kernel), rfl, by decide +kernel⟩
  · constructor <;> decide +kernel
  · exact fun h => absurd h.aligned (by decide +kernel)
  · constructor <;> decide +kernel
  · exact fun h => absurd h.rows (by decide +kernel)

/-- CPY and GATH with a tag that has 14 operations pending and barrier 15; two formats; a tag with 15 pending. -/
def bE (n : Nat) : Block := { bX {} with tags := [(63, { count := n, ready := false })] }
def tmE : Team := { tmX with k := [(2, 0x3E0), (3, 0x20000000), (4, 0x3FC), (5, 15)] }
def oE : E64 := ⟨12, 63, 5, 4, 0, 0, 0, 0, 2, 1, 0⟩
theorem witness_EngineIssue :
    engForm (.gath oE) = some (.gath, oE) ∧ engForm (.cpy oE) = some (.cpy, oE) ∧
    (Resident (st tmE (bE 14) cx nd) tmE (bE 14) cx nd ∧ (bE 14).provisional = false ∧ Uniforms tmE [] [(4, 1), (5, 1)] ∧
      HoldsTile tmE oE.x1.toNat rec16 ∧ HoldsTile tmE oE.x2.toNat rec16 ∧ FitsOwn (bE 14) rec16 ∧ (kget tmE oE.kp.toNat).toNat % 4 = 0 ∧
      (kget tmE oE.kp.toNat).toNat + 4 * rowsOf .gath rec16 rec16 ≤ (bE 14).spad ∧ TagFree (bE 14) oE ∧ BarReady tmE (bE 14) nd oE ∧
      (queueOf (bE 14) true).length < 32) ∧
    (Trappable (st { tmE with x := [(1, rec16), (2, { rec16 with format := 3 })] } (bE 14) cx nd)
      { tmE with x := [(1, rec16), (2, { rec16 with format := 3 })] } 0x1100 ∧ rec16.format ≠ 3) ∧
    (Trappable (st tmE (bE 15) cx nd) tmE 0x1100 ∧ oE.fl.getLsbD 3 = true ∧ 15 ≤ (tag (bE 15) oE.tb.toNat).count) := by
  refine ⟨rfl, rfl, ⟨res_of rfl rfl (by decide +kernel) rfl rfl rfl, rfl, unis rfl (by decide +kernel), ⟨rfl, by decide +kernel⟩,
    ⟨rfl, by decide +kernel⟩, by unfold FitsOwn; decide, by decide +kernel, by decide +kernel,
    by unfold TagFree; decide, by unfold BarReady; decide, by decide +kernel⟩,
    ⟨trap_of rfl rfl (by decide +kernel) rfl rfl rfl rfl rfl rfl (by decide +kernel), by decide +kernel⟩,
    trap_of rfl rfl (by decide +kernel) rfl rfl rfl rfl rfl rfl (by decide +kernel), by decide +kernel, by decide +kernel⟩

/-- A GATH of one row before its start, at its row, with a chunk to land, and done. -/
def opG : EngOp := { num := 1, team := 5, kind := .gath, dst := rec16, src := rec16, index := 0x3EC, tag := some 63, credit := none }
def opR : EngOp := { opG with started := true, idx := [0], total := 16 }
def chunk0 : Chunk := { cells := [(spadKey 1 0x3F0, 7, 255), (spadKey 1 0x3F1, 1, 15)] }
def bQ (x : EngOp) : Block := { bl with gathQ := [x], gath := { issued := 1 }, tags := [(63, { count := 1, ready := false })] }
def rQ : EngRef := ⟨1, true, 1⟩
theorem workQ (x : EngOp) (h : x.num = 1) (ht : x.team = 5) : Working (st tm (bQ x) cx nd) rQ x tm (bQ x) cx nd where
  queued := by simp [queueOf, rQ, bQ, h]
  team := by rw [ht]; rfl
  home := rfl
  block := rfl
  ctx := rfl
  node := rfl
  placed := rfl
theorem witness_EngineOperations :
    (Working (st tm (bQ opG) cx nd) rQ opG tm (bQ opG) cx nd ∧ opG.started = false ∧
      ∀ i, opG.kind ≠ .cpy → i < rowsOf opG.kind opG.dst opG.src →
        tget (st tm (bQ opG) cx nd).errors ((spadKey rQ.block opG.index + 4 * i) / 64) = none) ∧
    (Working (st tm (bQ opR) cx nd) rQ opR tm (bQ opR) cx nd ∧ opR.started = true ∧ opR.stalled = false ∧ opR.row < rowsOf opR.kind opR.dst opR.src ∧
      ∃ s1 cs, engRow (st tm (bQ opR) cx nd) ⟨tm, bQ opR, cx, nd⟩ opR = .ok s1 cs) ∧
    (let x := { opR with row := 1, landing := [chunk0] }
     Working (st tm (bQ x) cx nd) rQ x tm (bQ x) cx nd ∧ x.landing = chunk0 :: [] ∧ 2 ≤ chunk0.cells.length ∧ x.credit = none ∧
     (∀ y ∈ chunk0.cells, ∀ z ∈ chunk0.cells, y.1 = z.1 → y = z) ∧ ∀ y ∈ chunk0.cells, OwnLine (st tm (bQ x) cx nd) y.1) ∧
    (let x := { opR with row := 1 }
     Working (st tm (bQ x) cx nd) rQ x tm (bQ x) cx nd ∧ x.started = true ∧ rowsOf x.kind x.dst x.src ≤ x.row ∧ x.landing = [] ∧
     x.set = none ∧ x.num = (engLine (bQ x) true).count + 1 ∧ (engLine (bQ x) true).ahead = []) := by
  refine ⟨⟨workQ _ rfl rfl, rfl, fun _ _ _ => rfl⟩, ⟨workQ _ rfl rfl, rfl, rfl, by decide +kernel, _, _, rfl⟩,
    ⟨workQ _ rfl rfl, rfl, by decide +kernel, rfl, by decide +kernel, fun y hy => ?_⟩, workQ _ rfl rfl, rfl, by decide +kernel, rfl, rfl, rfl, rfl⟩
  simp [chunk0] at hy
  rcases hy with rfl | rfl <;> exact .inr (.inl (by decide +kernel))

/-- Object 9 of site 0: live, at home there, 4,096 of 4 MiB bytes, retractable. -/
def regO : RegEntry := { state := .live, site := 0 }
def objO : ObjEntry := { state := .home, size := 4096, cap := 4194304, retract := true, key := 1 }
def siteO (e : RegEntry) (h : ObjEntry) : Site := { registry := [(9, e)], objects := [(9, h)], unused := 10 }
/-- k2.d is its pointer, k4.d a size. -/
def tmO (size : Word) : Team := { tm with k := if size = 0 then [(3, 0x80000024)] else [(3, 0x80000024), (4, size)] }
def sO (t : Team) (e : RegEntry) (h : ObjEntry) (x : Site) : State := { st t bl cx nd with sites := [(0, siteO e h), (1, x)] }
def pO : Dbl := 0x8000002400000000

theorem onObj {t : Team} {e h x} (h1 : t.ended = false) (h2 : t.mask ≠ 0) (hb : t.block = 1) :
    OnObject (sO t e h x) t bl cx nd pO 9 e where
  resident := res_of rfl h1 h2 (by rw [hb]; rfl) rfl rfl
  object := by decide +kernel
  goid := by decide +kernel
  pod := by show 9 / 2 ^ 19 < 2 * 512; decide
  entry := rfl
  reach := .inl (by decide +kernel)
theorem homeO {t : Team} {e h x} (h1 : e.state = .live) (h2 : e.site = 0) (h3 : h.state = .home) : AtHome (sO t e h x) 9 e h where
  live := h1
  entry := by rw [h2]; rfl
  home := h3
  still := by simp [sO, st]

theorem witness_ObjectQueryAndPlacementQuery : Instr.legal (.oqry ⟨0, false, 0, 2, 62, 0⟩) = true ∧
    pO = kgetD (tmO 0) (kaI ⟨0, false, 0, 2, 62, 0⟩) ∧
    Uniforms (tmO 0) [(kdI ⟨0, false, 0, 2, 62, 0⟩, 2)] [(kaI ⟨0, false, 0, 2, 62, 0⟩, 2)] ∧
    OnObject (sO (tmO 0) regO objO {}) (tmO 0) bl cx nd pO 9 regO ∧ regO.state = .live ∧
    objEntry (sO (tmO 0) regO objO {}) regO.site 9 = some objO ∧
    OnObject (sO (tmO 0) { regO with state := .moving, group := some 4095 } objO {}) (tmO 0) bl cx nd pO 9
      { regO with state := .moving, group := some 4095 } :=
  ⟨by decide +kernel, by decide +kernel, unis rfl (by decide +kernel), onObj rfl (by show tm.mask ≠ 0; decide) rfl, rfl, rfl,
    onObj rfl (by show tm.mask ≠ 0; decide) rfl⟩

/-- OALLOC of the largest size in the last room of the site; at the last serial; without a frame; without a serial; a size of 0. -/
def oA : I64 := ⟨1024, false, 0, 4, 2, 0⟩
def tmA (hi : Word) : Team := { tm with k := if hi = 0 then [] else [(5, hi)] }
def sA (hi : Word) (x : Site) : State := { st (tmA hi) bl cx nd with sites := [(0, x)] }
def last : Site := { unused := 524287, frames1 := 8192 }
theorem witness_ObjectAllocation :
    (Resident (sA 4 last) (tmA 4) bl cx nd ∧ bl.provisional = false ∧ Uniforms (tmA 4) [(kdI oA, 2)] [(kaI oA, 4)] ∧
      (kgetD (tmA 4) (kaI oA)).toNat = 2 ^ 34 ∧ oA.imm.getLsbD 11 = false ∧ oA.imm.getLsbD 12 = false ∧ oA.imm.getLsbD 13 = false ∧
      oA.imm.getLsbD 10 = true ∧ 2 * cx.dev + cx.die < 2 * (sA 4 last).fabric.devices ∧ Reach (sA 4 last) cx (0 / 2) ∧
      ((siteOf (sA 4 last) 0).freed = [] ∧ 524287 = (siteOf (sA 4 last) 0).unused ∧ 524287 < 2 ^ 19) ∧
      frameCount (2 ^ 34) ≤ spare (sA 4 last) 0 false ∧ tableUse (sA 4 last) 0 < 524288) ∧
    spare (sA 4 { last with retired1 := [8191] }) 0 false < frameCount (2 ^ 34) ∧
    ((siteOf (sA 4 { last with unused := 524288 }) 0).freed = [] ∧ 524288 ≤ (siteOf (sA 4 { last with unused := 524288 }) 0).unused) ∧
    (Trappable (sA 0 {}) (tmA 0) 0x1100 ∧ (kgetD (tmA 0) (kaI oA)).toNat = 0) := by
  refine ⟨⟨res_of rfl rfl (by decide +kernel) rfl rfl rfl, rfl, unis rfl (by decide +kernel), ?_, ?_, ?_, ?_, ?_, ?_,
    .inl (by decide +kernel), ?_, ?_, ?_⟩, ?_, ?_,
    trap_of rfl rfl (by decide +kernel) rfl rfl rfl rfl rfl rfl (by decide +kernel), ?_⟩ <;> decide +kernel

/-- The object of these tests with nothing outstanding and with a store on its way; OEXT to the cap, to its size, without room, beyond
the cap; OTRIM to 0. -/
theorem witness_ObjectChanges :
    (let o : I64 := ⟨0, false, 0, 4, 1, 0⟩
     let t (size : Word) : Team := { tm with k := if size = 0 then [(5, 0x80000024)] else [(5, 0x80000024), (6, size)] }
     let S (size : Word) := sO (t size) regO objO {}
     (pO = kgetD (t 0) (kaI o) ∧ Uniforms (t 0) [] [(kaI o, 2)] ∧ Uniforms (t 0) [(kdI o, 1)] [(kaI o, 4)] ∧ OnObject (S 0) (t 0) bl cx nd pO 9 regO ∧ AtHome (S 0) 9 regO objO ∧
       bl.provisional = false ∧ cx.out = 0 ∧ (∀ x ∈ cx.parked, x.count = 0) ∧ objO.twin = false ∧ objO.retract = true ∧ (kgetD (t 0) (kaI o + 2)).toNat = 0 ∧ 0 < objO.size ∧ objO.size ≤ objO.cap) ∧
     (OnObject (S 0x400000) (t 0x400000) bl cx nd pO 9 regO ∧ (kgetD (t 0x400000) (kaI o + 2)).toNat = objO.cap ∧
       frameCount objO.cap - frameCount objO.size ≤ spare (S 0x400000) 0 false) ∧
     (OnObject (S 4096) (t 4096) bl cx nd pO 9 regO ∧ (kgetD (t 4096) (kaI o + 2)).toNat = objO.size) ∧
     (Trappable (S 0x400001) (t 0x400001) 0x1100 ∧ objO.cap < (kgetD (t 0x400001) (kaI o + 2)).toNat)) := by
  refine ⟨⟨by decide +kernel, unis rfl (by decide +kernel), unis rfl (by decide +kernel), onObj rfl (by show tm.mask ≠ 0; decide) rfl,
    homeO rfl rfl rfl, rfl, rfl, by decide +kernel, rfl, rfl, by decide +kernel, by decide +kernel, by decide +kernel⟩, ⟨onObj rfl (by show tm.mask ≠ 0; decide) rfl, by decide +kernel, ?_⟩, ⟨onObj rfl (by show tm.mask ≠ 0; decide) rfl, by decide +kernel⟩,
    trap_of rfl rfl (by show tm.mask ≠ 0; decide) rfl rfl rfl rfl rfl rfl (by decide +kernel), by decide +kernel⟩
  show frameCount 4194304 - frameCount 4096 ≤ spare { st _ bl cx nd with sites := [(0, siteO regO objO), (1, {})] } 0 false
  decide

/-- OHINT to the last site of the pod, of a pinned object and of one that moves; OGRP out of the groups, into the last group, into
one that stands, while the object moves, and of a pinned object into a group homed elsewhere. -/
def mvG : Move := { goid := 9, src := 0, dst := 1, tier2 := false, frames := 1 }
theorem witness_ObjectQueryAndPlacement :
    (pO = kgetD (tmO 0) (kaI ⟨1023, false, 0, 2, 62, 0⟩) ∧
      Uniforms (tmO 0) [(kdI ⟨1023, false, 0, 2, 62, 0⟩, 2)] [(kaI ⟨1023, false, 0, 2, 62, 0⟩, 2)] ∧
      OnObject (sO (tmO 0) regO objO {}) (tmO 0) bl cx nd pO 9 regO ∧ AtHome (sO (tmO 0) regO objO {}) 9 regO objO ∧
      sub (1023 : BitVec 32) 0 10 = 1023 ∧ Movable (sO (tmO 0) regO objO {}) 9 regO objO 1023) ∧
    (OnObject (sO (tmO 0) { regO with pinned := true } objO {}) (tmO 0) bl cx nd pO 9 { regO with pinned := true } ∧
      AtHome (sO (tmO 0) { regO with pinned := true } objO {}) 9 { regO with pinned := true } objO ∧ regO.group = none) ∧
    OnObject (sO (tmO 0) { regO with state := .moving } objO {}) (tmO 0) bl cx nd pO 9 { regO with state := .moving } ∧
    (bl.provisional = false ∧ (0x80000000 : BitVec 32).getLsbD 31 = true ∧ (sO (tmO 0) regO objO {}).moves = []) ∧
    ((0xFFF : BitVec 32).getLsbD 31 = false ∧ sub (0xFFF : BitVec 32) 0 12 = 4095 ∧ Reach (sO (tmO 0) regO objO {}) cx (4095 % 1024 / 2) ∧
      groupRecord (sO (tmO 0) regO objO {}) 4095 = none) ∧
    (Reach (sO (tmO 0) regO objO { groups := [(1, ⟨0, [12]⟩)] }) cx (1 % 1024 / 2) ∧
      groupRecord (sO (tmO 0) regO objO { groups := [(1, ⟨0, [12]⟩)] }) 1 = some ⟨0, [12]⟩) ∧
    (∃ x ∈ ({ sO (tmO 0) regO objO {} with moves := [(8, mvG)] } : State).moves, Moves x.2 9) ∧
    (Trappable (sO (tmO 0) { regO with pinned := true } objO { groups := [(1, ⟨1, [12]⟩)] }) (tmO 0) 0x1100 ∧
      groupRecord (sO (tmO 0) { regO with pinned := true } objO { groups := [(1, ⟨1, [12]⟩)] }) 1 = some ⟨1, [12]⟩ ∧ (1 : Nat) ≠ regO.site) := by
  have on : ∀ e, OnObject (sO (tmO 0) e objO {}) (tmO 0) bl cx nd pO 9 e := fun e => onObj rfl (by show tm.mask ≠ 0; decide) rfl
  refine ⟨⟨by decide +kernel, unis rfl (by decide +kernel), on _, homeO rfl rfl rfl, by decide +kernel, homeO rfl rfl rfl, ⟨rfl, rfl⟩, rfl,
      ⟨by decide +kernel, by show 1023 < 2 * 512; decide⟩, by decide +kernel, by decide +kernel⟩,
    ⟨on _, homeO rfl rfl rfl, rfl⟩, on _, ⟨rfl, by decide +kernel, rfl⟩, ⟨by decide +kernel, by decide +kernel, ?_, rfl⟩,
    ⟨.inl (by decide +kernel), rfl⟩, ⟨_, List.mem_cons_self, .inl rfl⟩,
    trap_of rfl rfl (by show tm.mask ≠ 0; decide) rfl rfl rfl rfl rfl rfl (by decide +kernel), rfl, by decide +kernel⟩
  exact .inr ⟨by decide +kernel, by show 511 < 512; decide, 0, by decide +kernel, List.not_mem_nil⟩

/-- A request of lane 31 for the last eight bytes of the object, at its home. -/
def itQ : Item := { lane := some 31, ptr := pO + 4088, runs := [((pO + 4088).toNat, 8)], data := 2 ^ 64 - 1, compare := 2 ^ 64 - 1 }
def rqQ : Req := { team := 5, ctx := 2, from_ := 0, kind := .store, size := 8, dest := 126, items := [itQ], site := 0, phase := .toSite }
def sQ (q : Req) (h : ObjEntry) : State := { sO tm regO h {} with reqs := [(7, q)] }

theorem legQ (q : Req) (h : ObjEntry) (hl : q.lost = false) : FirstInLine (sQ q h) 7 q where
  first x hx hlt := by simp [sQ] at hx; subst hx; simp at hlt
  there := .inl ⟨by show _ ∉ []; simp, hl⟩

theorem flitQ (q : Req) (h : ObjEntry) (to_ : Req → Nat) : FirstFlit (sQ q h) 7 q to_ :=
  .inr fun x hx _ _ _ _ => by simp [sQ] at hx; subst hx; exact .inr ⟨rfl, Nat.le_refl _⟩

theorem witness_RequestRoutesServe :
    (tget (sQ rqQ objO).reqs 7 = some rqQ ∧ FirstInLine (sQ rqQ objO) 7 rqQ ∧ FirstFlit (sQ rqQ objO) 7 rqQ (fun x => x.site / 2) ∧ rqQ.viaMove = false ∧ rqQ.applied = false ∧ rqQ.items = [itQ] ∧ 9 = sub itQ.ptr 34 29 ∧
      objEntry (sQ rqQ objO) 0 9 = some objO ∧ sub itQ.ptr 0 34 + rqQ.size ≤ objO.size ∧ itQ.runs = [(itQ.ptr.toNat, rqQ.size)]) ∧
    (itQ.data < 256 ^ 8 ∧ itQ.compare < 256 ^ 8 ∧ tget (sQ { rqQ with kind := .atom .cas } objO).errors (itQ.ptr.toNat / 64) = none) ∧
    objEntry (sQ rqQ { objO with state := .stub, dest := 1 }) 0 9 = some { objO with state := .stub, dest := 1 } ∧
    objEntry (sQ rqQ { objO with state := .collected }) 0 9 = some { objO with state := .collected } :=
  ⟨⟨rfl, legQ _ _ rfl, flitQ _ _ _, rfl, rfl, rfl, by decide +kernel, rfl, by decide +kernel, by decide +kernel⟩, ⟨by decide +kernel, by decide +kernel, rfl⟩, rfl, rfl⟩

/-- At a stub for the eighth and the ninth time, without its object, asked for again; at the registry, for a moving object; answered,
with another that waits; replied, with the lowest and the highest lane, of one word and of two. -/
theorem witness_RequestRoutes :
    (∀ hops, hops = 7 ∨ hops = 8 → let q := { rqQ with phase := .forwarding, hops := hops }
      FirstInLine (sQ q { objO with state := .stub, dest := 1 }) 7 q ∧ reqGoid q = 9 ∧ objEntry (sQ q { objO with state := .stub, dest := 1 }) q.site 9 = some { objO with state := .stub, dest := 1 }) ∧
    tget (sQ { rqQ with phase := .notHere } objO).reqs 7 = some { rqQ with phase := .notHere } ∧
    tget (sQ { rqQ with phase := .asked } objO).reqs 7 = some { rqQ with phase := .asked } ∧
    (let q := { rqQ with phase := .registry }
     let s := { sQ q objO with sites := [(0, siteO { regO with state := .moving } objO)] }
     tget s.reqs 7 = some q ∧ reg s 9 = some { regO with state := .moving } ∧ 9 / 2 ^ 19 < 2 * s.fabric.devices ∧ There s q ∧
      ∀ x ∈ s.reqs, x.2.phase = .answered → x.2.from_ = q.from_ → reqGoid x.2 ≠ reqGoid q) ∧
    (let q := { rqQ with phase := .answered, site := 1 }
     let s := { sQ q objO with reqs := [(7, q), (8, { rqQ with phase := .registry })] }
     tget s.reqs 7 = some q ∧ q.answers = [] ∧ q.site / 2 = q.from_ / 2 ∧ twf s.reqs = true) ∧
    (let q := { rqQ with phase := .replied, kind := .atom .add, answers := [⟨some 31, 2 ^ 64 - 1, 0⟩, ⟨some 0, 1, 0⟩] }
     tget (sQ q objO).teams q.team = some tm ∧ FirstFlit (sQ q objO) 7 q (fun x => x.from_ / 2) ∧ q.set = none ∧ tm.ended = false ∧ q.size = 4 * 2 ∧ (q.answers.map fun a => a.lane).Nodup ∧
      (∀ a ∈ q.answers, a.fault = 0 ∧ ∃ l, a.lane = some l) ∧ q.dest + 2 ≤ 128) := by
  refine ⟨fun hops h => by rcases h with rfl | rfl <;> exact ⟨legQ _ _ rfl, by decide +kernel, rfl⟩, rfl, rfl, ⟨rfl, rfl, by decide +kernel, .inl ⟨by show _ ∉ []; simp, rfl⟩, fun x hx => ?_⟩, ⟨rfl, rfl, by decide +kernel, by decide +kernel⟩,
    ⟨rfl, flitQ _ _ _, rfl, rfl, by decide +kernel, by decide +kernel, ?_, by decide +kernel⟩⟩
  · simp [sQ] at hx; subst hx; simp
  · intro a ha; simp at ha; rcases ha with rfl | rfl <;> exact ⟨rfl, _, rfl⟩

/-- A move of one frame and of two. -/
def mvO : Move := { goid := 9, src := 0, dst := 1, tier2 := false, frame := 0, frames := 1 }

theorem witness_MovesWindowsPurgesMoves :
    (Movable (sO tm regO { objO with lastLocal := 4, lastSketch := [(1, 4)] } {}) 9 regO { objO with lastLocal := 4, lastSketch := [(1, 4)] }
        1 ∧ 4 ≤ (([(1, 4)].filter fun x : Nat × Nat => decide (x.1 = 1)).map (·.2)).sum) ∧
    (tget ({ sO tm regO objO {} with moves := [(3, { mvO with frames := 2 })] } : State).moves 3 = some { mvO with frames := 2 } ∧
      mvO.queue = [] ∧ mvO.frame + 1 < 2) ∧
    (let s : State := { sO tm { regO with state := .moving } { objO with state := .movingOut, moves := 65535 } {} with moves := [(3, mvO)] }
     tget s.moves 3 = some mvO ∧ mvO.frame + 1 = mvO.frames ∧ mvO.rest = [] ∧ mvO.group = none ∧ mvO.src ≠ mvO.dst ∧ mvO.asked = [] ∧
      reg s 9 = some { regO with state := .moving } ∧ objEntry s 0 9 = some { objO with state := .movingOut, moves := 65535 }) :=
  ⟨⟨⟨homeO rfl rfl rfl, ⟨rfl, rfl⟩, rfl, by decide +kernel, by decide +kernel, by decide +kernel, by decide +kernel⟩, by decide +kernel⟩, ⟨rfl, rfl, by decide +kernel⟩,
    ⟨rfl, rfl, rfl, rfl, by decide +kernel, rfl, rfl, rfl⟩⟩

/-- The first window ends at step 2^20 with a stub of this window, one that forwarded, one that stays, one that goes, a home and a dead
object; a purge of one serial, acknowledged by the first and by the last die of a pod of one device. -/
def siteW : Site :=
  { objects := [(1, { state := .stub, born := 0 }), (2, { state := .stub, born := 5, forwarded := 1 }), (3, { state := .stub, born := 5, quiet := 2 }),
      (4, { state := .stub, born := 5, quiet := 3 }), (5, objO), (6, { state := .dead })]
    osite := 0x443E }
def sW : State := { mem := {}, now := 1048576, sites := [(0, siteW)] }
def sP (acks : List Nat) : State :=
  { mem := {}, fabric := { devices := 1 }, sites := [(0, { registry := [(9, { regO with state := .dead })], purging := [9], purgeAcks := acks })] }
theorem witness_MovesWindowsPurges :
    (siteOf sW 0 = siteW ∧ (siteW.window + 1) * 1048576 ≤ clock sW (0 / 2) ∧ siteW.osite.getLsbD 0 = false ∧ twf siteW.objects = true ∧
      siteW.flips = [] ∧ sub siteW.osite 12 4 = 4) ∧
    (let s : State := { mem := {}, sites := [(0, { registry := [(9, { regO with state := .dead })] })] }
     (siteOf s 0).purging = [] ∧ tget (siteOf s 0).registry 9 = some { regO with state := .dead }) ∧
    (∀ acks die, (acks = [] ∧ die = 0) ∨ (acks = [0] ∧ die = 1) → (siteOf (sP acks) 0).purging = [9] ∧ 9 < 524288 ∧
      die < 2 * (sP acks).fabric.devices ∧ die ∉ (siteOf (sP acks) 0).purgeAcks ∧
      tget (siteOf (sP acks) 0).registry 9 = some { regO with state := .dead }) := by
  refine ⟨⟨rfl, le_clock (s := sW) (dev := 0) rfl, by decide +kernel, by decide +kernel, rfl, by decide +kernel⟩, by decide +kernel, fun acks die h => ?_⟩
  rcases h with ⟨rfl, rfl⟩ | ⟨rfl, rfl⟩ <;> decide

/-! Matrix operands: shape 23 (32 × 32, K 32 in bf16), A in bf16 and B in the first c format, with codebook 7 (bits 7:4 of k4). -/
def rA : TileRec :=
  { base := 0x2000000000000000, rows := 32, cols := 32, pitch := 64, format := 2, swizzle := 0, fillMode := 0, vrows := 32, vcols := 32, fillValue := 0 }
def rB : TileRec := { rA with format := 0x1A, pitch := 16, base := 0x2000000000000600 }
def r32 : TileRec := { rA with format := 0, rows := 1, pitch := 128, base := 0x2000000000000780 }
def rQnt : TileRec := { rA with format := 0x13 }
def tmM (h : Nat) (k4 : Word) : Team :=
  { tm with k := [(4, k4), (5, 65535), (8, 15)], x := [(1, rA), (2, rB), (3, r32), (4, rQnt)], a := if h = 255 then [] else [(1, h)] }
def slotM : ISlot := ⟨.slot 7, .a40, 32, 32⟩
def planeM : Plane := { src := rB, n := 32, k := 32, fmt := 0x1A, book := 7 }
/-- Its block: one slot of a quota of two, room for one more operation. -/
def opM (kind : MatKind) (num : Nat) : MatOp := { num := num, team := 5, kind := kind, x1 := some rA, x2 := some rB, fa := 2, fb := 0x1A, m := 32, n := 32, k := 32 }
def bM : Block :=
  { bX {} with
    spad := 2048, quota := 2, islots := [slotM], iactive := some planeM, ishadow := some planeM, tags := [(63, { count := 14, ready := false })]
    matQ := List.replicate 7 (opM .mswp 1) }
def oM (x1 x2 : BitVec 4) (fl : BitVec 4) (m : BitVec 8) : E64 := ⟨fl, 63, 8, 4, 23, 0x1A, 2, 1, x2, x1, m⟩
def sM (t : Team) : State := st t bM cx nd
theorem gateM {h : Nat} {k4 : Word} (o : E64) (ws hs : List Nat) : MatGate (sM (tmM h k4)) (tmM h k4) bM cx nd o ws hs where
  resident := res_of rfl rfl (by show tm.mask ≠ 0; decide) rfl rfl rfl
  sound := unis rfl (by simp [Nat.mod_one])
  room := by decide +kernel
  known _ _ := ⟨by simp [tmM, tm], by simp [tmM, tm, tget]⟩
theorem holdsM {h : Nat} {k4 : Word} {n : Nat} {r : TileRec} (hr : tget [(1, rA), (2, rB), (3, r32), (4, rQnt)] n = some r) :
    HoldsTile (tmM h k4) n r := ⟨hr, by simp [tmM, tm]⟩
theorem namesM : NamesSlot bM 7 slotM := ⟨by decide +kernel, by decide +kernel⟩
theorem soundM (id : Nat) : SlotSound bM cx id := .inl fun q h => by simp [cx, tget] at h
theorem argA : TileArg bM rA 2 32 32 := by constructor <;> decide +kernel
theorem argB : TileArg bM rB 0x1A 32 32 := by constructor <;> decide +kernel

theorem witness_MatrixIssueProducts :
    (MatGate (sM (tmM 255 0x70)) (tmM 255 0x70) bM cx nd (oM 1 2 0 0) (wordsRead true false false) [] ∧ HoldsTile (tmM 255 0x70) 2 rB ∧
      shapeMN 23 = (32, 32) ∧ shapeK (rateClass 0x1A) 23 = some 32 ∧ TileArg bM rB 0x1A 32 32 ∧
      BookOk bM cx 0x1A ((kget (tmM 255 0x70) 4).toNat / 16 % 16)) ∧
    (MatGate (sM (tmM 255 0x70)) (tmM 255 0x70) bM cx nd (oM 1 2 3 0) (wordsRead true false true) [1] ∧ HoldsTile (tmM 255 0x70) 1 rA ∧
      shapeK (min (rateClass 2) (rateClass 0x1A)) 23 = some 32 ∧ TileArg bM rA 2 32 32 ∧ bM.iactive = some planeM ∧ planeM.fmt = 0x1A ∧
      planeM.n = 32 ∧ planeM.k = 32 ∧ DstReady bM cx true 255 (productKind 2 0x1A) 32 32 ∧ DstReady bM cx true 7 (productKind 2 0x1A) 32 32 ∧
      BookOk bM cx 2 ((kget (tmM 255 0x70) 4).toNat % 16)) ∧
    (MatGate (sM (tmM 7 0x70)) (tmM 7 0x70) bM cx nd (oM 1 2 7 0) (wordsRead true true true) [1] ∧ tgetD (tmM 7 0x70).a 1 255 = 7 ∧
      DstReady bM cx false 7 (productKind 2 0x1A) 32 32) ∧
    ((kget (tmM 7 0x70) 5).toNat < 65536 ∧ 0 < (kget (tmM 7 0x70) 5).toNat ∧ (kget (tmM 7 0x70) 6).toInt % 16 = 0 ∧
      (kget (tmM 7 0x70) 7).toInt % 16 = 0 ∧ InsideAt bM rA ((65535 - 1 : Nat) * (kget (tmM 7 0x70) 6).toInt) ∧
      InsideAt bM rB ((65535 - 1 : Nat) * (kget (tmM 7 0x70) 7).toInt) ∧
      ∃ p, bM.ishadow = some p ∧ p.fmt = 0x1A ∧ p.n = 32 ∧ p.k = 32) := by
  refine ⟨⟨gateM _ _ _, holdsM rfl, by decide +kernel, by decide +kernel, argB, fun _ => by decide +kernel⟩,
    ⟨gateM _ _ _, holdsM rfl, by decide +kernel, argA, rfl, rfl, rfl, rfl, by unfold DstReady; exact .inl (by decide +kernel),
      by unfold DstReady; exact .inr ⟨_, namesM⟩, fun h => absurd h (by decide +kernel)⟩,
    ⟨gateM _ _ _, rfl, ⟨soundM _, _, namesM, by decide +kernel, rfl, rfl⟩⟩, ?_⟩
  refine ⟨?_, ?_, ?_, ?_, ?_, ?_, _, rfl, rfl, rfl, rfl⟩
  all_goals first | decide +kernel | (unfold InsideAt; decide)

theorem witness_MatrixIssue :
    (MatGate (sM (tmM 255 0)) (tmM 255 0) bM cx nd (oM 0 0 1 0) [] [1] ∧ CanWrite bM 255 ∧ CanWrite bM 7 ∧ NamesSlot bM 7 slotM) ∧
    (MatGate (sM (tmM 7 0xFFE)) (tmM 7 0xFFE) bM cx nd (oM 4 0 0xF 0) (wordsRead true false false) [1] ∧
      tgetD (tmM 7 0xFFE).a 1 255 = 7 ∧ HoldsTile (tmM 7 0xFFE) 4 rQnt ∧ SlotSound bM cx 7 ∧
      TileArg bM rQnt 0x13 slotM.m slotM.n ∧ TagFree bM (oM 4 0 0xF 0) ∧ BarReady (tmM 7 0xFFE) bM nd (oM 4 0 0xF 0) ∧
      (isQ 0x13 = true → (kget (tmM 7 0xFFE) 4).toNat % 256 ≠ 0 ∧ (kget (tmM 7 0xFFE) 4).toNat % 256 ≠ 255 ∧
        (kget (tmM 7 0xFFE) 4).toNat / 256 % 16 ≠ 0)) ∧
    (1 = sub (0x10 : BitVec 8) 4 3 ∧ MatGate (sM (tmM 7 0)) (tmM 7 0) bM cx nd (oM 3 3 0 0x10) [] [1, 1] ∧ HoldsTile (tmM 7 0) 3 r32 ∧
      TileArg bM r32 0 1 slotM.m ∧ DstReady bM cx true 7 .a40 slotM.m slotM.n ∧ DstReady bM cx false 7 .a40 slotM.m slotM.n) ∧
    (FitsOwn bM rA ∧ rA.format = 2 ∧ (kget (tmM 7 7) 4).toNat % 16 ≤ (if cx.slot = .wide then 15 else 7)) ∧
    (Uniforms (tmM 7 255) [] [(4, 1)] ∧ (kget (tmM 7 255) 4).toNat % 256 = 255 ∧ (kget (tmM 7 7) 4).toNat % 256 = 7) ∧
    (Trappable (sM (tmM 7 8)) (tmM 7 8) 0x1100 ∧ (kget (tmM 7 8) 4).toNat % 256 ≠ 255 ∧ ∀ q, ¬NamesSlot bM 8 q) := by
  refine ⟨⟨gateM _ _ _, .inl (by decide +kernel), .inr ⟨_, namesM⟩, namesM⟩,
    ⟨gateM _ _ _, rfl, holdsM rfl, soundM _, by constructor <;> decide +kernel, by unfold TagFree; decide, by unfold BarReady; decide,
      fun _ => by decide +kernel⟩,
    ⟨by decide +kernel, gateM _ _ _, holdsM rfl, by constructor <;> decide +kernel, by unfold DstReady; exact .inr ⟨_, namesM⟩,
      ⟨soundM _, _, namesM, by decide +kernel, rfl, rfl⟩⟩,
    ⟨by unfold FitsOwn; decide, rfl, by decide +kernel⟩, ⟨unis rfl (by simp), by decide +kernel⟩,
    trap_of rfl rfl (by show tm.mask ≠ 0; decide) rfl rfl rfl rfl rfl rfl (by decide +kernel), by decide +kernel, fun q h => ?_⟩
  exact absurd h.2 (by simp [bM, slotM])

/-! The array of a context with two blocks: block 1 holds the older operation. -/
def slot1 : AccSlot := { block := 1, m := 1, n := 1, data := [5] }
def cN : Ctx := { cx with blocks := [1, 4], slots := [(7, slot1)] }
def pN : Plane := { src := rA, n := 1, k := 1, fmt := 2, book := 0, loaded := true, data := [0x80, 0x3F] }
def opN (kind : MatKind) : MatOp :=
  { num := 1, team := 5, kind := kind, x1 := some rA, x2 := some rA, fa := 2, fb := 2, m := 1, n := 1, k := 1, params := [7], order := 8 }
def bN (op : MatOp) : Block :=
  { bl with spad := 2048, matQ := [op], mat := { issued := 1 }, active := some pN, tags := [(63, { count := 1, ready := false })] }
def sN (op : MatOp) : State :=
  { st tm (bN op) cN nd with blocks := [(1, bN op), (4, { bN op with matQ := [{ opN .mswp with order := 9 }] })] }
theorem nextN (op : MatOp) (h1 : op.loading = false) (h2 : op.order = 8) (h3 : ∀ num, op.dst ≠ .alloc num) :
    Next (sN op) 2 cN 1 (bN op) op [] where
  home := rfl
  context := rfl
  running := rfl
  member := by decide +kernel
  placed := rfl
  head := rfl
  ready := ⟨h1, h3⟩
  planes p h := by rcases h with h | h <;> simp [bN, bl] at h; subst h; rfl
  oldest j b' op' hj hn hb hh := by
    have : j = 4 := by simp [cN] at hj; omega
    subst this
    obtain rfl : { bN op with matQ := [{ opN .mswp with order := 9 }] } = b' := by simpa [sN, tget] using hb
    obtain rfl : { opN .mswp with order := 9 } = op' := by simpa using hh
    rw [h2]; decide
  once := by simp

theorem witness_MatrixSequencerNext :
    (∀ kind, Next (sN (opN kind)) 2 cN 1 (bN (opN kind)) (opN kind) []) ∧
    (∀ kind view, (∀ num, view ≠ .alloc num) →
      Next (sN { opN kind with src := view, dst := view }) 2 cN 1 (bN { opN kind with src := view, dst := view })
        { opN kind with src := view, dst := view } []) :=
  ⟨fun _ => nextN _ rfl rfl (by intro num h; cases h), fun _ _ h => nextN _ rfl rfl h⟩

/-- A codebook of 512 bytes. -/
def rC : TileRec := { rA with cols := 256, pitch := 512, rows := 1, vrows := 1, vcols := 256 }
/-- MMA over its old values and over none; MRD and MQNT of one element; MSCAC; MCBL into the last codebook. -/
theorem witness_MatrixSequencerClauses :
    (let op : MatOp := { opN .mma with dst := .slot 7 }
     (∃ rows, opRows (sN op) 1 rA 0 op.m op.k = some rows) ∧ op.ovw = false ∧ (bN op).active = some pN ∧ pN.n = op.n ∧
      tget cN.slots (Spec.slotOf op.dst) = some slot1 ∧ slot1.bad = false ∧ slot1.data.length = op.m * op.n) ∧
    (let op : MatOp := { opN .mqnt with src := .slot 7, fa := 0x13 }
     isBlocked op.fa = true ∧ op.credit = none ∧ tget cN.slots (Spec.slotOf op.src) = some slot1 ∧ slot1.data.length = op.m * op.n) ∧
    (let op : MatOp := { opN .mrd with src := .slot 7 }
     ∀ r o r' o', r < op.m → o < rowLen op.fa op.n → r' < op.m → o' < rowLen op.fa op.n → tileKey 1 rA r o = tileKey 1 rA r' o' → r = r' ∧ o = o') ∧
    (let op : MatOp := { opN .mscac with src := .slot 7, dst := .slot 7, x1 := some r32, x2 := some r32 }
     (∃ xs, opRow (sN op) 1 r32 0 (4 * op.m) = some xs) ∧ tget cN.slots (Spec.slotOf op.src) = some slot1) ∧
    (let op : MatOp := { opN .mcbl with x1 := some rC }
     tget (sN op).teams op.team = some tm ∧ tm.block = 1 ∧ tget (sN op).nodes (bN op).node = some nd ∧
      ∃ s1 bs, bookRead (sN op) ⟨tm, bN op, cN, nd⟩ op.team rC = .ok s1 bs) := by
  refine ⟨⟨⟨_, rfl⟩, rfl, rfl, rfl, rfl, rfl, rfl⟩, ⟨by decide +kernel, rfl, rfl, rfl⟩, ?_, ⟨⟨_, rfl⟩, rfl⟩, rfl, rfl, rfl, _, _, rfl⟩
  intro op r o r' o' h1 h2 h3 h4 h
  simp only [op, opN] at h1 h3
  have e : r = 0 ∧ r' = 0 := by omega
  obtain ⟨rfl, rfl⟩ := e
  have : rowLen op.fa op.n = 2 := by decide +kernel
  have c : ∀ a, a < 2 → ∀ b, b < 2 → tileKey 1 rA 0 a = tileKey 1 rA 0 b → a = b := by decide +kernel
  exact ⟨rfl, c o (by omega) o' (by omega) h⟩

/-- The last free slot of a context; a loading plane; a handle that waits; products of one pair. -/
theorem witness_MatrixSequencerProgress :
    (let op : MatOp := { opN .mzero with dst := .alloc 1, handle := 7 }
     let c := { cN with slots := (List.range 7).map fun i => (i, slot1) }
     let t := { tm with ia := [(7, .alloc 1)] }
     let s : State := { sN op with teams := [(5, t)], ctxs := [(2, c)] }
     tget s.blocks 1 = some (bN op) ∧ tget s.ctxs (bN op).ctx = some c ∧ (bN op).matQ = op :: [] ∧ c.state = .running ∧
      tget s.teams op.team = some t ∧ tget t.ia op.handle = some (.alloc 1) ∧ c.slotBase ≤ 7 ∧
      7 < c.slotBase + (if c.slot = .wide then 16 else 8) ∧ tget c.slots 7 = none) ∧
    (let op : MatOp := { opN .mlds with loading := true }
     tget (sN op).blocks 1 = some (bN op) ∧ tget (sN op).ctxs (bN op).ctx = some cN ∧ cN.state = .running ∧
      (bN op).matQ = op :: [] ∧ op.x2 = some rA ∧ ∃ rows, opRows (sN op) 1 rA 0 op.n op.k = some rows) ∧
    (let t := { tm with ia := [(1, .alloc 3)] }
     Resident (st t bl cx nd) t bl cx nd ∧ ∃ num, tget t.ia 1 = some (.alloc num)) ∧
    (let ps : List (FVal × FVal) := [(.num true 127 0, .num false 127 0)]
     (2 ^ 39 - 1 - 127 * 127 : BitVec 40).toInt.natAbs + (ps.map fun p => (asI p.1 * asI p.2).natAbs).sum < 2 ^ 39) :=
  ⟨⟨rfl, rfl, rfl, rfl, rfl, rfl, by decide +kernel, by decide +kernel, by decide +kernel⟩, ⟨rfl, rfl, rfl, rfl, rfl, _, rfl⟩, ⟨res_of rfl rfl (by decide +kernel) rfl rfl rfl, _, rfl⟩,
    by decide +kernel⟩

/-! Collectives in group entry 255: rank 1 of two members. -/
def rS : TileRec := { rec16 with base := pO, rows := 1, cols := 8, pitch := 32, format := 0, vrows := 1, vcols := 8 }
def rD : TileRec := { rS with base := pO + 32, cols := 4, pitch := 16, vcols := 4 }
def gS : Group := { gid := 7, members := 3, rank := 1, size := 2, seq := 2, base := pO, bytes := 48 }
def cG : Ctx := { cx with groups := [(255, gS)] }
def tmGr : Team := { tm with k := [(4, 255), (5, 1), (8, 0x0FFF), (9, 15)], x := [(1, rS), (2, rD)] }
def oG (x2 : BitVec 4) : E64 := ⟨12, 63, 9, 4, 0, 0, 0, 0, x2, 1, 0⟩
def bG : Block := bX {}
def devG (n : Nat) : State := { st tmGr bG cG nd with devs := [(0, { collCores := n })] }

theorem witness_CollectiveInstructionsIssue :
    (collForm (.collReduceScatter (oG 2)) = some (1, oG 2) ∧ Instr.legal (.collReduceScatter (oG 2)) = true ∧
      Instr.legal (.collBroadcast (oG 0)) = true) ∧
    (∀ n, Resident (devG n) tmGr bG cG nd ∧ (devOf (devG n) cG.dev).collCores = n) ∧
    (bG.provisional = false ∧ (kget tmGr 4).toNat % 256 = 255 ∧ HoldsTile tmGr 1 rS ∧ HoldsTile tmGr 2 rD ∧
      Uniforms tmGr [] [(4, 1), (9, 1), (5, 1)] ∧ ValidEntry cG 255 gS ∧ InWindow gS 0 rS ∧ InWindow gS 0 rD ∧ FitsOwn bG rS ∧ FitsOwn bG rD ∧ SizesFit gS 1 1 rS rD ∧
      SizesFit gS 4 1 rS rD ∧ TagFree bG (oG 2) ∧ BarReady tmGr bG nd (oG 2) ∧ cG.state = .running) ∧
    (Trappable (st tmGr bG cx nd) tmGr 0x1100 ∧ ∀ g', ¬ValidEntry cx 255 g') ∧
    (let c := { cG with groups := [(255, { gS with bytes := 31 })] }
     Trappable (st tmGr bG c nd) tmGr 0x1100 ∧ ValidEntry c 255 { gS with bytes := 31 } ∧ ¬InWindow { gS with bytes := 31 } 0 rS) := by
  refine ⟨⟨rfl, by decide +kernel, by decide +kernel⟩, fun n => ⟨res_of rfl rfl (by decide +kernel) rfl rfl rfl, rfl⟩,
    ⟨rfl, by decide +kernel, ⟨rfl, by simp [tmGr, tm]⟩, ⟨rfl, by simp [tmGr, tm]⟩, unis rfl (by decide +kernel), ⟨rfl, rfl⟩, ⟨rfl, by decide +kernel, by decide +kernel, by decide +kernel⟩, ⟨rfl, by decide +kernel, by decide +kernel, by decide +kernel⟩,
      by unfold FitsOwn; decide, by unfold FitsOwn; decide, by unfold SizesFit; decide, by unfold SizesFit; decide, by unfold TagFree; decide,
      by unfold BarReady; decide, rfl⟩,
    ⟨trap_of rfl rfl (by decide +kernel) rfl rfl rfl rfl rfl rfl (by decide +kernel), fun g' h => by cases h.1⟩,
    trap_of rfl rfl (by decide +kernel) rfl rfl rfl rfl rfl rfl (by decide +kernel), ⟨rfl, rfl⟩, fun h => absurd h.inside.2 (by decide +kernel)⟩

/-- GRPQ of the last word of the entry (k8 is 0xFFF: entry 255, word 15), and of an entry that is not valid. -/
theorem witness_CollectiveInstructions :
    (Resident (devG 1) tmGr bG cG nd ∧ Uniforms tmGr [(4, 2)] [(8, 1)] ∧ (kget tmGr 8).toNat % 256 = 255 ∧ (kget tmGr 8).toNat / 256 % 16 = 15 ∧
      ValidEntry cG 255 gS ∧ gS.rank < 1024 ∧ gS.size < 65536 ∧ sub (0x0C : BitVec 8) 1 3 = 6 ∧ sub (0x00 : BitVec 8) 1 3 = 0) ∧
    (Resident (st tmGr bG cx nd) tmGr bG cx nd ∧ ∀ g', ¬ValidEntry cx 255 g') ∧ Trappable (st tmGr bG cx nd) tmGr 0x1100 := by
  refine ⟨⟨res_of rfl rfl (by decide +kernel) rfl rfl rfl, unis rfl (by decide +kernel), ?_, ?_, ⟨rfl, rfl⟩, ?_, ?_, ?_, ?_⟩,
    ⟨res_of rfl rfl (by decide +kernel) rfl rfl rfl, fun g' h => by cases h.1⟩,
    trap_of rfl rfl (by decide +kernel) rfl rfl rfl rfl rfl rfl (by decide +kernel)⟩ <;> decide +kernel

/-- Rank 0's contribution alone; and with one of rank 1, from context 4, that disagrees about the op. -/
def k0 : Contribution :=
  { gid := 7, seq := 2, member := 0, ctx := 2, block := 1, team := 5, entry := 255, num := 1, op := 0, red := 0, fmt := 8, root := 0, src := rec16,
    dst := rec16, tag := none, credit := none }
def k1 : Contribution := { k0 with member := 1, ctx := 4, op := 1 }
def sK1 : State := { devG 1 with colls := [(3, k0)] }
def sK2 : State := { devG 1 with colls := [(3, k0), (4, k1)], ctxs := [(2, cG), (4, cG)] }
theorem witness_CollectivesSequence :
    (tget sK1.colls 3 = some k0 ∧ (∀ k d, (k, d) ∈ sK1.colls → d.gid = 7 → d.seq = 2 → MemberGroup sK1 d gS) ∧
      ∃ r, r < 1024 ∧ gS.members.getLsbD r = true ∧ ∀ k d, (k, d) ∈ sK1.colls → d.gid = 7 → d.seq = 2 → d.member ≠ r) ∧
    ((∀ k d, (k, d) ∈ sK2.colls ∧ d.gid = 7 ∧ d.seq = 2 ↔ (k, d) = (3, k0) ∨ (k, d) = (4, k1)) ∧ k0.member < k1.member ∧ k0.op ≠ k1.op ∧
      (∀ d, d = k0 ∨ d = k1 → MemberGroup sK2 d gS) ∧
      ∀ r, gS.members.getLsbD r = true → r = k0.member ∨ r = k1.member) := by
  refine ⟨⟨rfl, fun k d h _ _ => ?_, 1, by decide +kernel, by decide +kernel, fun k d h _ _ => ?_⟩, fun k d => ⟨fun h => ?_, fun h => ?_⟩, by decide +kernel,
    by decide +kernel, fun d h => ?_, fun r h => ?_⟩
  · obtain ⟨rfl, rfl⟩ : k = 3 ∧ d = k0 := by simpa [sK1] using h
    exact ⟨tmGr, bG, cG, nd, .inl ⟨rfl, rfl, rfl, rfl⟩, rfl⟩
  · obtain ⟨rfl, rfl⟩ : k = 3 ∧ d = k0 := by simpa [sK1] using h
    decide
  · simpa [sK2] using h.1
  · rcases h with h | h <;> (cases h; exact ⟨by simp [sK2], rfl, rfl⟩)
  · exact ⟨tmGr, bG, cG, nd, .inl (by rcases h with rfl | rfl <;> exact ⟨rfl, rfl, rfl, rfl⟩), by rcases h with rfl | rfl <;> rfl⟩
  · have : r < 2 := by
      refine Nat.lt_of_not_le fun hr => ?_
      rw [show gS.members = BitVec.ofNat 1024 3 from rfl, BitVec.getLsbD_ofNat, Nat.testBit_lt_two_pow (i := r)] at h
      · simp at h
      · exact Nat.lt_of_lt_of_le (by decide +kernel : (3 : Nat) < 2 ^ 2) (Nat.pow_le_pow_right (by decide +kernel) hr)
    show r = 0 ∨ r = 1
    omega

/-- Two buffers of eight bytes in parts of four; int8 sums at both ends; a chunk of the scratchpad. -/
theorem witness_Collectives :
    (let bufs := [List.replicate 8 (some (1 : Byte)), List.replicate 8 none]
     bufs.length ∣ 8 ∧ elemBits 0 / 8 ∣ 8 ∧ (∀ b ∈ bufs, b.length = 8) ∧ 1 < bufs.length) ∧
    asInt 8 true 128 + asInt 8 true 255 < -128 ∧ 127 < asInt 8 true 127 + asInt 8 true 1 ∧
    (∃ used remote spad, collPiece sK1 k0 (collDst k0) (16 * 0) true = .runs [(spadKey 1 0x3F0, 16)] used remote spad) ∧
    (∀ i, i < 16 → OwnLine sK1 (spadKey 1 0x3F0 + i)) ∧
    ∃ s', collChunk sK1 k0 0 ((List.replicate 16 (255 : Byte)).map some) = .ok s' true :=
  ⟨by decide +kernel, by decide +kernel, by decide +kernel, ⟨_, _, _, rfl⟩,
    fun _ _ => .inr (.inl (Nat.le_add_right_of_le (by decide +kernel))), _, rfl⟩

/-! Shapes, units and sleep: k2.d the last eight bytes of the scratchpad, k6.d a shape, k10.d a launch unit. -/
def unitL : Nat := 3 * 2 ^ 62 + 1
def tmSh : Team := { tm with k := [(2, 0x3F8), (3, 0x20000000), (6, 7), (10, 1), (11, 0xC0000000), (14, 0xFFFFFFFF), (15, 0xFFFFFFFF)] }
def ndS (t : Option Dbl) : Node := { nd with desc := { nd.desc with shape := true }, p := 9, t := t }
def oSh (imm : BitVec 32) (va vd : BitVec 7) (m : BitVec 6) : I64 := ⟨imm, false, 0, va, vd, m⟩
def sSh (t : Team) (n : Node) (final : Bool) : State := { st t bl cx n with devs := [(0, { units := [(unitL, { final := final })] })] }
theorem resSh (t : Option Dbl) : Resident (sSh tmSh (ndS t) false) tmSh bl cx (ndS t) := res_of rfl rfl (by decide +kernel) rfl rfl rfl
theorem trapSh (t : Option Dbl) : Trappable (sSh tmSh (ndS t) false) tmSh 0x1100 := trap_of rfl rfl (by decide +kernel) rfl rfl rfl rfl rfl rfl (by show (0x1100 : Dbl) = 0x1000 + BitVec.ofNat 64 0x100; decide)

theorem witness_ShapesCountersAndSleep :
    (Resident (sSh tmSh (ndS (some 7)) false) tmSh bl cx (ndS (some 7)) ∧ (ndS (some 7)).t = some 7 ∧ Uniforms tmSh [(kdI (oSh 0 2 6 0), 2)] [] ∧
      Uniforms tmSh [] [(kdI (oSh 0 2 6 0), 2), (kaI (oSh 0 2 6 0), 2)] ∧ bl.provisional = false ∧ OwnBytes bl (advance (kgetD tmSh (kaI (oSh 0 2 6 0))) 0) 8 ∧
      kgetD tmSh (kdI (oSh 0 2 6 0)) ≠ 0xFFFFFFFFFFFFFFFF ∧ Whole (sSh tmSh (ndS (some 7)) false) tmSh ∧ cx.attached = false ∧
      (sSh tmSh (ndS (some 7)) false).reqs = [] ∧ cx.out = 0 ∧ cx.parked = []) ∧
    (Resident (sSh tmSh (ndS none) false) tmSh bl cx (ndS none) ∧ (ndS none).t = none ∧ (ndS none).desc.shape = true ∧
      Resident s0 tm bl cx nd ∧ nd.t = none ∧ nd.desc.shape = false) ∧
    (Trappable (sSh tmSh (ndS none) false) tmSh 0x1100 ∧ kgetD tmSh (kdI (oSh 0 2 14 0)) = 0xFFFFFFFFFFFFFFFF ∧
      (oSh 0 2 14 0).imm.getLsbD 0 = false) ∧
    (NamesUnit (sSh tmSh (ndS none) false) (ndS none) (level (oSh 0 10 6 0x18)) (kgetD tmSh (kaI (oSh 0 10 6 0x18))).toNat {} ∧
      unit (sSh tmSh (ndS none) false) (ndS none).dev (kgetD tmSh (kaI (oSh 0 6 6 0x18))).toNat = none ∧
      (kgetD tmSh (kaI (oSh 0 6 6 0x18))).toNat ≠ 0 ∧ Uniforms tmSh [(kdI (oSh 0 10 6 0x18), 2)] [(kaI (oSh 0 10 6 0x18), 2)] ∧
      Uniforms tmSh [] [(kaI (oSh 0 10 6 0x18), 2)] ∧ Uniforms tmSh [] [(kaI (oSh 0 10 6 0x18), 1)]) ∧
    (∀ u, tmSh.wait ≠ .sleep u) ∧
    (let t := { tm with wait := .sleep 0 }
     Resident (st t bl cx nd) t bl cx nd ∧ t.wait = .sleep 0 ∧ 0 ≤ clock (st t bl cx nd) cx.dev) :=
  ⟨⟨resSh _, rfl, unis rfl (by decide +kernel), unis rfl (by decide +kernel), rfl, by constructor <;> decide +kernel, by decide +kernel,
      whole_of rfl rfl rfl rfl, rfl, rfl, rfl, rfl⟩,
    ⟨resSh _, rfl, rfl, res0, rfl, rfl⟩, ⟨trapSh _, by decide +kernel, by decide +kernel⟩, ⟨⟨by decide +kernel, by decide +kernel, by decide +kernel, rfl⟩, rfl, by decide +kernel, unis rfl (by decide +kernel),
      unis rfl (by decide +kernel), unis rfl (by decide +kernel)⟩, (fun u h => by cases h), ⟨res_of rfl rfl (by decide +kernel) rfl rfl rfl, rfl, Nat.zero_le _⟩⟩

/-! A descriptor that fills the scratchpad's last 832 bytes: one block of one team of 32 lanes, its kernel object 9. -/
def descL : List Byte := (List.range 832).map fun i => match i with
  | 4 => 0x24 | 7 => 0x80 | 8 => 1 | 0x48 => 0xFF | 0x49 => 0xFF | 0x4A => 0xFF | 0x4B => 0xFF | 0x50 => 1 | 0x84 => 32 | _ => 0
def keysL : List Nat := (List.range 832).map fun i => spadKey 1 192 + i
def memL : Memory := { cells := [(4, 0x24), (7, 0x80), (8, 1), (0x48, 0xFF), (0x49, 0xFF), (0x4A, 0xFF), (0x4B, 0xFF), (0x50, 1), (0x84, 32)].map (fun (x : Nat × Byte) => (spadKey 1 192 + x.1, x.2)) }
def tmL (w : Wait) : Team := { tm with k := [(2, 192), (3, 0x20000000), (10, 1), (11, 0xC0000000)], wait := w }
def sL (w : Wait) (sch : Word) (size : Nat) : State :=
  { sO (tmL w) regO { objO with size := size, key := vfKey 0 0 } {} with mem := memL, devs := [(0, { vfsch := [(0, sch)], units := [(unitL, {})] })] }
theorem keysL_nodup : keysL.Nodup := by
  unfold keysL
  exact List.Pairwise.map _ (fun a b h => by omega) List.nodup_range

/-- What firmware answers. -/
def answerL (x : Created) : Nat := match x with | .refused => 0 | .full => 1 | .made .. => 2
def readL (w : Wait) (sch : Word) (size : Nat) : Block64 :=
  readBlock (sL w sch size) ⟨tmL w, bl, cx, nd⟩ 5 (kgetD (tmL w) (kaI (oSh 0 2 6 0))) 13

def pieceL (i : Nat) : List (Nat × Nat) := [(spadKey 1 192 + 64 * i, 64)]
/-- Each of the 13 pieces of 64 bytes is read from the scratchpad. -/
def readsL (w : Wait) (sch : Word) (size : Nat) : Bool :=
  let s := sL w sch size
  let v : View := ⟨tmL w, bl, cx, nd⟩
  let p := kgetD (tmL w) (kaI (oSh 0 2 6 0))
  decide (p = 0x20000000000000C0) && (List.range 13).all fun i =>
    decide (direct s v 5 (advance p ((64 * i : Nat) : Int)) 64 false = .runs (pieceL i) [] false true) &&
    match engineRead s (ctxSite cx) false (pieceL i) with
    | .ok bytes => bytes == (descL.drop (64 * i)).take 64
    | .error _ => false
theorem foldL {f : Block64 → Nat → Block64} {s : State} {b : Nat → List Byte} {k : Nat → List Nat} :
    ∀ (is : List Nat) (bs : List Byte) (ks : List Nat), (∀ i ∈ is, ∀ bs ks, f (.ok s bs ks) i = .ok s (bs ++ b i) (ks ++ k i)) →
      is.foldl f (.ok s bs ks) = .ok s (bs ++ is.flatMap b) (ks ++ is.flatMap k)
  | [], bs, ks, _ => by simp
  | i :: is, bs, ks, h => by
    rw [List.foldl_cons, h i (by simp) bs ks, foldL is _ _ fun j hj => h j (by simp [hj])]
    simp
theorem readL_ok {w : Wait} {sch : Word} {size : Nat} (h : readsL w sch size = true) :
    readL w sch size = .ok (sL w sch size) descL keysL := by
  have hd : (List.range 13).flatMap (fun i => (descL.drop (64 * i)).take 64) = descL := by decide +kernel
  have hk : (List.range 13).flatMap (fun i => runKeys (pieceL i)) = keysL := by decide +kernel
  simp only [readsL, Bool.and_eq_true, decide_eq_true_eq, List.all_eq_true] at h
  have hr : routed (sL w sch size) cx (kgetD (tmL w) (kaI (oSh 0 2 6 0))) = sL w sch size := by
    rw [routed, h.1, if_neg (by decide)]
  unfold readL readBlock
  rw [hr]
  split
  · next hp => rw [h.1] at hp; cases hp
  · refine (foldL (b := fun i => (descL.drop (64 * i)).take 64) (k := fun i => runKeys (pieceL i)) _ _ _ fun i hi bs ks => ?_).trans ?_
    · have ⟨h1, h2⟩ := h.2 i hi
      simp only [h1]
      revert h2
      split
      · next e => intro hb; simp only [e, eq_of_beq hb]; rfl
      · intro hb; cases hb
    · rw [hd, hk]; rfl

theorem witness_LaunchAndCancelPost : readL .none 0x8A001A00 4096 = .ok (sL .none 0x8A001A00 4096) descL keysL ∧
    Resident (sL .none 0x8A001A00 4096) (tmL .none) bl cx nd ∧ bl.provisional = false ∧
    Uniforms (tmL .none) [(kdI (oSh 0 2 6 0), 1)] [(kaI (oSh 0 2 6 0), 2)] ∧ cx.out = 0 ∧ cx.parked = [] :=
  ⟨readL_ok (by decide +kernel), res_of rfl rfl (by show tm.mask ≠ 0; decide) rfl rfl rfl, rfl, unis rfl (by decide +kernel), rfl, rfl⟩
theorem answerL_refused {x} (h : answerL x = 0) : x = .refused := by
  cases x <;> simp_all [answerL]
/-- The node that firmware would make, and that its descriptor is accepted: the kernel lies in an object of the VF. -/
def nL (sch : Word) : Node :=
  let d := parseDesc descL
  { dev := 0, vf := 0, entry := freeEntry (sL .launch sch 4096) 0, ident := identOf 0 0 (devOf (sL .launch sch 4096) 0).serial, desc := d,
    state := .waiting, priority := d.priority, blocks := d.grid, p := BitVec.ofNat 64 d.grid }
theorem codeL (sch : Word) (n : Nat) : codeMapped (sL .launch sch 4096) 0 0 n 0x8000002400000000 = true := by
  have ho : ownedBy { objO with size := 4096, key := vfKey 0 0 } 0 = true := by decide +kernel
  unfold codeMapped
  rw [if_pos (by decide +kernel)]
  exact (Bool.and_eq_true _ _).mpr ⟨by decide +kernel, ho⟩
theorem acceptL (sch : Word) (h : sch = 0x8A001A00 ∨ sch = 0x8A000A00) : descAccepted (sL .launch sch 4096) descL (nL sch) = true := by
  have hc : codeMapped (sL .launch sch 4096) (nL sch).dev (nL sch).vf (nL sch).ident (nL sch).desc.kernel = true := codeL sch _
  simp only [descAccepted, hc, Bool.and_true, Bool.and_eq_true]
  rcases h with rfl | rfl <;> decide +kernel
theorem witness_LaunchAndCancelMade : readL .launch 0x8A001A00 4096 = .ok (sL .launch 0x8A001A00 4096) descL keysL ∧
    fwUp (sL .launch 0x8A001A00 4096) 0 = true ∧ (keysL.drop 0x78).length ≥ 8 ∧ keysL.Nodup ∧
    (∀ s2, ∀ k ∈ keysL, OwnLine s2 k) ∧
    ∃ s2 e ident, createNode (sL .launch 0x8A001A00 4096) 0 0 descL = .made s2 e ident := by
  refine ⟨readL_ok (by decide +kernel), by decide +kernel, by decide +kernel, keysL_nodup, fun s2 k hk => ?_, ?_⟩
  · obtain ⟨i, _, rfl⟩ := List.mem_map.mp hk
    exact .inr (.inl (by simp only [spadKey]; omega))
  · unfold createNode
    have h := acceptL 0x8A001A00 (.inl rfl)
    simp only [nL] at h
    simp only [h, Bool.not_true, Bool.false_eq_true, if_false]
    rw [if_neg (by decide +kernel)]
    exact ⟨_, _, _, rfl⟩
/-- A VF without a share of the pool finds it full; a kernel beyond the end of its object is refused. -/
theorem witness_LaunchAndCancelTurnedAway :
    (readL .launch 0x8A000A00 4096 = .ok (sL .launch 0x8A000A00 4096) descL keysL ∧
      createNode (sL .launch 0x8A000A00 4096) 0 0 descL = .full) ∧
    (readL .launch 0x8A001A00 1 = .ok (sL .launch 0x8A001A00 1) descL keysL ∧ createNode (sL .launch 0x8A001A00 1) 0 0 descL = .refused ∧
      Trappable (sL .launch 0x8A001A00 1) (tmL .launch) 0x1100) := by
  refine ⟨⟨readL_ok (by decide +kernel), ?_⟩, readL_ok (by decide +kernel), answerL_refused (by decide +kernel),
    trap_of rfl rfl (by show tm.mask ≠ 0; decide) rfl rfl rfl rfl rfl rfl (by decide +kernel)⟩
  unfold createNode
  have h := acceptL 0x8A000A00 (.inr rfl)
  simp only [nL] at h
  simp only [h, Bool.not_true, Bool.false_eq_true, if_false]
  exact if_pos (by decide +kernel)
/-- CANCEL of a launch unit that no node stands under, open and final. -/
theorem witness_LaunchAndCancel :
    (NamesUnit (sL .none 0 1) nd (level (oSh 0 10 6 0x18)) (kgetD (tmL .none) (kaI (oSh 0 10 6 0x18))).toNat {} ∧
      (∀ x ∈ (sL .none 0 1).nodes, x.2.state ≠ .waiting) ∧
      ∀ x ∈ (sL .none 0 1).nodes, x.2.dev = nd.dev → unitUnder 4 (sL .none 0 1) nd.dev x.2.ident unitL = false) ∧
    NamesUnit (sSh tmSh nd true) nd (level (oSh 0 10 6 0x18)) (kgetD tmSh (kaI (oSh 0 10 6 0x18))).toNat { final := true } ∧
    Resident (sSh tmSh nd true) tmSh bl cx nd := by
  refine ⟨⟨⟨by decide +kernel, by decide +kernel, by decide +kernel, rfl⟩, by decide +kernel, fun x hx _ => ?_⟩, ⟨by decide +kernel, by decide +kernel, by decide +kernel, rfl⟩,
    res_of rfl rfl (by decide +kernel) rfl rfl rfl⟩
  simp [sL, sO, st] at hx
  subst hx
  decide
/-- The descriptor is accepted, with room in the pool and with no share of it; a kernel beyond the end of its object is not. -/
theorem okL (sch : Word) (h : sch = 0x8A001A00 ∨ sch = 0x8A000A00) : DescriptorOk (sL .launch sch 4096) 0 0 descL where
  fields := by constructor <;> decide +kernel
  shape h := absurd h (by decide +kernel)
  code := by
    rw [show BitVec.ofNat 64 (numAt descL 0 8) = 0x8000002400000000 by decide +kernel]
    exact codeL sch _
  handler h := absurd (by decide +kernel : numAt descL 0x48 4 = 0xFFFFFFFF) h
  priority := by rcases h with rfl | rfl <;> exact .inr (by decide +kernel)
  parent := .inl (by decide +kernel)
  edges i h := absurd h (by rw [show numAt descL 0x1F 1 % 16 = 0 by decide +kernel]; exact Nat.not_lt_zero _)
  operands i h := absurd h (by rw [show numAt descL 0x1F 1 / 16 = 0 by decide +kernel]; exact Nat.not_lt_zero _)
  coop h := absurd h (by decide +kernel)
theorem witness_NodeCreation :
    (∀ sch size, KeysAgree (sL .launch sch size) ∧ twf (sL .launch sch size).nodes = true ∧
      ∀ x ∈ (sL .launch sch size).nodes, x.2.state ≠ .waiting) ∧
    (DescriptorOk (sL .launch 0x8A001A00 4096) 0 0 descL ∧ ¬PoolFull (sL .launch 0x8A001A00 4096) 0 0 ∧ numAt descL 0x1F 1 / 16 = 0 ∧
      unit (sL .launch 0x8A001A00 4096) 0 0 = none) ∧
    (DescriptorOk (sL .launch 0x8A000A00 4096) 0 0 descL ∧ PoolFull (sL .launch 0x8A000A00 4096) 0 0) ∧
    ¬DescriptorOk (sL .launch 0x8A001A00 1) 0 0 descL := by
  refine ⟨fun sch size => ⟨fun x hx => ?_, rfl, fun x hx => ?_⟩, ⟨okL _ (.inl rfl), by unfold PoolFull; decide +kernel, by decide +kernel, rfl⟩,
    ⟨okL _ (.inr rfl), by unfold PoolFull; decide +kernel⟩, fun h => absurd h.code (by decide +kernel)⟩
  all_goals
    simp [sL, sO, st] at hx
    subst hx
    decide +kernel
/-- CANCEL of a unit with a ready node under it that asks for a record. -/
def ndCn : Node := { nd with ident := unitL, entry := 8, state := .ready, desc := { nd.desc with notify := true, record := 0x1000, notifyAt := 0x1040 } }
def sCn : State := { sL .none 0 1 with nodes := [(3, nd), (8, ndCn)] }
theorem witness_LaunchAndCancelNodes :
    Resident sCn (tmL .none) bl cx nd ∧ bl.provisional = false ∧ Uniforms (tmL .none) [] [(kaI (oSh 0 10 6 0x18), 2)] ∧
    NamesUnit sCn nd (level (oSh 0 10 6 0x18)) (kgetD (tmL .none) (kaI (oSh 0 10 6 0x18))).toNat {} ∧ (8 : Nat) ≠ bl.node ∧
    twf sCn.nodes = true ∧ tget sCn.nodes 8 = some ndCn ∧ ndCn.state = .ready ∧ ndCn.dev = nd.dev ∧
    unitUnder 4 sCn nd.dev ndCn.ident (kgetD (tmL .none) (kaI (oSh 0 10 6 0x18))).toNat = true ∧ ndCn.byEdge = false ∧
    ndCn.mcfail = false ∧ fwUp sCn nd.dev = true ∧ ndCn.desc.notify = true ∧ ndCn.desc.record + 64 ≤ ndCn.desc.notifyAt ∧
    ∀ x ∈ sCn.nodes, x.1 ≠ 8 → x.2.desc.notify = false :=
  ⟨res_of rfl rfl (by show tm.mask ≠ 0; decide) rfl rfl rfl, rfl, unis rfl (by decide +kernel),
    ⟨by decide +kernel, by decide +kernel, by decide +kernel, rfl⟩, by decide +kernel, by decide +kernel, rfl, rfl, rfl, by decide +kernel, rfl, rfl,
    by decide +kernel, rfl, by decide +kernel, by decide +kernel⟩

/-! The dispatcher: two ready nodes of device 0, the later one of higher priority; a launch of two blocks, one team of 32 lanes. -/
def ndR : Node := { nd with
  desc := { nd.desc with grid := 2, spad := 1024, acc := 1, barMask := [(15, 1)], teams := [⟨0x40, 32, 3, 1⟩] }
  state := .ready, priority := 39, blocks := 2 }
def ndLow : Node := { ndR with priority := 24, entry := 4 }
def sR (n : Node) : State := { mem := {}, nodes := [(3, n), (4, ndLow)] }
theorem witness_DispatcherOrder : nextNode (sR ndR) 0 = some (3, ndR) ∧ dispUp (sR ndR) 0 = true ∧ ndR.desc.shape = false :=
  ⟨by decide +kernel, by decide +kernel, rfl⟩
/-- The best place for the launch's first block is a slot of the last core of die 0. -/
theorem witness_DispatcherPlace :
    (let n : Node := { ndR with state := .dispatching }
     let s := sR n
     tget s.nodes 3 = some n ∧ n.failing = false ∧ n.cancel = none ∧ n.next < n.blocks ∧ n.die = 0 ∧ placedFirst s 3 n = false ∧ privateBytes n = 0 ∧
      n.desc.cluster = 0 ∧ placeSet s 3 n 0 127 .b = some (0, [(127, none)]) ∧ bestRank s 3 n 0 = some 0) :=
  ⟨rfl, rfl, rfl, by decide +kernel, rfl, by decide +kernel, rfl, rfl, by decide +kernel, by decide +kernel⟩
/-- A block that is filled, one that leaves before the last is placed; ageing at the limit and one tick before it. -/
theorem witness_DispatcherBlocks :
    (let b : Block := { bl with filled := false }
     tget (st tm b cx nd).blocks 1 = some b ∧ tget (st tm b cx nd).nodes b.node = some nd ∧ b.left = false) ∧
    (let b : Block := { bl with exited := true }
     let n : Node := { ndR with next := 1 }
     tget (st tm b cx n).blocks 1 = some b ∧ tget (st tm b cx n).ctxs b.ctx = some cx ∧ tget (st tm b cx n).nodes b.node = some n ∧
      b.copyQ = [] ∧ b.gathQ = [] ∧ b.matQ = [] ∧ n.failing = false ∧ n.cancel = none ∧ n.next < n.blocks) ∧
    (let s : State := { sR ndR with now := 701, devs := [(0, { age := [(39, 1)] })] }
     tgetD (devOf s ndR.dev).age ndR.priority 1000 = 1 ∧ 700 * 1 < clock s ndR.dev - ndR.waitedAt ∧ ndR.priority < 40) ∧
    clock (sR ndR) ndR.dev - ndR.waitedAt ≤ 700 * tgetD (devOf (sR ndR) ndR.dev).age ndR.priority 1000 := by
  refine ⟨⟨rfl, rfl, rfl⟩, ⟨rfl, rfl, rfl, rfl, rfl, rfl, rfl, rfl, by decide +kernel⟩, ⟨rfl, ?_, by decide +kernel⟩, by decide +kernel⟩
  exact le_clock (s := { sR ndR with now := 701, devs := [(0, { age := [(39, 1)] })] }) (dev := 0) rfl
/-- The shape 4 of a launch predicted at 6, at its floor; a gang of one part; a window whose report is armed. -/
def ndT : Node := { nd with
  desc := { nd.desc with shape := true, cell := pO, floor := 4, cap := 6, grid := 6 }, state := .provisional, speculating := true, next := 3, blocks := 6, p := 6 }
def ndG : Node := { ndR with desc := { ndR.desc with gang := true, part := 2, gangId := 9 } }
def gang (retry : Nat) (until_ : Option Nat) : Gang := { parts := [(0, 2)], nodes := [3], until_ := until_, retry := retry }
def sGang (retry : Nat) (until_ : Option Nat) : State := { mem := {}, nodes := [(3, ndG)], gangs := [(9, gang retry until_)] }
def sWindow (arm : Byte) (due : Nat) : State :=
  { mem := { cells := [(hostKey 0x1008, arm), (hostKey 0x1010, 63)] }, devs := [(0, { timers := [(1, ⟨0x1000, 15, due⟩)] })] }
theorem witness_Dispatcher :
    (let s : State := { sO tm regO objO {} with nodes := [(3, ndT)], blocks := [], mem := { cells := [(pO.toNat, 4)] } }
     tget s.nodes 3 = some ndT ∧ cellWord s ndT 0 = 4 ∧ ndT.desc.floor ≤ 4 ∧ 4 ≤ ndT.desc.cap ∧ 4 ≤ ndT.p.toNat ∧ ndT.desc.retract = [] ∧
      (∀ x ∈ s.blocks, x.2.node ≠ 3) ∧ ndT.next < blocksFor ndT.desc 4) ∧
    tget (sR ndR).gangs 9 = none ∧
    (let s := sGang
     tget (s 0 none).gangs 9 = some (gang 0 none) ∧ (gang 0 none).nodes = [3] ∧ (gang 0 none).parts = [(ndG.dev, ndG.desc.part)] ∧
      tget (s 0 none).nodes 3 = some ndG ∧ ndG.desc.gang = true ∧ ndG.desc.gangId = 9 ∧ ndG.state = .ready ∧ (gang 0 none).reserved = false ∧ ndG.reserved = false ∧
      clock (s 1 none) 0 < (gang 1 none).retry ∧ (gang 0 none).retry ≤ clock (s 0 none) 0 ∧
      clock (s 0 (some 1)) 0 < 1 ∧ 0 ≤ clock (s 0 (some 0)) 0) ∧
    (tget (devOf (sWindow 5 1) 0).timers 1 = some ⟨0x1000, 15, 1⟩ ∧ clock (sWindow 5 1) 0 < 1 ∧
      tget (devOf (sWindow 5 0) 0).timers 1 = some ⟨0x1000, 15, 0⟩ ∧ 0 ≤ clock (sWindow 5 0) 0 ∧
      readNat (sWindow 5 0).mem (hostKey (0x1000 + 8)) 8 % 4 = 1 ∧ readNat (sWindow 6 0).mem (hostKey (0x1000 + 8)) 8 % 4 ≠ 1) := by
  refine ⟨⟨rfl, ?_, ?_, ?_, ?_, rfl, ?_, ?_⟩, rfl, ⟨rfl, rfl, rfl, rfl, rfl, rfl, rfl, rfl, rfl, ?_, Nat.zero_le _, ?_, Nat.zero_le _⟩, rfl, ?_, rfl,
    Nat.zero_le _, ?_, ?_⟩ <;> decide +kernel

/-! Provisional blocks: accesses to address 0 of region 0 and to an object, and the other instructions that hold. -/
def blV : Block := { bX {} with provisional := true }
theorem witness_ProvisionalHolds :
    (Resident (st tm blV cx ndK) tm blV cx ndK ∧ blV.provisional = true ∧ tm.served = 0 ∧ tm.wait = .none) ∧
    (∃ a, storeForm (.stWM ⟨0, 0, 2, 127⟩) = some a ∧ a.code < 5 ∧ On tm a.neg a.g 0 ∧ Outside ndK true (a.ea tm 0) ∧
      Operands tm [] (addressRegs a.kbase a.va a.vi ++ [(a.reg, wordsOf a.code)]) (addressUni a.kbase a.va)) ∧
    (∃ op o, atomForm (.atomCas ⟨8, 1, false, 0, 124, 2, 126, 0xC0⟩) = some (op, o) ∧
      Instr.legal (.atomCas ⟨8, 1, false, 0, 124, 2, 126, 0xC0⟩) = true ∧ On tm o.n o.g 0 ∧
      Outside ndK false (eaOf tm (o.m.getLsbD 6) o.va.toNat 0 o.imm.toInt 0) ∧
      Operands tm [(o.vd.toNat, atomWords o)] ((if o.m.getLsbD 6 then [] else [(o.va.toNat, 2)]) ++
        [(o.vi.toNat, operandWords op o)]) (if o.m.getLsbD 6 then [(sub o.va 0 6, 2)] else [])) ∧
    (∃ op o, redForm (.redAdd ⟨0, 1, false, 0, 0, 2, 6, 0x40⟩) = some (op, o) ∧ Instr.legal (.redAdd ⟨0, 1, false, 0, 0, 2, 6, 0x40⟩) = true ∧
      On tm o.n o.g 0 ∧ Outside ndK false (eaOf tm (o.m.getLsbD 6) o.va.toNat o.vi.toNat o.imm.toInt 0) ∧
      Operands tm [] (addressRegs (o.m.getLsbD 6) o.va.toNat o.vi.toNat ++ [(o.vd.toNat, atomWords o)]) (addressUni (o.m.getLsbD 6) o.va.toNat)) ∧
    (sub oU.m 1 3 < 4 ∧ Outside ndK true (kAddress tm oU) ∧ Uniforms tm [] [(sub oU.va 0 6, 2), (sub oU.vd 0 6, wordsOf (sub oU.m 1 3))]) ∧
    (Outside ndK true pO ∧ Outside { ndK with desc := { ndK.desc with floor := 4, retract := [(pO, 64)] } } true (pO + 255)) ∧
    (Names tm blV ndK 27 (.node 3 27 27) ∧ (barOf (st tm blV cx ndK) (.node 3 27 27)).overrun = false) ∧
    (Uniforms tm [(6, 2)] [(4, 4)] ∧ Uniforms tm [] [(4, 2)] ∧ Uniforms tm [(6, 1)] [(4, 4)] ∧ Uniforms tm [] [(4, 4)] ∧
      Uniforms tm [(6, 2)] [(4, 2)] ∧ Uniforms tm [] [(6, 2), (4, 2)] ∧ Uniforms tm [(6, 1)] [(4, 2)]) :=
  ⟨⟨res_of rfl rfl (by decide +kernel) rfl rfl rfl, rfl, rfl, rfl⟩,
    ⟨_, rfl, by decide +kernel, by unfold On; decide, .inl ⟨by decide +kernel, .inl (by decide +kernel)⟩, ops0 (by decide +kernel)⟩,
    ⟨_, _, rfl, by decide +kernel, by unfold On; decide, .inl ⟨by decide +kernel, .inl (by decide +kernel)⟩, ops0 (by decide +kernel)⟩,
    ⟨_, _, rfl, by decide +kernel, by unfold On; decide, .inl ⟨by decide +kernel, .inl (by decide +kernel)⟩, ops0 (by decide +kernel)⟩,
    ⟨by decide +kernel, .inl ⟨by decide +kernel, .inl (by decide +kernel)⟩, unis0 (by decide +kernel)⟩,
    ⟨.inr ⟨by decide +kernel, by simp [ndK, nd]⟩, .inr ⟨by decide +kernel, by rintro ⟨_, r, hr, h⟩; simp at hr; subst hr; revert h; decide +kernel⟩⟩,
    ⟨.inr (.inr ⟨by decide +kernel, by decide +kernel, rfl, rfl⟩), rfl⟩,
    unis0 (by decide +kernel), unis0 (by decide +kernel), unis0 (by decide +kernel), unis0 (by decide +kernel), unis0 (by decide +kernel),
    unis0 (by decide +kernel), unis0 (by decide +kernel)⟩

/-! A launch on a predicted shape, of floor 4 and cap 6: its cell unpublished, at 5, and beyond its cap. -/
def ndPr : Node := { nd with
  desc := { nd.desc with shape := true, cell := pO, floor := 4, cap := 6, grid := 6, notify := true, record := 0x1000, notifyAt := 0x1040 }
  state := .ready, priority := 39 }
def memPr (x : Nat) : Memory := writeBytes {} pO.toNat (natBytes 8 x)
def sPr (x : Nat) : State :=
  { sO tm regO objO {} with nodes := [(3, ndPr)], blocks := [], ctxs := [], teams := [], mem := memPr x, devs := [(0, { units := [(7, {})] })] }
theorem witness_PredictedDispatch :
    (∀ x ∈ [2 ^ 64 - 1, 5, 7], dispUp (sPr x) 0 = true ∧ nextNode (sPr x) 0 = some (3, ndPr) ∧ cellWord (sPr x) ndPr 0 = x) ∧
    (ndPr.desc.shape = true ∧ ndPr.desc.retract = [] ∧ ndPr.failing = false ∧ ndPr.cancel = none ∧ ndPr.left = ndPr.next ∧
      ndPr.cause = none ∧ ndPr.next < blocksFor ndPr.desc (predicted ndPr.desc (history (sPr (2 ^ 64 - 1)) ndPr) (cellWord (sPr (2 ^ 64 - 1)) ndPr 8)) ∧
      ndPr.next < blocksFor ndPr.desc 5 ∧ ndPr.desc.record + 64 ≤ ndPr.desc.notifyAt) ∧
    (ndPr.desc.floor ≤ 5 ∧ 5 ≤ ndPr.desc.cap ∧ ndPr.desc.cap < 7) ∧
    (∃ u, unit (sPr 7) ndPr.dev ndPr.ident = some u) ∧ ∀ x ∈ (sPr 7).nodes, x.2.state ≠ .waiting := by
  refine ⟨by decide +kernel, ⟨rfl, rfl, rfl, rfl, rfl, rfl, by decide +kernel, by decide +kernel, by decide +kernel⟩, by decide +kernel, ⟨_, rfl⟩, by decide +kernel⟩
/-- It resolves at 5, and beyond its cap, with block 4 confirmed, whose team holds a cause, and block 5 squashed. -/
def ndRs : Node := { ndPr with desc := { ndPr.desc with handler := some 0x100 }, state := .provisional, speculating := true, next := 6, blocks := 6, p := 6 }
def blRs (k team : Nat) : Block := { bl with ordinal := k, teams := [team], provisional := true }
def tmRs : Team := { tm with held := some ⟨0x340, 0, 0x1000⟩, wait := .hold }
def sRs (x : Nat) : State :=
  { sPr x with nodes := [(3, ndRs)], blocks := [(1, blRs 4 5), (2, blRs 5 6)], ctxs := [(2, { cx with blocks := [1, 2] })],
               teams := [(5, tmRs), (6, { tm with block := 2 })] }
theorem witness_Resolution :
    (∀ x ∈ [5, 7], cellWord (sRs x) ndRs 0 = x ∧ tget (sRs x).nodes 3 = some ndRs) ∧
    (ndRs.speculating = true ∧ ndRs.failing = false ∧ ndRs.cancel = none ∧ ndRs.state = .provisional ∧ ndRs.desc.handler = some 0x100 ∧
      twf (sRs 5).blocks = true ∧ twf (sRs 5).teams = true ∧ ndRs.cause = none ∧ ndRs.left < ndRs.next) ∧
    (∀ x, RunsProvisionally (sRs x) 3 1 (blRs 4 5) ∧ RunsProvisionally (sRs x) 3 2 (blRs 5 6) ∧
      ∀ y ∈ (sRs x).blocks, y.2.node = 3 → y = (1, blRs 4 5) ∨ y = (2, blRs 5 6)) ∧
    ((blRs 4 5).ordinal < blocksFor ndRs.desc 5 ∧ blocksFor ndRs.desc 5 ≤ (blRs 5 6).ordinal ∧ ndRs.desc.cap < 7) := by
  refine ⟨by decide +kernel, ⟨rfl, rfl, rfl, rfl, rfl, by decide +kernel, by decide +kernel, rfl, by decide +kernel⟩, fun x => ⟨?_, ?_, ?_⟩, by decide +kernel⟩
  · exact ⟨rfl, rfl, ⟨_, rfl⟩, rfl, ⟨rfl, rfl, rfl⟩, by decide +kernel, by decide +kernel, fun k hk => by
      simp [blRs] at hk; subst hk; exact ⟨tmRs, rfl, rfl, rfl, fun _ => ⟨rfl, rfl⟩⟩⟩
  · exact ⟨rfl, rfl, ⟨_, rfl⟩, rfl, ⟨rfl, rfl, rfl⟩, by decide +kernel, by decide +kernel, fun k hk => by
      simp [blRs] at hk; subst hk; exact ⟨{ tm with block := 2 }, rfl, rfl, rfl, fun h => absurd rfl h⟩⟩
  · intro y hy _
    simpa [sRs] using hy

/-! Contexts of two VFs on the last core of die 1, whose turn is the other VF's. -/
def cA : Ctx := { cx with die := 1, core := 127 }
def cB : Ctx := { cA with slot := .b, vf := 1, node := 4, state := .ready, blocks := [] }
def nB : Node := { nd with vf := 1, state := .running }
def sC (cs : Tbl Ctx) (turn : Nat) (since : Nat := 0) (now : Nat := 0) : State :=
  { mem := {}, now := now, teams := [(5, tm)], blocks := [(1, bl)], ctxs := cs, nodes := [(3, nd), (4, nB)], cores := [(255, ⟨turn, since⟩)] }
theorem witness_ContextEventsTurns :
    (let s := sC [(2, cA), (7, cB)] 0 0 7000000
     (0 : Nat) = holderOf s (255 / 256) (255 / 128 % 2) (255 % 128) ∧ (1 : Nat) = (0 + 1 + 0) % 17 ∧
      TakesTurns s (255 / 256) (255 / 128 % 2) (255 % 128) 1 ∧ (∃ x ∈ s.ctxs, AtCore x.2 255 ∧ x.2.state = .running) ∧
      (∀ x ∈ s.ctxs, AtCore x.2 255 → Single s x.2) ∧ (coreOf s 255).since + 700000 * quantumOf s (255 / 256) 0 ≤ clock s (255 / 256)) ∧
    (let s := sC [(2, cA), (7, cB)] 0 1
     clock s (255 / 256) < (coreOf s 255).since + 700000 * quantumOf s (255 / 256) (holderOf s (255 / 256) (255 / 128 % 2) (255 % 128))) ∧
    (let s := sC [(2, cA), (7, cB)] 1
     tget s.ctxs 2 = some cA ∧ tget s.ctxs 7 = some cB ∧ twf s.ctxs = true ∧ CoresExist s ∧ cA.state = .running ∧ cB.state = .ready ∧
      preempted s cA = true ∧ preempted s cB = false ∧ onGated s cB = false ∧ Single s cA ∧ Single s cB ∧
      (∀ z ∈ s.ctxs, OnCore z.2 (255 / 256) (255 / 128 % 2) (255 % 128) ↔ z = (2, cA) ∨ z = (7, cB))) ∧
    (let s : State := { sC [(2, cA)] 1 with nodes := [(3, nd), (4, { nB with state := .ready })] }
     tget s.ctxs 2 = some cA ∧ cA.state = .running ∧ Single s cA ∧ preempted s cA = true ∧
      ∀ x ∈ s.ctxs, OnCore x.2 cA.dev cA.die cA.core → x = (2, cA)) := by
  refine ⟨⟨by decide +kernel, rfl, ⟨by decide +kernel, .inl (by decide +kernel)⟩, ⟨(2, cA), by decide +kernel, by unfold AtCore; decide, rfl⟩, fun x hx _ => ?_,
      le_clock (s := sC [(2, cA), (7, cB)] 0 0 7000000) (dev := 0) rfl⟩, by decide +kernel,
    ⟨rfl, rfl, by decide +kernel, by unfold CoresExist; decide +kernel, rfl, rfl, by decide +kernel, by decide +kernel, by decide +kernel, ⟨nd, rfl, rfl⟩,
      ⟨nB, rfl, rfl⟩, fun z hz => ?_⟩,
    rfl, rfl, ⟨nd, rfl, rfl⟩, by decide +kernel, fun x hx _ => ?_⟩
  · have h : x = (2, cA) ∨ x = (7, cB) := by simpa [sC] using hx
    rcases h with rfl | rfl
    · exact ⟨nd, rfl, rfl⟩
    · exact ⟨nB, rfl, rfl⟩
  · have h : z = (2, cA) ∨ z = (7, cB) := by simpa [sC] using hz
    refine ⟨fun _ => h, fun _ => ?_⟩
    rcases h with rfl | rfl <;> exact ⟨rfl, rfl, rfl, by decide +kernel, by decide +kernel⟩
  · simpa [sC] using hx
theorem witness_ContextEventsStreams :
    (let c : Ctx := { cA with state := .streamingOut }
     let s := sC [(2, c)] 0
     tget s.ctxs 2 = some c ∧ (∀ r ∈ s.reqs, r.2.ctx ≠ 2) ∧ c.out = 0 ∧
      ∀ i ∈ c.blocks, ∀ b, tget s.blocks i = some b → b.copyQ = [] ∧ b.gathQ = []) ∧
    (let c : Ctx := { cA with state := .saved }
     let s := sC [(2, c)] 0
     tget s.ctxs 2 = some c ∧ tget s.nodes c.node = some nd ∧ (c.slot = .wide ↔ SlotSel.a = .wide) ∧ c.key ∉ (devOf s c.dev).revoked ∧
      nd.failing = false ∧ nd.cancel = none ∧ nd.desc.coop = false ∧ reservedFrom s c.dev c.node 1 127 .a = false ∧ mayRun s nd 1 (127 / 8) = true ∧ nd.desc.cluster = 0 ∧ (∀ x ∈ s.ctxs, ¬OnCore x.2 c.dev 1 127) ∧
      (∀ x ∈ s.ctxs, x.1 ≠ 2 → x.2.state ≠ .saved) ∧ ∀ x ∈ s.ctxs, x.1 = 2 → x.2 = c) ∧
    (let c : Ctx := { cA with state := .streamingIn }
     tget (sC [(2, c)] 0).ctxs 2 = some c ∧ c.heldEvents = []) := by
  refine ⟨⟨rfl, by decide +kernel, rfl, fun i hi b hb => ?_⟩, ⟨rfl, rfl, by decide +kernel, by decide +kernel, rfl, rfl, rfl, by decide +kernel, by decide +kernel, rfl, fun x hx h => ?_, fun x hx h => ?_,
    fun x hx _ => ?_⟩, rfl, rfl⟩
  · obtain rfl : i = 1 := by simpa [cA, cx] using hi
    obtain rfl : bl = b := by simpa [sC, tget] using hb
    exact ⟨rfl, rfl⟩
  · obtain rfl : x = (2, { cA with state := .saved }) := by simpa [sC] using hx
    exact h.2.2.2.1 rfl
  · obtain rfl : x = (2, { cA with state := .saved }) := by simpa [sC] using hx
    exact absurd rfl h
  · obtain rfl : x = (2, { cA with state := .saved }) := by simpa [sC] using hx
    rfl
/-- A sleeper whose time has come; a watch that sees a change and one that sees none; a fault of the last lane of 32. -/
theorem witness_ContextEvents :
    (let t := { tm with wait := .sleep 0 }
     tget (st t bl cx nd).teams 5 = some t ∧ 0 ≤ clock (st t bl cx nd) cx.dev ∧ t.halt = none ∧ t.stepping = false ∧ t.mask ≠ 0 ∧
      cx.state = .running) ∧
    (let w (value now : Nat) (mon : Bool) : State × List Watch := ({ st { tm with wait := .waita false 0 [⟨spadKey 1 1016, 8, value, mon⟩] } bl cx nd with now := now },
       [⟨spadKey 1 1016, 8, value, mon⟩])
     (∀ value now mon, Resident (w value now mon).1 { tm with wait := .waita false 0 (w value now mon).2 } bl cx nd) ∧
      (∀ value, 0 + 4096 ≤ clock (w value 4096 false).1 cx.dev) ∧ (∃ x ∈ (w 1 4096 false).2, x.mon = false) ∧
      (∃ x ∈ (w 1 4096 false).2, x.mon = false ∧ readNat (w 1 4096 false).1.mem x.key x.bytes ≠ x.value) ∧
      (∀ x ∈ (w 0 4096 false).2, x.mon = false → readNat (w 0 4096 false).1.mem x.key x.bytes = x.value) ∧
      clock (w 0 0 false).1 cx.dev < 0 + 4096 ∧ ∀ x ∈ (w 0 4096 true).2, x.mon = true) ∧
    (let t := { tm with lfmode := 1, lfnew := BitVec.ofNat 1024 (2 ^ 31) }
     Trappable (st t bl cx nd) t 0x1100 ∧ t.lfnew.getLsbD 31 = true ∧ 31 < t.size ∧ (∀ j, j < 31 → t.lfnew.getLsbD j = false) ∧
      t.lfmode.getLsbD 0 = true ∧ t.halt = none ∧ t.wait = .none ∧ t.swept = 0 ∧ t.served = 0) := by
  refine ⟨⟨rfl, Nat.zero_le _, rfl, rfl, by decide +kernel, rfl⟩, ⟨fun _ _ _ => res_of rfl rfl (by show tm.mask ≠ 0; decide) rfl rfl rfl,
      fun value => le_clock (s := { st { tm with wait := .waita false 0 [⟨spadKey 1 1016, 8, value, false⟩] } bl cx nd with now := 4096 }) (dev := 0) rfl,
      ?_, ?_, ?_, ?_, ?_⟩,
    trap_of rfl rfl (by decide +kernel) rfl rfl rfl rfl rfl rfl (by decide +kernel), ?_, ?_, ?_, ?_, rfl, rfl, rfl, rfl⟩ <;> decide +kernel

/-! Acknowledgements and pages; the table entries lie at 0x1000 of device 511. -/
def entryP (x : Byte) : State := { st tm bl cx nd with mem := { cells := [(slotKey 511 0 0x1000, x)] } }
def ndQ : Node := { nd with next := 0, blocks := 1 }
theorem staysQ (c : Ctx) (hn : c.node = 3) (hb : 1 ∈ c.blocks) : Stays (st tm bl c ndQ) 2 c where
  sorted := rfl
  here := rfl
  node := ⟨ndQ, by rw [hn]; rfl, rfl, rfl, by decide⟩
  block := ⟨1, bl, hb, rfl, rfl⟩
/-- The live set 0 and two parked ones, which count; a set that counts nothing. -/
def cP : Ctx := { cx with out := 3, parked := [⟨255, 1, 1⟩, ⟨0, 2, 2⟩] }
theorem witness_LinksAndPagesAcks :
    (∀ set, set < 3 → Stays (st tm bl cP ndQ) 2 cP ∧ travelling (st tm bl cP ndQ) 2 cP set < setCount cP set) ∧
    (tget (st tm bl cP ndQ).ctxs 2 = some cP ∧ setCount cP 9 ≤ travelling (st tm bl cP ndQ) 2 cP 9) ∧
    ((pte (entryP 1) 511 0x1000).testBit 0 = true ∧ (pte (entryP 1) 511 0x1000).testBit 2 = false) ∧
    ((pte (entryP 5) 511 0x1000).testBit 0 = true ∧ (pte (entryP 5) 511 0x1000).testBit 2 = true ∧
      (pte (entryP 5) 511 0x1000).testBit 5 = false ∧ ∀ x ∈ (entryP 5).blocks, ∀ y ∈ x.2.copyQ ++ x.2.gathQ, y.landing = []) ∧
    ((pte (entryP 37) 511 0x1000).testBit 0 = true ∧ (pte (entryP 37) 511 0x1000).testBit 2 = true ∧
      (pte (entryP 37) 511 0x1000).testBit 5 = true) := by
  refine ⟨fun set h => ⟨staysQ cP rfl (by decide), ?_⟩, ⟨rfl, ?_⟩, ?_, ?_, ?_⟩
  · revert set; decide +kernel
  all_goals decide +kernel
/-- The 63rd and the 64th failed try of the last link; plane 31 fails with a request on it and one on plane 0. -/
def qF : Req := { rqQ with kind := .load false false, phase := .toSite, site := 1023, from_ := 0, plane := 31 }
def sF : State := { mem := {}, reqs := [(7, qF), (8, { qF with plane := 0 })] }
theorem witness_LinksAndPagesDown :
    (∀ tries, tries = 62 ∨ tries = 63 →
      tgetD ({ mem := {}, fabric := { retries := [(511 * 32 + 31, tries)] } } : State).fabric.retries (511 * 32 + 31) 0 = tries) ∧
    (31 ∉ sF.fabric.down ∧ tget sF.fabric.recovering 31 = none ∧ twf sF.reqs = true ∧ (∀ x ∈ sF.sites, x.2.receipts = []) ∧
      sF.fabric.msgs = [] ∧ (∃ p, p < 32 ∧ p ≠ 31 ∧ p ∉ sF.fabric.down) ∧ tget sF.reqs 7 = some qF ∧ qF.plane = 31 ∧
      qF.site / 2 ≠ qF.from_ / 2 ∧ qF.site / 2 ∉ sF.fabric.absent ∧ qF.phase ≠ .replied ∧ qF.phase ≠ .queued ∧
      tget sF.reqs 8 = some { qF with plane := 0 }) := by
  refine ⟨fun t h => by rcases h with rfl | rfl <;> decide, ?_, rfl, ?_, ?_, rfl, ⟨0, ?_, ?_, ?_⟩, rfl, rfl, ?_, ?_, ?_, ?_, rfl⟩ <;> decide +kernel
/-- A recovery that device 5, without power, has not acknowledged, and one that all have, with a request to device 511, which is gone;
a request on its plane, before its time and after it. -/
def sG (waiting : List Nat) (k : AccKindOp) : State :=
  { mem := {}, reqs := [(7, { qF with kind := k })], devs := [(5, { powered := false })],
    fabric := { down := [31], recovering := [(31, false, waiting)], absent := [511] } }
theorem witness_LinksAndPages :
    (tget (sG [5] .store).fabric.recovering 31 = some (false, [5]) ∧ ∃ d ∈ [5], d ∈ silent (sG [5] .store)) ∧
    (∀ k, tget (sG [6] k).fabric.recovering 31 = some (false, [6]) ∧ (∀ d ∈ [6], d ∉ silent (sG [6] k)) ∧ twf (sG [6] k).reqs = true ∧
      tget (sG [6] k).reqs 7 = some { qF with kind := k } ∧ qF.plane = 31 ∧ qF.site / 2 ∈ (sG [6] k).fabric.absent ∧
      qF.site / 2 ≠ qF.from_ / 2 ∧ qF.phase ≠ .replied) ∧
    (∀ now, tget ({ sF with now := now } : State).reqs 7 = some qF ∧ qF.plane ∉ ({ sF with now := now } : State).fabric.down ∧
      tget ({ sF with now := now } : State).fabric.recovering qF.plane = none) ∧
    clock sF (qF.from_ / 2) < qF.sent + 1400000 ∧ qF.sent + 1400000 ≤ clock { sF with now := 1400000 } (qF.from_ / 2) := by
  refine ⟨⟨rfl, 5, ?_, ?_⟩, fun k => ⟨rfl, ?_, rfl, rfl, rfl, ?_, ?_, ?_⟩, fun _ => ⟨rfl, ?_, rfl⟩, ?_,
    le_clock (s := { sF with now := 1400000 }) (dev := 0) rfl⟩
  · decide +kernel
  · decide +kernel
  · show ∀ d ∈ [6], d ∉ [5]; decide
  · show 511 ∈ [511]; decide
  · decide
  · decide
  · show 31 ∉ []; decide
  · decide +kernel

/-! Combining at port 511 of plane 31, of two requests that overflow together, for a word of object 9. -/
def qC (tag : Nat) (phase : ReqPhase) (sum : Int) : Req :=
  { rqQ with kind := .atom .add, size := 4, phase := phase, plane := 31, site := 1023, sum := sum, tag := tag, origin := some 31,
             items := [{ itQ with ptr := pO + 8, runs := [((pO + 8).toNat, 4)] }] }
def eC (red : Bool) (list : List Nat) (since : Nat) : CombEntry :=
  { plane := 31, port := 511, site := 1023, addr := (pO + 8).toNat, red := red, wide := false, list := list, since := since }
def sCb (p : ReqPhase) (f : Fabric) : State := { mem := {}, reqs := [(7, qC 65535 p (2 ^ 32 - 1)), (8, qC 0 p (-1))], fabric := f }
/-- Request 8 behind request 7 of its context to the line, with the entry of a third for the line's other half word. -/
def sCw (f : Fabric) : State :=
  { mem := {}, reqs := [(6, { qC 1 .combining 1 with ctx := 3 }), (7, qC 65535 .egress (2 ^ 32 - 1)), (8, qC 0 .egress (-1))], fabric := f }
theorem witness_CombiningAtThePort :
    (tget (sCb .egress {}).reqs 7 = some (qC 65535 .egress (2 ^ 32 - 1)) ∧
      (slctlOf (sCb .egress { slctl := [(31 * 512 + 511, 0)] }) 31 (1023 / 2)).getLsbD 16 = false) ∧
    (AtEgress (sCb .egress {}) 7 (qC 65535 .egress (2 ^ 32 - 1)) ∧ (qC 65535 .egress (2 ^ 32 - 1)).resent = false ∧
      (slctlOf (sCb .egress {}) 31 (1023 / 2)).getLsbD 16 = true) ∧
    (NothingAhead (sCb .egress {}) 7 (qC 65535 .egress (2 ^ 32 - 1)) [] ∧ HeadOfPort (sCb .egress {}) 7 (qC 65535 .egress (2 ^ 32 - 1)) ∧
      ¬HeadOfPort (sCb .egress {}) 8 (qC 0 .egress (-1)) ∧ AtEgress (sCw {}) 8 (qC 0 .egress (-1)) ∧ ¬NothingAhead (sCw {}) 8 (qC 0 .egress (-1)) []) ∧
    (let q := qC 65535 .egress (2 ^ 32 - 1)
     let e := eC false [8] 0
     AtEgress (sCb .egress { combs := [(4, e)] }) 7 q ∧ e.plane = q.plane ∧ e.port = q.site / 2 ∧ e.site = q.site ∧ e.red = isRed q ∧
      e.wide = false ∧ e.addr = reqPtr q ∧ NothingAhead (sCb .egress { combs := [(4, e)] }) 7 q [8] ∧ (qC 0 .egress (-1)).single = false) ∧
    (let q := qC 0 .egress (-1)
     let e := { eC false [6] 0 with addr := (pO + 12).toNat }
     AtEgress (sCw { combs := [(4, e)] }) 8 q ∧ e.port = q.site / 2 ∧ e.site = q.site ∧ e.red = isRed q ∧ e.addr / 8 = reqPtr q / 8 ∧
      e.addr ≠ reqPtr q ∧ ¬NothingAhead (sCw { combs := [(4, e)] }) 8 q [6] ∧ tget (sCw { combs := [(4, e)] }).reqs 6 = some { qC 1 .combining 1 with ctx := 3 }) ∧
    (let e := { eC false [7] 0 with head := false }
     tget (sCb .egress { combs := [(4, e)] }).fabric.combs 4 = some e ∧ tget (sCb .egress { combs := [(4, e)] }).reqs 7 = some (qC 65535 .egress (2 ^ 32 - 1))) ∧
    ((3 : Nat) < 2 ^ 10 ∧ (0 : Nat) < 2 ^ 16) ∧
    ¬HoldOver (sCb .combining {}) (eC false [7, 8] 1) ∧
    (∀ red, HoldOver (sCb .combining { combs := [(4, eC red [7, 8] 0)] }) (eC red [7, 8] 0)) ∧
    (∀ red, let s := sCb .combining { combs := [(4, eC red [7, 8] 0)] }
     tget s.fabric.combs 4 = some (eC red [7, 8] 0) ∧ tget s.reqs 7 = some (qC 65535 .combining (2 ^ 32 - 1)) ∧
      tget s.reqs 8 = some (qC 0 .combining (-1)) ∧ (4 : Nat) = bitsOf (eC red [7, 8] 0).wide / 8 ∧ s.fabric.records = []) := by
  refine ⟨⟨rfl, ?_⟩, ⟨⟨rfl, rfl, rfl, rfl⟩, rfl, ?_⟩, ⟨?_, ?_, ?_, ⟨rfl, rfl, rfl, rfl⟩, ?_⟩, ⟨⟨rfl, rfl, rfl, rfl⟩, rfl, ?_, ?_, ?_, rfl, ?_, ?_, rfl⟩,
    ⟨⟨rfl, rfl, rfl, rfl⟩, ?_, ?_, ?_, ?_, ?_, ?_, rfl⟩, ⟨rfl, rfl⟩, by decide, ?_,
    fun red => by unfold HoldOver; cases red <;> decide +kernel, fun red => ⟨rfl, rfl, rfl, ?_, rfl⟩⟩
  · decide +kernel
  · decide +kernel
  · unfold NothingAhead; decide +kernel
  · unfold HeadOfPort; decide +kernel
  · unfold HeadOfPort; decide +kernel
  · unfold NothingAhead; decide +kernel
  · decide +kernel
  · decide +kernel
  · decide +kernel
  · decide +kernel
  · unfold NothingAhead; decide +kernel
  · decide +kernel
  · decide +kernel
  · decide +kernel
  · decide +kernel
  · decide +kernel
  · unfold NothingAhead; decide +kernel
  · unfold HoldOver; decide +kernel
  · show (4 : Nat) = 32 / 8; decide
/-- The last four bytes of the object; a Tabor with room for one more receipt, and a full one. -/
def cA4 (tag off : Nat) : Constituent := ⟨0, tag, 1, off⟩
/-- The table of R312, second round: the list flit of its CREQ. -/
theorem test_listFlits : listFlits [⟨18, 0x31, 4, 0⟩, ⟨10, 0x11, 4, 4⟩, ⟨6, 0x21, 4, 8⟩] = [[0x40000C412, 0x40000440A, 0x400008406, 0]] := by
  decide +kernel

def receiptC (list : List Constituent) : Receipt := ⟨5, 31, 511, list, 2 ^ 32 - 1, 0, 0, 0, false⟩
def msgC (m : Msg) (rs : List Receipt) : State :=
  { sO tm regO objO {} with
    sites := [(0, { siteO regO objO with receipts := rs })]
    reqs := [(7, qC 65535 .combining 1), (8, qC 0 .combining 2)]
    fabric := { msgs := [(6, m)], records := [(recordAt 31 511 4095, ⟨31, 511, [cA4 65535 0, cA4 0 (2 ^ 32 - 1)], false⟩)] } }
def addrC : Nat := (pO + 4092).toNat
theorem appliesC (m : Msg) (rs : List Receipt) : Applies (msgC m rs) 0 addrC 32 objO where
  entry := by show tget [(9, objO)] (addrC / 2 ^ 34 % 2 ^ 29) = _; rw [show addrC / 2 ^ 34 % 2 ^ 29 = 9 by decide +kernel]; rfl
  home := rfl
  inside := by decide +kernel
  sound := rfl
  range := by decide +kernel
  present := by show 0 ∉ []; decide
theorem tagsC (m : Msg) (rs : List Receipt) : TagsUnique (msgC m rs) := by
  have h : (msgC m rs).reqs = [(7, qC 65535 .combining 1), (8, qC 0 .combining 2)] := rfl
  unfold TagsUnique
  rw [h]
  decide +kernel
theorem receiptsC (m : Msg) (rs : List Receipt) : (siteOf (msgC m rs) 0).receipts = rs := by simp [siteOf, msgC, tgetD, tget]
def fullC (n : Nat) : List Receipt := List.replicate n (receiptC [])
theorem witness_CombiningAtTheHome :
    (let m : Msg := .creq 4095 31 511 0 addrC false [cA4 65535 0, cA4 0 1] (2 ^ 32 - 1) 0
     (tget (msgC m (fullC 1023)).fabric.msgs 6 = some m ∧ Applies (msgC m (fullC 1023)) 0 addrC (bitsOf false) objO ∧
       (siteOf (msgC m (fullC 1023)) 0).receipts.length < 1024) ∧
     Applies (msgC m (fullC 1024)) 0 addrC (bitsOf false) objO ∧ 1024 ≤ (siteOf (msgC m (fullC 1024)) 0).receipts.length) ∧
    (let m : Msg := .cred 31 511 0 addrC false [cA4 65535 0, cA4 0 1] 1 0
     tget (msgC m []).fabric.msgs 6 = some m ∧ Applies (msgC m []) 0 addrC (bitsOf false) objO) := by
  refine ⟨⟨⟨rfl, appliesC _ _, ?_⟩, appliesC _ _, ?_⟩, rfl, appliesC _ _⟩
  · rw [receiptsC, fullC, List.length_replicate] <;> decide
  · rw [receiptsC, fullC, List.length_replicate] <;> decide
theorem witness_Combining :
    (let m : Msg := .crsp 4095 31 511 0 (2 ^ 32 - 1) 0 false
     let r : Record := ⟨31, 511, [cA4 65535 0, cA4 0 (2 ^ 32 - 1)], false⟩
     tget (msgC m []).fabric.msgs 6 = some m ∧ tget (msgC m []).fabric.records (recordAt 31 511 4095) = some r ∧
       tget (msgC m []).fabric.records (recordAt 31 511 0) = none ∧ Distinct r.list ∧ r.bad = false ∧ TagsUnique (msgC m [])) ∧
    (let m : Msg := .cack 31 [cA4 65535 0, cA4 0 1] 0 0
     tget (msgC m []).fabric.msgs 6 = some m ∧ TagsUnique (msgC m []) ∧ Distinct [cA4 65535 0, cA4 0 1]) ∧
    (let m : Msg := .split 4095 31 511
     tget (msgC m []).fabric.msgs 6 = some m ∧ TagsUnique (msgC m []) ∧
       (tget (msgC m []).fabric.records (recordAt 31 511 4095)).isSome = true) ∧
    (let m : Msg := .done 5 31 511 0
     tget (msgC m [receiptC []]).fabric.msgs 6 = some m) ∧
    (let m : Msg := .lost 5 31 511 0
     let r := receiptC [cA4 65535 0, cA4 0 1]
     tget (msgC m [r]).fabric.msgs 6 = some m ∧ (siteOf (msgC m [r]) 0).receipts = r :: [] ∧ r.record = 5 ∧ r.plane = 31 ∧ r.port = 511 ∧
       31 ∉ (msgC m [r]).fabric.down) ∧
    (let m : Msg := .drsp 30 31 0 65535 (2 ^ 64 - 1) 0 0
     tget (msgC m []).fabric.msgs 6 = some m ∧ TagsUnique (msgC m []) ∧ tget (msgC m []).reqs 7 = some (qC 65535 .combining 1) ∧
       Carries (qC 65535 .combining 1) 31 ⟨0, 65535, 0, 0⟩ ∧ (qC 65535 .combining 1).items.length = 1) := by
  refine ⟨⟨rfl, rfl, rfl, ?_, rfl, tagsC _ _⟩, ⟨rfl, tagsC _ _, ?_⟩, ⟨rfl, tagsC _ _, rfl⟩, rfl, ⟨rfl, rfl, rfl, rfl, rfl, ?_⟩,
    rfl, tagsC _ _, rfl, ⟨rfl, rfl, rfl⟩, rfl⟩
  · unfold Distinct; decide
  · unfold Distinct; decide
  · show 31 ∉ []; decide

/-! A multicast write of the last 16 bytes of a window of 64, to rank 1023, whose page is in the TLB, or not present. -/
def gM (bytes : Dbl) : Group := { gid := 7, members := 0, rank := 1023, size := 1, base := 0x1000, bytes := bytes }
def cM (bytes : Dbl) (tlb : Tbl Xlat) : Ctx := { cx with groups := [(255, gM bytes)], tlb := tlb, roots := [(0, 0)], out := 1 }
def dM : List (Nat × List Byte) := [(48, List.replicate 16 255)]
def mM (pending : List Nat) (failed : LaneSet) (sent : Bool) : Msg := .mcast 5 2 255 7 30 0 dM pending failed sent
def pageM : Tbl Xlat := [(1, ⟨0x5000, true, false, 0⟩)]
def sMc (bytes : Dbl) (tlb : Tbl Xlat) (ms : Tbl Msg) : State :=
  { st tm bl (cM bytes tlb) ndQ with mem := { cells := [(slotKey 0 0 0, 1)] }, fabric := { msgs := ms } }
/-- What a member's home does: it writes, fails with its cause, or waits for a page. -/
def wrote : McastRes → Nat × Option Nat
  | .done _ => (0, none)
  | .failed c => (1, c)
  | .page off => (2, some off)
theorem wrote_done {x} (h : wrote x = (0, none)) : ∃ s, x = .done s := by cases x <;> simp_all [wrote]
theorem wrote_failed {x} (h : wrote x = (1, none)) : x = .failed none := by cases x <;> simp_all [wrote]
theorem wrote_page {x n} (h : wrote x = (2, some n)) : x = .page n := by cases x <;> simp_all [wrote]
theorem witness_MulticastSteps :
    (tget (sMc 64 pageM [(6, mM [1023] 0 false)]).fabric.msgs 6 = some (mM [1023] 0 false)) ∧
    (∃ x ∈ (sMc 64 pageM [(5, mM [1023] 0 false), (6, mM [1023] 0 false)]).fabric.msgs, x.1 < 6 ∧ x.2 = .mcast 5 2 255 7 30 0 dM [1023] 0 false) ∧
    (let s := sMc 64 pageM [(6, mM [1023] 0 true)]
     tget s.fabric.msgs 6 = some (mM [1023] 0 true) ∧ (∀ x ∈ s.fabric.msgs, x.1 < 6 → sameMcast 2 7 dM x.2 = false) ∧
      ∃ s1, memberWrite s 2 7 1023 dM = .done s1) ∧
    memberWrite (sMc 63 pageM [(6, mM [1023] 0 true)]) 2 7 1023 dM = .failed none ∧
    memberWrite (sMc 64 [] [(6, mM [1023] 0 true)]) 2 7 1023 dM = .page 48 ∧
    (∃ x ∈ (sMc 64 pageM [(5, mM [1023] 0 true), (6, mM [1023] 0 true)]).fabric.msgs, x.1 < 6 ∧ x.2 = .mcast 5 2 255 7 30 0 dM [1023] 0 true) ∧
    (∀ failed, let s := sMc 64 pageM [(6, mM [] failed true)]
     tget s.fabric.msgs 6 = some (mM [] failed true) ∧ Stays s 2 (cM 64 pageM) ∧ tget s.teams 5 = some tm ∧ tm.ended = false ∧
      tm.mcfail = [] ∧ tget (cM 64 pageM).groups 255 = some (gM 64)) ∧
    (1 : LaneSet) ≠ 0 := by
  refine ⟨rfl, ⟨(5, mM [1023] 0 false), ?_, ?_, rfl⟩, ⟨rfl, ?_, wrote_done ?_⟩, wrote_failed ?_, wrote_page ?_, ⟨(5, mM [1023] 0 true), ?_, ?_, rfl⟩,
    fun failed => ⟨rfl, ⟨rfl, rfl, ⟨ndQ, rfl, rfl, rfl, ?_⟩, 1, bl, ?_, rfl, rfl⟩, rfl, rfl, rfl, rfl⟩, ?_⟩ <;> decide +kernel
/-- Device 511 gone or not, every plane down or one up, an error on the page's line. -/
def sMw (bytes : Dbl) (tlb : Tbl Xlat) (f : Fabric) (es : Tbl LineError) : State :=
  { st tm bl cx ndQ with mem := { cells := [(slotKey 511 0 0, 1)] }, ctxs := [(2, cx), (9, { cM bytes tlb with dev := 511 })], fabric := f, errors := es }
def gMM (bytes : Dbl) : Group := gM bytes
def mMm (bytes : Dbl) (tlb : Tbl Xlat) : Ctx := { cM bytes tlb with dev := 511 }
def dM2 : List (Nat × List Byte) := [(0, [1, 2]), (60, [3, 4, 5, 6])]
theorem inMember (off : Nat) (h : (advance (0x1000 : Dbl) (off : Int)).toNat % 2 ^ 60 = 0x1000 + off) (ho : off < 4096) :
    InMember (sMw 64 pageM {} []) (mMm 64 pageM) (gMM 64) off (physKey (sMw 64 pageM {} []) 511 0 (0x5000 + off)) where
  page := by
    refine ⟨⟨0x5000, true, false, 0⟩, ?_, rfl, ?_⟩
    · show xlate _ _ 0 ((advance (0x1000 : Dbl) (off : Int)).toNat % 2 ^ 60) = _
      rw [h, xlate, if_neg (by omega)]
      show (match tget pageM (0 * 2 ^ 48 + (0x1000 + off) / 4096) with | some x => Walk.page x | none => _) = _
      rw [show 0 * 2 ^ 48 + (0x1000 + off) / 4096 = 1 by omega]; rfl
    · show _ = physKey _ 511 0 (0x5000 + (advance (0x1000 : Dbl) (off : Int)).toNat % 2 ^ 60 % 4096)
      rw [h, show (0x1000 + off) % 4096 = off by omega]
  sound := rfl
theorem witness_MemberWrites :
    (∀ f es, tget (sMw 64 pageM f es).ctxs 2 = some cx) ∧
    (memberOf (sMw 64 pageM {} []) 8 1023 = none ∧ ∀ b tlb f es, memberOf (sMw b tlb f es) 7 1023 = some (9, mMm b tlb, gMM b)) ∧
    ((∀ p, p < 32 → p ∈ (sMw 64 pageM { down := List.range 32 } []).fabric.down) ∧
      (let s := sMw 64 pageM { absent := [511] } []
       (∃ p, p < 32 ∧ p ∉ s.fabric.down) ∧ (mMm 64 pageM).dev ≠ cx.dev ∧ (mMm 64 pageM).dev ∈ s.fabric.absent)) ∧
    (∀ b tlb es, Reach (sMw b tlb {} es) cx 511) ∧
    (∃ x ∈ dM2, (gMM 63).bytes.toNat < x.1 + x.2.length) ∧ (∀ x ∈ dM2, x.1 + x.2.length ≤ (gMM 64).bytes.toNat) ∧
    (let s := sMw 64 pageM {} []
     let key := fun off => physKey s 511 0 (0x5000 + off)
     (∀ x ∈ dM2, InMember s (mMm 64 pageM) (gMM 64) x.1 (key x.1)) ∧ (∀ x ∈ dM2, ∀ i, i < x.2.length → OwnLine s (key x.1 + i)) ∧
       dM2.Pairwise (fun x y => key x.1 + x.2.length ≤ key y.1 ∨ key y.1 + y.2.length ≤ key x.1)) ∧
    (xlate (sMw 64 [] {} []) (mMm 64 []) 0 0x1030 = .absent false ∧ xlate (sMw 64 [] {} []) { mMm 64 [] with roots := [] } 0 0x1030 = .none ∧
      xlate (sMw 64 [] {} []) (mMm 64 [(1, ⟨0x5000, false, false, 0⟩)]) 0 0x1030 = .page ⟨0x5000, false, false, 0⟩) := by
  refine ⟨fun _ _ => rfl, ⟨?_, fun _ _ _ _ => rfl⟩, ⟨?_, ⟨0, ?_, ?_⟩, ?_, ?_⟩, fun _ _ _ => .inr ⟨show 511 ∉ [] by decide, show 511 < 512 by decide, 0, by decide, show 0 ∉ [] by decide⟩, ⟨(60, [3, 4, 5, 6]), ?_, ?_⟩, ?_,
    ⟨fun x hx => ?_, fun x hx => ?_, ?_⟩, ?_, ?_, ?_⟩
  case refine_10 =>
    rcases List.mem_cons.1 hx with rfl | hx
    · exact inMember 0 (by decide +kernel) (by decide)
    · obtain rfl := List.mem_singleton.1 hx
      exact inMember 60 (by decide +kernel) (by decide)
  case refine_11 =>
    have h : ∀ x ∈ dM2, ∀ i, i < x.2.length → let k := physKey (sMw 64 pageM {} []) 511 0 (0x5000 + x.1) + i
        rekeys (sMw 64 pageM {} []).mem k = false ∧ frameOwner (sMw 64 pageM {} []) (k / 2 ^ 64 - 1) (k % 2 ^ 56) = none := by decide +kernel
    exact fun i hi => .inr (.inr (h x hx i hi))
  all_goals decide +kernel

/-! Services: k2.d points at the argument, k6.d receives the status; the argument ends with the scratchpad of 65,536 bytes. -/
def tmV (off : Nat) (w : Wait) : Team := { tm with k := [(2, BitVec.ofNat 32 off), (3, 0x20000000)], wait := w, pc := pO + 4088 }
def bV : Block := { bl with spad := 65536 }
def oV (n : BitVec 32) : I64 := ⟨n, false, 0, 2, 6, 0⟩
/-- A node whose code ends with an instruction of eight bytes. -/
def nC (x : Nat) : Node := { nd with
  desc := { nd.desc with kernel := pO }, codeSize := 4096
  code := { cells := (List.range 8).filterMap (fun i => if x / 256 ^ i % 256 = 0 then none else some ((pO + 4088).toNat + i, BitVec.ofNat 8 (x / 256 ^ i))) } }
def cellsV (off : Nat) (xs : List (Nat × Byte)) : Memory := { cells := xs.map (fun x => (spadKey 1 off + x.1, x.2)) }
def cV : Ctx := { cG with tlb := [(3 * 2 ^ 48 + 5, ⟨0x5000, true, false, 0⟩)] }
def devV (final : Bool) : Device := { units := [(unitL, { final := final })], vfcores := [(0, { log := [⟨4095, 32, 31, 0xC0⟩] })] }
def sV (off : Nat) (w : Wait) (c : Ctx) (n : Node) (m : Memory) (final : Bool := false) : State :=
  { st (tmV off w) bV c n with mem := m, devs := [(0, devV final)] }
theorem serveV (off n : Nat) (o : I64) (c : Ctx) (m : Memory) (ho : o = oV (BitVec.ofNat 32 n)) (hn : n < 65536) (hd : c.dev = 0)
    (final : Bool := false) : Serving (sV off .sys c nd m final) (tmV off .sys) bV c o n (.sys o) where
  resident := ⟨nd, res_of rfl rfl (by show tm.mask ≠ 0; decide) rfl rfl rfl, .inl rfl⟩
  waits := rfl
  up := by rw [hd]; rfl
  number := by rw [ho]; show (BitVec.ofNat 32 n).toNat % 2 ^ 16 = n; rw [BitVec.toNat_ofNat]; omega
  registers := by
    rw [ho]
    exact unis rfl (by decide : ([(kdI (oV 0), 2)] ++ [(kaI (oV 0), 2)]).all (fun x => x.1 % x.2 == 0) = true)
theorem rangeV {s : State} {t : Team} {b : Block} {ea : Dbl} {n : Nat} (he : s.errors = [])
    (h : ea.getLsbD 63 = false ∧ sub ea 60 3 = 2 ∧ sub ea 57 3 = 0 ∧ sub ea 0 57 + n ≤ b.spad ∧ sub ea 0 57 + n < 2 ^ 57) :
    OwnRange s t b ea n := ⟨h.1, h.2.1, h.2.2.1, h.2.2.2.1, h.2.2.2.2, fun i _ => by rw [he]; rfl⟩

/-- SYS posts and is held back; NOP by the SYS itself and by firmware's event; the lowest and the highest number that is no service. -/
theorem witness_FirmwareServicesCalls :
    (Resident (sV 0 .none cV nd {}) (tmV 0 .none) bV cV nd ∧ (tmV 0 .none).wait ≠ .sys ∧ bV.provisional = false ∧ cV.out = 0 ∧ cV.parked = []) ∧
    (let c : Ctx := { cV with out := 1 }
     Resident (sV 0 .none c nd {}) (tmV 0 .none) bV c nd ∧ c.out ≠ 0) ∧
    (∀ n, n = 0 ∨ n = 7 ∨ n = 65535 → Serving (sV 0 .sys cV nd {}) (tmV 0 .sys) bV cV (oV (BitVec.ofNat 32 n)) n (.sys (oV (BitVec.ofNat 32 n)))) ∧
    (let n := nC ((encode (.sys (oV 0))).getD 0)
     let call : SvcCall := ⟨0, 0, some 5, 0⟩
     Serving (sV 0 .sys cV n {}) (tmV 0 .sys) bV cV (oV 0) 0 (.svcNop call)) := by
  refine ⟨⟨res_of rfl rfl (by show tm.mask ≠ 0; decide) rfl rfl rfl, (fun h => by cases h), rfl, rfl, rfl⟩,
    ⟨res_of rfl rfl (by show tm.mask ≠ 0; decide) rfl rfl rfl, by decide +kernel⟩,
    fun n h => serveV 0 n _ cV {} rfl (by omega) rfl, ⟨⟨nC ((encode (.sys (oV 0))).getD 0), res_of rfl rfl (by show tm.mask ≠ 0; decide) rfl rfl rfl, .inr
      ⟨⟨0, 0, some 5, 0⟩, (encode (.sys (oV 0))).getD 0, 8, .inl ⟨rfl, rfl⟩, rfl, by decide +kernel, ?_, by decide +kernel⟩⟩, rfl, by decide +kernel, by decide +kernel, unis rfl (by decide +kernel)⟩⟩
  have h : (match fetchWord ⟨tmV 0 .sys, bV, cV, nC ((encode (.sys (oV 0))).getD 0)⟩ (pO + 4088) with
    | .ok p => decide (p = ((encode (.sys (oV 0))).getD 0, 8))
    | .error _ => false) = true := by decide +kernel
  revert h
  show _ → fetchWord ⟨tmV 0 .sys, bV, cV, nC ((encode (.sys (oV 0))).getD 0)⟩ (pO + 4088) = _
  generalize fetchWord ⟨tmV 0 .sys, bV, cV, nC ((encode (.sys (oV 0))).getD 0)⟩ (pO + 4088) = x
  cases x <;> simp

/-- UNIT.create of levels 1 to 3 (at the last level without a parent, at level 2 under a launch unit), and of levels 0 and 4. -/
def mU (level : Nat) (parent : Bool) : Memory :=
  cellsV 65512 (([(0, BitVec.ofNat 8 level)].filter fun _ => decide (level ≠ 0)) ++ if parent then [(8, 1), (15, 0xC0)] else [])
theorem witness_FirmwareServicesUnits :
    OwnRange (sV 65512 .sys cV nd (mU 3 false)) (tmV 65512 .sys) bV (kgetD (tmV 65512 .sys) (kaI (oV 1))) 24 ∧
    (∀ level parent final, Serving (sV 65512 .sys cV nd (mU level parent) final) (tmV 65512 .sys) bV cV (oV 1) 1 (.sys (oV 1))) ∧
    (∀ level, level ∈ [0, 1, 3, 4] → arg (sV 65512 .sys cV nd (mU level false)) (tmV 65512 .sys) (kgetD (tmV 65512 .sys) 2) 0 8 = level ∧
      arg (sV 65512 .sys cV nd (mU level false)) (tmV 65512 .sys) (kgetD (tmV 65512 .sys) 2) 8 8 = 0) ∧
    arg (sV 65512 .sys cV nd (mU 2 true)) (tmV 65512 .sys) (kgetD (tmV 65512 .sys) 2) 0 8 = 2 ∧
    arg (sV 65512 .sys cV nd (mU 2 true)) (tmV 65512 .sys) (kgetD (tmV 65512 .sys) 2) 8 8 = unitL ∧
    unitL / 2 ^ 62 % 4 = 3 ∧ unitL / 2 ^ 57 % 32 = cV.vf ∧
    ∀ final, tget (devOf (sV 65512 .sys cV nd (mU 2 true) final) cV.dev).units unitL = some { final := final } :=
  ⟨rangeV rfl (by decide +kernel), fun _ _ final => serveV 65512 1 _ cV _ rfl (by decide +kernel) rfl final, by decide +kernel, by decide +kernel, by decide +kernel,
    by decide +kernel, by decide +kernel, fun _ => rfl⟩

/-- GROUP.set of entry 255, rank 1023 of that rank alone, and with an entry, a rank and a rank set out of range; GROUP.clear of a valid entry
and out of range; MAP.inval of region 3 and of region 2; FAULT.read and ATTEST into the start of the scratchpad. -/
theorem witness_FirmwareServicesGroups :
    (∀ m, Serving (sV 65344 .sys cV nd m) (tmV 65344 .sys) bV cV (oV 2) 2 (.sys (oV 2))) ∧
    OwnRange (sV 65344 .sys cV nd {}) (tmV 65344 .sys) bV (kgetD (tmV 65344 .sys) 2) 192 ∧
    (let s := sV 65344 .sys cV nd { cells := [(spadKey 1 65344, 255), (spadKey 1 65348, 9), (spadKey 1 65352, 255), (spadKey 1 65353, 3), (spadKey 1 65535, 0x80)] }
     let a := arg s (tmV 65344 .sys) (kgetD (tmV 65344 .sys) 2)
     a 0 4 = 255 ∧ a 8 8 = 1023 ∧ (BitVec.ofNat 1024 (a 64 128)).getLsbD 1023 = true ∧ a 16 8 = 0) ∧
    (let s := sV 65344 .sys cV nd { cells := [(spadKey 1 65345, 1), (spadKey 1 65353, 4)] }
     let a := arg s (tmV 65344 .sys) (kgetD (tmV 65344 .sys) 2)
     a 0 4 = 256 ∧ a 8 8 = 1024 ∧ (BitVec.ofNat 1024 (a 64 128)).getLsbD 1023 = false) ∧
    (∀ m, Serving (sV 65532 .sys cV nd m) (tmV 65532 .sys) bV cV (oV 3) 3 (.sys (oV 3))) ∧
    OwnRange (sV 65532 .sys cV nd {}) (tmV 65532 .sys) bV (kgetD (tmV 65532 .sys) 2) 4 ∧
    arg (sV 65532 .sys cV nd (cellsV 65532 [(0, 255)])) (tmV 65532 .sys) (kgetD (tmV 65532 .sys) 2) 0 4 = 255 ∧
    arg (sV 65532 .sys cV nd (cellsV 65532 [(1, 1)])) (tmV 65532 .sys) (kgetD (tmV 65532 .sys) 2) 0 4 = 256 ∧ tget cV.groups 255 = some gS ∧
    (∀ m, (sV 65532 .sys cV nd m).colls = []) ∧ ∀ m, ∀ x ∈ (sV 65512 .sys cV nd m).blocks, ∀ y ∈ x.2.copyQ ++ x.2.gathQ, y.landing = [] := by
  refine ⟨fun _ => serveV 65344 2 _ cV _ rfl (by decide +kernel) rfl, rangeV rfl (by decide +kernel), by decide +kernel, by decide +kernel,
    fun _ => serveV 65532 3 _ cV _ rfl (by decide +kernel) rfl, rangeV rfl (by decide +kernel), by decide +kernel, by decide +kernel, rfl, fun _ => rfl,
    fun _ => by show ∀ x ∈ [(1, bV)], ∀ y ∈ x.2.copyQ ++ x.2.gathQ, y.landing = []; decide⟩
theorem natBytes_size (n x : Nat) : (natBytes n x).length = n := by
  induction n generalizing x with
  | zero => rfl
  | succ n ih => simp [natBytes, ih]
theorem witness_FirmwareServices :
    (∀ m, Serving (sV 65512 .sys cV nd m) (tmV 65512 .sys) bV cV (oV 4) 4 (.sys (oV 4))) ∧
    (∀ m, Serving (sV 65512 .sys cV nd m) (tmV 65512 .sys) bV cV (oV 5) 5 (.sys (oV 5))) ∧
    OwnRange (sV 65512 .sys cV nd {}) (tmV 65512 .sys) bV (kgetD (tmV 65512 .sys) 2) 24 ∧
    arg (sV 65512 .sys cV nd (cellsV 65512 [(0, 3)])) (tmV 65512 .sys) (kgetD (tmV 65512 .sys) 2) 0 8 = 3 ∧
    arg (sV 65512 .sys cV nd (cellsV 65512 [(0, 2)])) (tmV 65512 .sys) (kgetD (tmV 65512 .sys) 2) 0 8 = 2 ∧
    (let s := sV 65512 .sys cV nd (cellsV 65512 [(7, 0x20), (8, 1)])
     arg s (tmV 65512 .sys) (kgetD (tmV 65512 .sys) 2) 0 8 = 0x2000000000000000 ∧ arg s (tmV 65512 .sys) (kgetD (tmV 65512 .sys) 2) 8 8 = 1 ∧
      (vfOf s cV.dev cV.vf).log = [⟨4095, 32, 31, 0xC0⟩]) ∧
    OwnRange (sV 65512 .sys cV nd {}) (tmV 65512 .sys) bV 0x2000000000000000 (([⟨4095, 32, 31, 0xC0⟩] : List FaultEntry).flatMap faultBytes).length ∧
    (∀ m, Serving (sV 65496 .sys cV nd m) (tmV 65496 .sys) bV cV (oV 6) 6 (.sys (oV 6))) ∧
    OwnRange (sV 65496 .sys cV nd {}) (tmV 65496 .sys) bV (kgetD (tmV 65496 .sys) 2) 40 ∧
    (∀ s nonce, nonce.length = 32 → OwnRange (sV 65496 .sys cV nd {}) (tmV 65496 .sys) bV 0x2000000000000000 (attestBytes s 0 nonce).length) ∧
    (∀ (call : SvcCall), call.team = some 5 → ServiceEvent call 6 (.attest call) ∧ tget (sV 0 .none cV nd {}).teams 5 = some (tmV 0 .none)) ∧
    fwUp (sV 0 .none cV nd {}) 0 = true := by
  have hf : (([⟨4095, 32, 31, 0xC0⟩] : List FaultEntry).flatMap faultBytes).length < 64 := by
    simp only [List.flatMap_cons, List.flatMap_nil, List.append_nil, faultBytes, natBytes_size]
    exact Config.faultEntrySize.isLt
  have ha : ∀ s nonce, nonce.length = 32 → (attestBytes s 0 nonce).length = 3076 := by
    intro s nonce h
    have hd : ∀ l : List (BitVec 256), (l.flatMap fun d => natBytes 32 d.toNat).length = 32 * l.length := by
      intro l
      induction l with
      | nil => rfl
      | cons d l ih => rw [List.flatMap_cons, List.length_append, natBytes_size, ih, List.length_cons]; omega
    have hm : (measured s 0).length = 19 := by
      simp only [measured, List.length_append, List.length_cons, List.length_map, List.length_range, List.length_nil]
    unfold attestBytes
    rw [List.length_append, natBytes_size]
    unfold attested
    rw [List.length_append, List.length_append, List.length_append, natBytes_size, natBytes_size, hd, hm, h]
  have hz : sub (0x2000000000000000 : Dbl) 0 57 = 0 := by decide +kernel
  refine ⟨fun _ => serveV 65512 4 _ cV _ rfl (by decide +kernel) rfl, fun _ => serveV 65512 5 _ cV _ rfl (by decide +kernel) rfl, rangeV rfl (by decide +kernel),
    by decide +kernel, by decide +kernel, by decide +kernel, rangeV rfl ⟨by decide +kernel, by decide +kernel, by decide +kernel, ?_, ?_⟩,
    fun _ => serveV 65496 6 _ cV _ rfl (by decide +kernel) rfl, rangeV rfl (by decide +kernel), fun s nonce h => rangeV rfl ⟨by decide +kernel, by decide +kernel, by decide +kernel, ?_, ?_⟩,
    fun call h => ⟨.inr (.inr (.inr (.inr (.inr (.inr ⟨rfl, rfl⟩))))), rfl⟩, by decide +kernel⟩
  · rw [hz]; show _ ≤ 65536; omega
  · rw [hz]; omega
  · have := ha s nonce h; rw [hz]; show _ ≤ 65536; omega
  · have := ha s nonce h; rw [hz]; omega

/-! Rings: the control block of ring 7 of VF 15 at 0x1000 of host memory, one slot at 0x2000, about to wrap its read index. -/
def rH (p : Option Nat) : Ring := { control := 0x1000, pending := p }
def hostH (slot rest : List (Nat × Byte)) : Memory :=
  { cells := ([(0x1001, (0x20 : Byte))] ++ (List.range 8).map (fun i => (0x1080 + i, (255 : Byte))) ++ (List.range 8).map (fun i => (0x2000 + i, (255 : Byte))) ++
      slot.map (fun (x : Nat × Byte) => (0x2000 + x.1, x.2)) ++ rest).map (fun (x : Nat × Byte) => (hostKey x.1, x.2)) }
def devH (p : Option Nat) (sch : Tbl Word := [(15, 0x8A001A00)]) : Device :=
  { vfcores := [(15, { rings := [(7, rH p)] })], vfsch := sch, units := [(unitL, { vf := 15 }), (unitH, {  vf := 15 })] }
where unitH : Nat := 3 * 2 ^ 62 + 15 * 2 ^ 57 + 1
def sH (p : Option Nat) (slot rest : List (Nat × Byte)) (sch : Tbl Word := [(15, 0x8A001A00)]) : State :=
  { mem := hostH slot rest, devs := [(511, devH p sch)], sites := [(0, siteO regO { objO with owner := 15 })] }
theorem published (p : Option Nat) (slot rest : List (Nat × Byte)) (header : Nat) {sch : Tbl Word}
    (h : readNat (hostH slot rest) (hostKey 0x10C0) 8 / 2 ^ 63 = 0 ∧
      readNat (hostH slot rest) (hostKey (readNat (hostH slot rest) (hostKey 0x1000) 8 + readNat (hostH slot rest) (hostKey 0x1080) 8 % 2 ^ readNat (hostH slot rest) (hostKey 0x1008) 1 * 64)) 8 = readNat (hostH slot rest) (hostKey 0x1080) 8 ∧
      readNat (hostH slot rest) (hostKey (readNat (hostH slot rest) (hostKey 0x1000) 8 + readNat (hostH slot rest) (hostKey 0x1080) 8 % 2 ^ readNat (hostH slot rest) (hostKey 0x1008) 1 * 64 + 8)) 8 = header) :
    Published (sH p slot rest sch) 511 15 7 (rH p) header where
  up := rfl
  ring := ⟨_, _, rfl, rfl, rfl⟩
  running := h.1
  sequence := h.2.1
  header := h.2.2

/-- A slot of the last type and length; of the types 0 and 5, of a length of 49 and with each reserved field set. -/
theorem witness_RingsAndHostFound :
    Published (sH none [(8, 4), (10, 48)] []) 511 15 7 (rH none) 0x300004 ∧ (rH none).pending = none ∧ 0x300004 % 256 = 4 ∧
    0x300004 / 2 ^ 16 % 64 = 48 ∧ 0x300004 / 2 ^ 8 % 256 = 0 ∧ 0x300004 / 2 ^ 22 % 1024 = 0 ∧
    (∀ x ∈ ([([], 0), ([(8, 5)], 5), ([(8, 1), (10, 49)], 0x310001), ([(8, 1), (9, 1)], 0x101), ([(8, 1), (11, 0x80)], 0x80000001)] :
        List (List (Nat × Byte) × Nat)), Published (sH none x.1 []) 511 15 7 (rH none) x.2) ∧ 0x80000001 / 2 ^ 22 % 1024 ≠ 0 := by
  refine ⟨published _ _ _ _ ?_, rfl, ?_, ?_, ?_, ?_, fun x hx => published _ _ _ _ ?_, ?_⟩
  case refine_6 => revert x; decide +kernel
  all_goals decide +kernel

/-- NOP; CANCEL of a unit of another VF and of an own one; SVC 0, 7 and 65535. -/
def slotCancel (own : Bool) : List (Nat × Byte) := [(8, 3), (10, 48), (16, 1), (23, if own then 0xDE else 0xC0), (24, 3)]
theorem witness_RingsAndHostSlots :
    Published (sH (some 4) [(8, 4)] []) 511 15 7 (rH (some 4)) 4 ∧
    (∀ own, own = true ∨ own = false → let s := sH (some 3) (slotCancel own) []
      Published s 511 15 7 (rH (some 3)) 0x300003 ∧ ringSlot s (rH (some 3)).control = 0x2000 ∧ readNat s.mem (hostKey (0x2000 + 24)) 1 = 3 ∧
      readNat s.mem (hostKey (0x2000 + 16)) 8 / 2 ^ 62 % 4 = 3 ∧ (own = true → readNat s.mem (hostKey (0x2000 + 16)) 8 / 2 ^ 57 % 32 = 15) ∧
      (own = true → unit s 511 (readNat s.mem (hostKey (0x2000 + 16)) 8) = some { vf := 15 }) ∧
      (own = false → readNat s.mem (hostKey (0x2000 + 16)) 8 / 2 ^ 57 % 32 ≠ 15) ∧ s.nodes = []) ∧
    (∀ n, n ∈ [0, 7, 0xFFFF] → let s := sH (some 2) [(8, 2), (10, 48), (16, BitVec.ofNat 8 n), (17, BitVec.ofNat 8 (n / 256)), (33, 0x40)] []
      Published s 511 15 7 (rH (some 2)) 0x300002 ∧ ringSlot s (rH (some 2)).control = 0x2000 ∧
      readNat s.mem (hostKey (0x2000 + 16)) 2 = n ∧ readNat s.mem (hostKey (0x2000 + 32)) 8 = 0x4000 ∧ Apart (rH (some 2)) 0x4000) := by
  refine ⟨published _ _ _ _ (by decide +kernel), fun own h => ?_, fun n h => ?_⟩
  · rcases h with rfl | rfl
    all_goals
      refine ⟨published _ _ _ _ ?_, ?_, ?_, ?_, ?_, ?_, ?_, rfl⟩
      all_goals decide +kernel
  · simp at h
    rcases h with rfl | rfl | rfl <;>
      exact ⟨published _ _ _ _ (by decide +kernel), by decide +kernel, by decide +kernel, by decide +kernel, .inr (by decide +kernel)⟩

/-- A NODE slot with its descriptor at 0x3000 (held back by an edge to a unit of the VF) and its reply at 0x5000; with a size that is refused,
and of a VF whose share of the pool is used up. -/
def edgeH : List (Nat × Byte) := [(0x301F, 1), (0x3048, 0xFF), (0x3049, 0xFF), (0x304A, 0xFF), (0x304B, 0xFF), (0x3050, 1), (0x3084, 32),
  (0x30C0, 1), (0x30C7, 0xDE), (0x30C8, 1)]
def nodeH (first : Byte) (sch : Tbl Word := [(15, 0x8A001A00)]) : State :=
  sH (some 1) [(8, 1), (10, 48), (17, 0x30), (25, 0x50)] ([(0x3004, 0x24), (0x3007, 0x80), (0x3008, first)] ++ edgeH) sch
def bytesH (first : Byte) : List Byte := readBytes (nodeH first).mem (hostKey 0x3000) 832
def nH (sch : Tbl Word) : Node :=
  let d := parseDesc (bytesH 1)
  { dev := 511, vf := 15, entry := freeEntry (nodeH 1 sch) 511, ident := identOf 0 15 (devOf (nodeH 1 sch) 511).serial, desc := d,
    state := .waiting, priority := d.priority, blocks := d.grid, p := BitVec.ofNat 64 d.grid }
theorem codeH (sch : Tbl Word) (n : Nat) : codeMapped (nodeH 1 sch) 511 15 n 0x8000002400000000 = true := by
  unfold codeMapped
  rw [if_pos (by decide +kernel)]
  exact (Bool.and_eq_true _ _).mpr ⟨by decide +kernel, rfl⟩
theorem acceptH (sch : Tbl Word) (h : sch = [(15, 0x8A001A00)] ∨ sch = []) : descAccepted (nodeH 1 sch) (bytesH 1) (nH sch) = true := by
  have hc : codeMapped (nodeH 1 sch) (nH sch).dev (nH sch).vf (nH sch).ident (nH sch).desc.kernel = true := by
    have hk : (nH sch).desc.kernel = 0x8000002400000000 := by show (parseDesc (bytesH 1)).kernel = _; decide +kernel
    rw [hk]; exact codeH sch _
  simp only [descAccepted, hc, Bool.and_true, Bool.and_eq_true]
  rcases h with rfl | rfl <;> decide +kernel
theorem madeH : ∃ s1 e ident, createNode (nodeH 1) 511 15 (bytesH 1) = .made s1 e ident ∧ s1.mem = (nodeH 1).mem := by
  unfold createNode
  have h := acceptH [(15, 0x8A001A00)] (.inl rfl)
  simp only [nH] at h
  simp only [h, Bool.not_true, Bool.false_eq_true, if_false]
  rw [if_neg (by decide +kernel)]
  exact ⟨_, _, _, rfl, by decide +kernel⟩
theorem fullH : createNode (nodeH 1 []) 511 15 (bytesH 1) = .full := by
  unfold createNode
  have h := acceptH [] (.inr rfl)
  simp only [nH] at h
  simp only [h, Bool.not_true, Bool.false_eq_true, if_false]
  exact if_pos (by decide +kernel)
theorem witness_RingsAndHostNode :
    (∀ first, first = 1 ∨ first = 0 → Published (nodeH first) 511 15 7 (rH (some 1)) 0x300001 ∧ ringSlot (nodeH first) (rH (some 1)).control = 0x2000 ∧
      readNat (nodeH first).mem (hostKey (0x2000 + 16)) 8 = 0x3000 ∧ readNat (nodeH first).mem (hostKey (0x2000 + 24)) 8 = 0x5000) ∧
    (∃ s1 e ident, createNode (nodeH 1) 511 15 (bytesH 1) = .made s1 e ident ∧ s1.mem = (nodeH 1).mem) ∧
    createNode (nodeH 0) 511 15 (bytesH 0) = .refused ∧
    (Published (nodeH 1 []) 511 15 7 (rH (some 1)) 0x300001 ∧ createNode (nodeH 1 []) 511 15 (bytesH 1) = .full) ∧
    Apart (rH (some 1)) 0x5000 ∧ Apart (rH (some 1)) (0x3000 + 0x78) ∧ 0x3000 + 0x80 ≤ 0x5000 := by
  refine ⟨fun first h => ?_, madeH, answerL_refused (by decide +kernel), ⟨published _ _ _ _ (by decide +kernel), fullH⟩,
    .inr (by decide +kernel), .inr (by decide +kernel), by decide +kernel⟩
  rcases h with rfl | rfl <;> exact ⟨published _ _ _ _ (by decide +kernel), by decide +kernel, by decide +kernel, by decide +kernel⟩

/-- The last byte of the 4 TiB of the last device, under the last key slot; the last word of an object, and of host memory; a word with an
error. -/
def sBar : State := sO tm regO { objO with frames := [] } {}
def sErr : State := { mem := {}, errors := [(errLine (slotKey 0 0 64), ⟨0x2C0, 1⟩)] }
/-- A table of device 0 whose entries 0, 63 and 511 lead to itself: the last word of the 64 GiB of shared pages lies in it. -/
def cPg : Ctx := { cx with dev := 0, roots := [(3, 0)] }
def sPg : State := { mem := { cells := [(slotKey 0 0 0, 5), (slotKey 0 0 504, 5), (slotKey 0 0 4088, 5)] }, ctxs := [(2, cPg)] }
theorem linkA {s : State} {dev : Nat} (h : decide (dev < s.fabric.devices) && (devOf s dev).powered && !(devOf s dev).recovery &&
    decide (5 ≤ (devOf s dev).bringup) = true) : LinkUp s dev := by
  simp only [Bool.and_eq_true, decide_eq_true_eq, Bool.not_eq_true'] at h
  exact ⟨h.1.1.1, h.1.1.2, h.1.2, h.2⟩
theorem witness_RingsAndHostAccesses :
    HostKey { mem := {} } ⟨.phys 511 63 (2 ^ 42 - 1), 1, 255, 0⟩ (physKey { mem := {} } 511 63 (2 ^ 42 - 1)) ∧
    HostKey sBar ⟨.object (pO + 4088), 8, 1, 2⟩ (pO + 4088).toNat ∧
    HostKey { mem := {} } ⟨.host (2 ^ 64 - 8), 8, 0xFFFFFFFFFFFFFFFF, 0⟩ (hostKey (2 ^ 64 - 8)) ∧
    tget ({ mem := {} } : State).errors (errLine (hostKey (2 ^ 64 - 8))) = none ∧
    OwnLine ({ mem := {} } : State) (hostKey (2 ^ 64 - 8)) ∧
    HostKey sPg ⟨.page 2 (2 ^ 36 - 8), 8, 7, 0⟩ (slotKey 0 0 0xFF8) ∧
    tget sErr.errors (errLine (physKey sErr 0 0 64)) ≠ none ∧ HostKey sErr ⟨.phys 0 0 64, 4, 0, 0⟩ (physKey sErr 0 0 64) := by
  refine ⟨⟨?_, .inl ⟨511, 63, _, rfl, ?_, linkA ?_, ?_, ?_, rfl⟩⟩, ⟨?_, .inr (.inl ⟨pO + 4088, 0, _, rfl, ?_, ?_, rfl, linkA ?_, ?_, rfl⟩)⟩,
    ⟨?_, .inr (.inr (.inr ⟨_, rfl, ?_, ?_, rfl⟩))⟩, rfl, .inr (.inr ?_), ⟨?_, .inr (.inr (.inl ⟨2, 2 ^ 36 - 8, cPg, 0, ⟨0, false, false, 0⟩, rfl, ?_, ?_, rfl, linkA ?_, rfl, ?_, ?_⟩))⟩, ?_, ?_, .inl ⟨0, 0, 64, rfl, ?_, linkA ?_, ?_, ?_, rfl⟩⟩ <;> decide +kernel
/-- The last words of the MSI-X table and of the mailbox of VF 15, and its status. -/
theorem witness_VfBarAccesses :
    LinkUp { mem := {} } 511 ∧ (∀ off, off = 0x83F8 ∨ off = 0x2008 → (⟨.vfBar 511 15 off, 8, 5, 0⟩ : HostAccess).place = .vfBar 511 15 off ∧
      ((0x8000 ≤ off ∧ off + 8 ≤ 0x8400) ∨ (0x2008 ≤ off ∧ off + 8 ≤ 0x2010))) ∧ ¬LinkUp { mem := {}, devs := [(511, { recovery := true })] } 511 :=
  ⟨linkA (by decide +kernel), fun off h => ⟨rfl, by omega⟩, fun h => by cases h.sane⟩
/-- Every register over I3C at a device in recovery mode, whose link is down; over BAR 0 where it is up. -/
theorem witness_RingsAndHost :
    (let s : State := { mem := {}, devs := [(511, { recovery := true })] }
     511 < s.fabric.devices ∧ (devOf s 511).powered = true ∧ ¬LinkUp s 511) ∧ LinkUp { mem := {} } 511 :=
  ⟨⟨by decide +kernel, rfl, fun h => by cases h.sane⟩, linkA (by decide +kernel)⟩

/-! The debugger: the team halted, its detached lane 31; its code ends with a word of eight bytes. -/
def tmH : Team := { tm with halt := some (0x304, 0), pc := pO + 4088, mask := 0x80000001 }
def tmD (l : Nat) : Team := { tm with halt := some (0x304, 0), mask := 0x7FFFFFFF, detach := some ⟨l, pO + 4088, 0⟩, pc := pO + 4088, size := 32 }
def cH : Ctx := { cx with attached := true, dbc := [(7, 1)], dwc := [(3, 5)] }
/-- Its only lane is detached, and a path is pending. -/
def tmEmpty : Team := { tmD 31 with mask := 0, frames := [{ join := 0x3000, pending := [⟨0x2000, 1⟩] }] }
def sH' (t : Team) (c : Ctx) (n : Node) : State := st t bl c n
theorem witness_DebugUnitHalts :
    (tget (sH' tmH cx nd).ctxs 2 = some cx ∧ cx.attached = false ∧ ctxTeams (sH' tmH cx nd) cx = [(5, tmH)]) ∧
    (tget (sH' tm cH nd).ctxs 2 = some cH ∧ ctxTeams (sH' tm cH nd) cH = [(5, tm)] ∧ tget cH.dbc 7 = some 1 ∧ tget cH.dwc 3 = some 5) ∧
    (ctxTeams (sH' tmEmpty cH nd) cH = [(5, tmEmpty)] ∧ tmEmpty.detach = some ⟨31, pO + 4088, 0⟩ ∧ tmEmpty.mask = 0 ∧ tmEmpty.ended = false ∧
      tmEmpty.frames = { join := 0x3000, pending := [⟨0x2000, 1⟩] } :: []) ∧
    (viewOf (sH' tmH cx nd) 5 = some ⟨tmH, bl, cx, nd⟩ ∧ tmH.halt ≠ none ∧ tmH.detach = none ∧ tmH.mask.getLsbD 31 = true ∧ tmH.served = 0) ∧
    (viewOf (sH' (tmD 31) cx nd) 5 = some ⟨tmD 31, bl, cx, nd⟩ ∧ (tmD 31).halt ≠ none ∧ (tmD 31).detach = some ⟨31, pO + 4088, 0⟩ ∧
      (tmD 31).pc = pO + 4088 ∧ (tmD 31).mask ≠ 0) ∧
    (let t := { tmD 31 with running := true }
     viewOf (sH' t cx nd) 5 = some ⟨t, bl, cx, nd⟩ ∧ t.running = true ∧ t.detach = some ⟨31, pO + 4088, 0⟩ ∧ t.pc = pO + 4088 ∧ t.frames.length = 0) ∧
    (let t := { tmD 31 with running := true, detach := some ⟨31, pO, 1⟩ }
     viewOf (sH' t cx nd) 5 = some ⟨t, bl, cx, nd⟩ ∧ t.frames.length < 1 ∧ pO ≠ t.pc) ∧
    (viewOf (sH' tm cx nd) 5 = some ⟨tm, bl, cx, nd⟩ ∧ tm.running = false ∧ tm.halt = none ∧ tm.detach = none) := by
  refine ⟨⟨rfl, rfl, rfl⟩, ⟨rfl, rfl, rfl, rfl⟩, ⟨rfl, rfl, rfl, rfl, rfl⟩, ⟨rfl, ?_, rfl, ?_, rfl⟩, ⟨rfl, ?_, rfl, rfl, ?_⟩, ⟨rfl, rfl, rfl, rfl, rfl⟩,
    ⟨rfl, ?_, ?_⟩, rfl, rfl, rfl, rfl⟩ <;> decide +kernel

/-- What a fetch gives. -/
theorem fetched {w : View} {pc : Dbl} {p : Nat × Nat} (h : (match fetchWord w pc with | .ok q => decide (q = p) | .error _ => false) = true) :
    fetchWord w pc = .ok p := by
  revert h; cases fetchWord w pc <;> simp
/-- LSTEP of IADD for the last lane of the team; of words with a major, a minor and a field that are not assigned. -/
def addD : A64 := ⟨0, 0, false, 0, 0, 33, 32, 34, 0⟩
theorem witness_DebugUnitLaneStep :
    viewOf (sH' (tmD 31) cx (nC ((encode (.iadd addD)).getD 0))) 5 = some ⟨tmD 31, bl, cx, nC ((encode (.iadd addD)).getD 0)⟩ ∧
    (tmD 31).ended = false ∧ fetchWord ⟨tmD 31, bl, cx, nC ((encode (.iadd addD)).getD 0)⟩ (pO + 4088) = .ok ((encode (.iadd addD)).getD 0, 8) ∧
    decodeWord ((encode (.iadd addD)).getD 0) = .ok (.iadd addD) ∧ (∃ L, longInt (.iadd addD) = some L ∧
      Operands (alone (tmD 31) 31) [(L.vd, L.wd)] L.src [] [] (L.reads (alone (tmD 31) 31)) ∧ L.on (alone (tmD 31) 31) 31) ∧
    (fetchWord ⟨tmD 31, bl, cx, nC (0b01 + 4 * 0x00)⟩ (pO + 4088) = .ok (1, 4) ∧ decodeWord 1 = .bad .major) ∧
    (fetchWord ⟨tmD 31, bl, cx, nC (0b01 + 4 * 0x2A + 2 ^ 8 * 8)⟩ (pO + 4088) = .ok (0b01 + 4 * 0x2A + 2 ^ 8 * 8, 4) ∧
      decodeWord (0b01 + 4 * 0x2A + 2 ^ 8 * 8) = .bad .minor) ∧
    (fetchWord ⟨tmD 31, bl, cx, nC (0b01 + 4 * 0x2A + 2 ^ 8 * 1 + 2 ^ 16 * 1)⟩ (pO + 4088) = .ok (0b01 + 4 * 0x2A + 2 ^ 8 * 1 + 2 ^ 16 * 1, 4) ∧
      decodeWord (0b01 + 4 * 0x2A + 2 ^ 8 * 1 + 2 ^ 16 * 1) = .bad .field) ∧
    (fetchWord ⟨tmD 31, bl, cx, nC ((encode .exit).getD 0)⟩ (pO + 4088) = .ok ((encode .exit).getD 0, 4) ∧
      decodeWord ((encode .exit).getD 0) = .ok .exit) :=
  ⟨rfl, rfl, fetched (by decide +kernel), by decide +kernel, ⟨_, rfl, ops rfl rfl ⟨rfl, rfl⟩ (by decide +kernel), by show On _ _ _ _; unfold On; decide⟩,
    ⟨fetched (by decide +kernel), by decide +kernel⟩, ⟨fetched (by decide +kernel), by decide +kernel⟩, ⟨fetched (by decide +kernel), by decide +kernel⟩,
    fetched (by decide +kernel), by decide +kernel⟩

/-- A team between two instructions, one in the middle of a store, one that waits; a lane detached while another is; IADD guarded by a
predicate that holds an error, and of a lane whose part has been made. -/
def addG : A64 := { addD with g := 7 }
def tmMade : Team := { tmD 31 with made := 0x80000000 }
def tmBadP : Team := { tmD 31 with badP := [31 * 8 + 7] }
theorem witness_DebugUnitSweeps :
    (haltsNow tm ∧ ¬haltsNow { tm with served := 1 } ∧ haltsNow { tm with served := 1, wait := .page }) ∧
    (ctxTeams (sH' { tm with swept := 1 } cx nd) cx = [(5, { tm with swept := 1 })] ∧ ¬haltsNow { tm with swept := 1 }) ∧
    ((tmD 31).halt ≠ none ∧ (tmD 31).mask.getLsbD 0 = true ∧ (tmD 31).mask.getLsbD 31 = false) ∧
    (∀ x ∈ ctxTeams (sH' tm cH nd) cH, (x.2.detach = none ∧ x.2.halt = none) ∨ x.2.mask ≠ 0 ∨ x.2.ended = true) ∧
    (tmMade.made.getLsbD 31 = true ∧ (tmD 31).made.getLsbD 31 = false) ∧
    (let w := (encode (.iadd addG)).getD 0
     fetchWord ⟨tmBadP, bl, cx, nC w⟩ (pO + 4088) = .ok (w, 8) ∧ decodeWord w = .ok (.iadd addG) ∧
       badPred (alone tmBadP 31) w (.iadd addG) = some 7 ∧ badPred (alone (tmD 31) 31) w (.iadd addG) = none) := by
  refine ⟨⟨.inr ⟨rfl, rfl⟩, ?_, .inl (by decide)⟩, ⟨rfl, ?_⟩, ⟨?_, ?_, ?_⟩, fun x hx => ?_, ?_, fetched ?_, ?_, ?_, ?_⟩
  case refine_6 => exact .inl (by obtain rfl := List.mem_singleton.1 hx; exact ⟨rfl, rfl⟩)
  all_goals first | (unfold haltsNow; decide +kernel) | decide +kernel

/-- A frame with all eight paths and a call entry, of a team that is halted. -/
theorem witness_ReadAndWrite :
    let f : Frame := { join := 0x3000, pending := List.replicate 8 ⟨0x2000, 1⟩ }
    let t := { tmH with frames := [f], calls := [{ ret := 0x2000, depth := 1 }] }
    viewOf (sH' t cH nd) 5 = some ⟨t, bl, cH, nd⟩ ∧ t.halt ≠ none ∧ t.frames[0]? = some f ∧ (8 : Dbl).toNat ≤ 8 ∧ 8 < (9 : Dbl).toNat ∧
      t.calls[0]? = some { ret := 0x2000, depth := 1 } ∧ t.frames.length ≤ 1 :=
  ⟨rfl, by decide, rfl, by decide, by decide, rfl, by decide⟩

/-- READ and WRITE of lane register 127 of the last lane, predicate 7, uniform register 63 and breakpoint 7; of a running team. -/
theorem witness_DebugUnit :
    (viewOf (sH' tmH cH nd) 5 = some ⟨tmH, bl, cH, nd⟩ ∧ tmH.halt ≠ none ∧ 31 < tmH.size ∧ cH.attached = true) ∧
    (viewOf (sH' tm cx nd) 5 = some ⟨tm, bl, cx, nd⟩ ∧ tm.halt = none ∧ cx.attached = false) :=
  ⟨⟨rfl, by decide +kernel, by decide +kernel, rfl⟩, rfl, rfl, rfl⟩

/-! The package. -/
theorem witness_ThePackageResets :
    (let t := { tm with wait := .launch }
     (((st t bl cx nd).ctxs.filter fun x => decide (x.2.dev = 0 ∧ x.2.vf = 0)).flatMap fun x => ctxTeams (st t bl cx nd) x.2) = [(5, t)] ∧
      Trappable { st t bl cx nd with cur := 5 } t 0x1100) ∧
    (let t := { tmV 0 .page with wait := .page }
     let n := nC ((encode (.sys (oV 0))).getD 0)
     viewOf (st t bl cx n) 5 = some ⟨t, bl, cx, n⟩ ∧ Trappable { st t bl cx n with cur := 5 } t (pO + 0x100) ∧
      fetchWord ⟨t, bl, cx, n⟩ t.pc = .ok ((encode (.sys (oV 0))).getD 0, 8) ∧ decodeWord ((encode (.sys (oV 0))).getD 0) = .sys (oV 0)) ∧
    (Trappable { s0 with cur := 5 } tm 0x1100 ∧ tm.wait ∉ [Wait.sys, .launch, .page, .move, .queued]) ∧
    (let s : State := { mem := {}, devs := [(0, { units := [(1, {})], vfcores := [(0, { rings := [(7, { control := 0, pending := some 4 })] })] })] }
     tget (vfOf s 0 0).rings 7 = some { control := 0, pending := some 4 } ∧ s.nodes = [] ∧ tget (devOf s 0).units 1 = some {} ∧ OfVf none 15) ∧
    (let n := { nd with next := 1 }
     let s := st tm bl cx n
     s.nodes = [(3, n)] ∧ n.dev = 0 ∧ OfVf (some 0) n.vf ∧ n.state = .running ∧ n.left < n.next ∧ s.blocks = [(1, bl)] ∧ bl.node = 3 ∧
      bl.teams = [5] ∧ bl.provisional = false ∧ tget s.teams 5 = some tm ∧ tm.block = 1 ∧ tm.ended = false ∧ s.colls = [] ∧
      ∀ x ∈ s.ctxs, x.2.state ∉ [CtxState.saved, .assigned, .streamingIn]) ∧
    (∀ x, x = NodeState.waiting ∨ x = .ready →
      let s : State := { mem := {}, nodes := [(3, { nd with state := x })], devs := [(0, { units := [(7, {})] })] }
      s.nodes = [(3, { nd with state := x })] ∧ nd.desc.notify = false ∧ tget (devOf s 0).units nd.ident = some {}) ∧
    (63 ∉ (devOf s0 0).revoked ∧ 63 < 64 ∧ ∀ site ∈ [2 * 0, 2 * 0 + 1], ∀ o ∈ (siteOf s0 site).objects, o.2.key ≠ 63) := by
  refine ⟨⟨rfl, trap_of rfl rfl (by decide +kernel) rfl rfl rfl rfl rfl rfl (by decide +kernel)⟩,
    ⟨rfl, trap_of rfl rfl (by decide +kernel) rfl rfl rfl rfl rfl rfl (by decide +kernel), fetched (by decide +kernel), by decide +kernel⟩,
    ⟨trap0, by decide⟩, ⟨rfl, rfl, rfl, .inl rfl⟩,
    ⟨rfl, rfl, .inr rfl, rfl, by decide +kernel, rfl, rfl, rfl, rfl, rfl, rfl, rfl, rfl, fun x hx => ?_⟩, fun x _ => ⟨rfl, rfl, rfl⟩, ?_⟩
  · obtain rfl : x = (2, cx) := by simpa [st] using hx
    decide
  · decide +kernel
/-- A line of an object, and the last byte of the last device. -/
theorem witness_LineDevice : LineDevice (sO tm regO objO {}) pO.toNat 0 ∧ LineDevice s0 (devKey 511 (2 ^ 64 - 1)) 511 :=
  ⟨.inl ⟨by decide +kernel, _, rfl, rfl⟩, .inr ⟨_, rfl, by decide +kernel, by decide +kernel⟩⟩
theorem report_some {s : State} {line dev : Nat} (h : ((lineReport s line).map fun r => decide (r.site / 2 = dev)) = some true) :
    ∃ r, lineReport s line = some r ∧ r.site / 2 = dev := by
  cases hr : lineReport s line with
  | none => rw [hr] at h; cases h
  | some r => rw [hr] at h; exact ⟨r, rfl, by simpa using h⟩
/-- The last frames of the tiers; a line of object 9, in tier 1 and tier 2, and one of a device; errors of each register file at its last
index, a slot and a record. -/
theorem witness_ThePackageErrors :
    (1023 < 2 * s0.fabric.devices ∧ ∀ tier2, tierSize tier2 - 1 < tierSize tier2 ∧ tierSize tier2 - 1 ∉ (siteOf s0 1023).retired1 ++ (siteOf s0 1023).retired2) ∧
    (let s := sO tm regO objO {}
     (∃ r, lineReport s (pO.toNat / 64) = some r ∧ r.site / 2 = 0) ∧ tget s.errors (pO.toNat / 64) = none ∧
      tget ({ s with errors := [(pO.toNat / 64, ⟨0x2C0, 1⟩)] } : State).errors (pO.toNat / 64) ≠ none ∧
      ∃ r, lineReport { s with errors := [(pO.toNat / 64, ⟨0x2C0, 1⟩)] } (pO.toNat / 64) = some r ∧ r.site / 2 = 0) ∧
    (tget s0.teams 5 = some tm ∧ 63 ∉ tm.badK ∧ 15 ∉ tm.badX ∧ 31 * 8 + 7 ∉ tm.badP) ∧
    (viewOf s0 5 = some ⟨tm, bl, cx, nd⟩ ∧ 31 < tm.size ∧ 31 * 128 + 127 ∉ tm.bad) ∧
    (tget (sN (opN .mma)).ctxs 2 = some cN ∧ tget cN.slots 7 = some slot1) ∧
    tget (msgC (.cack 31 [] 0 0) []).fabric.records ((31 * 512 + 511) * 4096 + 4095) = some ⟨31, 511, [cA4 65535 0, cA4 0 (2 ^ 32 - 1)], false⟩ := by
  refine ⟨⟨?_, ?_⟩, ⟨report_some ?_, rfl, ?_, report_some ?_⟩, ⟨rfl, ?_, ?_, ?_⟩, ⟨rfl, ?_, ?_⟩, ⟨rfl, rfl⟩, rfl⟩ <;> decide +kernel
/-- Registers at their last index, where the link is up and where it is not; bring-up of the steps 2, 7 and 8, and of the steps whose
images verify; the limits of power and heat, with every cluster empty and with a context on one. -/
theorem witness_ThePackage :
    (tget (devOf { mem := {}, devs := [(0, { partitions := [(15, [31])] })] } 0).partitions 15 = some [31] ∧ (0x3C0 : Nat) % 64 = 0 ∧
      (16 : Word).toNat ≤ 16 ∧ (16 : Word).toNat % 8 = 0 ∧ s0.colls = [] ∧ tget (devOf s0 0).runnel.regs 9 = none ∧ LinkUp s0 0 ∧ LinkUp s0 511 ∧
      ¬LinkUp { mem := {}, devs := [(0, { bringup := 4 })] } 0) ∧
    (∀ k, k = 1 ∨ k = 6 ∨ k = 7 → let s : State := { mem := {}, devs := [(511, { bringup := k })] }
      511 < s.fabric.devices ∧ (devOf s 511).powered = true ∧ (devOf s 511).recovery = false ∧ (devOf s 511).bringup = k ∧
      Verified 511 (k + 1) []) ∧
    (∀ digest sig, Config.verifies 511 digest sig = true → Verified 511 1 [⟨Config.rollback 511, digest, sig⟩] ∧
      Verified 511 6 (List.replicate 16 ⟨Config.rollback 511, digest, sig⟩)) ∧
    ¬Verified 511 1 [] ∧
    (let d : Device := { watts := 2301, temps := [99] }
     2300 < d.watts ∧ d.gated = [] ∧ d.gating = [] ∧ d.collCores = 0) ∧
    (let d : Device := { watts := 2300, temps := [99] }
     (∀ x ∈ d.temps, x < 100) ∧ d.watts ≤ 2300 ∧ 2200 ≤ d.watts) ∧
    (let d : Device := { watts := 2199, temps := [89], gated := [31] }
     (∀ x ∈ d.temps, x < 90) ∧ d.watts < 2200 ∧ d.gated ≠ []) ∧
    (let d : Device := { temps := [115] }
     115 ∈ d.temps ∧ 115 ≤ 115 ∧ ∃ x ∈ d.temps, 90 ≤ x) := by
  refine ⟨⟨rfl, by decide +kernel, by decide +kernel, by decide +kernel, rfl, rfl, linkA (by decide +kernel), linkA (by decide +kernel),
      fun h => absurd h.linked (by decide)⟩, fun k h => ?_,
    fun digest sig h => ⟨⟨rfl, fun x hx => ?_⟩, ⟨rfl, fun x hx => ?_⟩⟩, fun h => absurd h.1 (by decide), ⟨?_, rfl, rfl, rfl⟩, ?_, ?_, ?_⟩
  · rcases h with rfl | rfl | rfl <;> exact ⟨by decide +kernel, rfl, rfl, rfl, rfl, fun x hx => by cases hx⟩
  · obtain rfl : x = _ := List.mem_singleton.mp hx
    exact ⟨h, Nat.le_refl _⟩
  · obtain rfl : x = _ := List.eq_of_mem_replicate hx
    exact ⟨h, Nat.le_refl _⟩
  all_goals decide +kernel
/-- What the third clause of the kill and the gates of a cluster ask for: an empty cluster and one that holds a context. -/
theorem witness_ClusterEmpty : ClusterEmpty s0 0 31 ∧ ¬ClusterEmpty s0 0 0 := by
  unfold ClusterEmpty; decide +kernel

/-- An L2 copy with an error; the handle of a team, and a codebook, at the last index; a line of L2 that is not held. -/
def siteBad : Site := { siteO regO objO with l2 := [(pO.toNat / 64, [])], l2bad := [pO.toNat / 64] }
def sBad : State := { sO tm regO objO {} with sites := [(0, siteBad)] }
theorem witness_FramesAndErrors :
    (BadCopy sBad 0 (pO.toNat / 64) ∧ ¬BadCopy (sO tm regO objO {}) 0 (pO.toNat / 64)) ∧
    (7 ∉ tm.badA ∧ 3 ∉ cx.badBooks) ∧
    (tget (siteOf (sO tm regO objO {}) 0).l2 (pO.toNat / 64) = none ∧ LineDevice (sO tm regO objO {}) (pO.toNat / 64 * 64) 0) := by
  refine ⟨⟨?_, ?_⟩, ⟨?_, ?_⟩, ?_, .inl ⟨?_, _, rfl, rfl⟩⟩
  all_goals first | decide +kernel | (unfold BadCopy; decide +kernel)

/-- The descriptor of the ring's node, of system software: its kernel's object is the system's, and so is the unit of its edge. -/
def edgeS : List (Nat × Byte) := edgeH.map fun x => if x.1 = 0x30C7 then (x.1, 0xE0) else x
def sSys : State :=
  { sH (some 1) [] ([(0x3004, 0x24), (0x3007, 0x80), (0x3008, 1)] ++ edgeS) with
    devs := [(511, { units := [(3 * 2 ^ 62 + 16 * 2 ^ 57 + 1, { vf := 16 })] })], sites := [(0, siteO regO { objO with owner := 16 })] }
def bytesS : List Byte := readBytes sSys.mem (hostKey 0x3000) 832
def nS : Node :=
  let d := parseDesc bytesS
  { dev := 511, vf := 16, entry := freeEntry sSys 511, ident := identOf 0 16 (devOf sSys 511).serial, desc := d,
    state := .waiting, priority := d.priority, blocks := d.grid, p := BitVec.ofNat 64 d.grid }
theorem codeS (n : Nat) : codeMapped sSys 511 16 n 0x8000002400000000 = true := by
  unfold codeMapped
  rw [if_pos (by decide +kernel)]
  exact (Bool.and_eq_true _ _).mpr ⟨by decide +kernel, rfl⟩
theorem acceptS : descAccepted sSys bytesS nS = true := by
  have hc : codeMapped sSys nS.dev nS.vf nS.ident nS.desc.kernel = true := by
    have hk : nS.desc.kernel = 0x8000002400000000 := by show (parseDesc bytesS).kernel = _; decide +kernel
    rw [hk]; exact codeS _
  simp only [descAccepted, hc, Bool.and_true, Bool.and_eq_true]
  decide +kernel
theorem witness_Registers : fwUp sSys 511 = true ∧ LinkUp sSys 511 ∧ ∃ s' k i, createNode sSys 511 16 bytesS = .made s' k i := by
  refine ⟨by decide +kernel, linkA (by decide +kernel), ?_⟩
  unfold createNode
  have h := acceptS
  simp only [nS] at h
  simp only [h, Bool.not_true, Bool.false_eq_true, if_false]
  rw [if_neg (by decide +kernel)]
  exact ⟨_, _, _, rfl⟩

/-! The Runnel adapter: packet 1,023, of one byte at the end of object 9; the message has 4,190,209 bytes. -/
def pkR : Packet := { src := 3, msg := 2 ^ 48 - 1, qp := 5, key := 4, idx := 1023, len := 1023 * 4096 + 1, off := 4095, data := [255], send := true, dst := 511, port := 0xC000 }
def gR : Registration := { base := pO, bytes := 4096, ctx := 2 }
def mR : Nat := 3 * 2 ^ 48 + (2 ^ 48 - 1)
def sentR (resends due : Nat) : TxMsg := { qp := 5, packets := [{ pkR with idx := 0 }, pkR], missing := [0, 1023], resends := resends, due := due }
def rR (q : QueuePair) (g : Registration) (rx : Tbl RxMsg) (due : Nat) : Runnel :=
  { qps := [(5, q)], regs := [(4, g)], rx := rx, tx := [(8, sentR 6 due), (9, sentR 7 due)], late := [(5, 1), (6, 2)], next := 10 }
def sRx (q : QueuePair) (g : Registration) (rx : Tbl RxMsg) (due : Nat := 0) (now : Nat := 0) : State :=
  { sO tm regO objO {} with now := now, devs := [(511, { runnel := rR q g rx due })] }
def qpR : QueuePair := { state := .ready, resident := true }
theorem rangeR : InRange pkR := by constructor <;> decide +kernel
theorem arrivesR (g : Registration) (rx : Tbl RxMsg) : Arrives (sRx qpR g rx) 511 pkR := ⟨rangeR, rfl, rfl⟩
theorem full_none (k n : Nat) (x : RxMsg) : tget (List.replicate n (k, x)) mR = if n ≠ 0 ∧ k = mR then some x else none := by
  induction n with
  | zero => rfl
  | succ n ih =>
    rw [List.replicate_succ, tget]
    by_cases h : k = mR
    · simp [h]
    · simp [h, ih]
theorem witness_RunnelAdapterReceive :
    (InRange pkR ∧ ¬InRange { pkR with idx := 1024 } ∧ (pair (sRx {} gR []) 511 5).state ≠ .ready ∧
      (pair (sRx { qpR with resident := false } gR []) 511 5).state = .ready ∧ pkR.send = true ∧
      (pair (sRx { qpR with resident := false } gR []) 511 5).resident = false) ∧
    (∀ g rx, Arrives (sRx qpR g rx) 511 pkR ∧ messageKey pkR = mR ∧ tget (runnel (sRx qpR g rx) 511).regs pkR.key = some g) ∧
    (Arrives { sRx qpR gR [] with devs := [(511, { runnel := { qps := [(5, qpR)] } })] } 511 pkR) ∧
    (let g := { gR with revoked := true }
     g.revoked = true ∧ (mR, pkR.key) ∉ g.known) ∧
    (tget (runnel (sRx qpR gR [(mR, ⟨5, 4, [1023], 1⟩)]) 511).rx mR = some ⟨5, 4, [1023], 1⟩ ∧ pkR.idx ∈ [1023]) ∧
    (let rx := List.replicate 65536 (7, (⟨5, 4, [], 0⟩ : RxMsg))
     tget (runnel (sRx qpR gR rx) 511).rx mR = none ∧ 65536 ≤ (runnel (sRx qpR gR rx) 511).rx.length) ∧
    (let g := { gR with bytes := 4095 }
     tget (runnel (sRx qpR g []) 511).rx mR = none ∧ (runnel (sRx qpR g []) 511).rx.length < 65536 ∧ g.bytes < pkR.off + pkR.data.length) := by
  refine ⟨⟨rangeR, fun h => absurd h.index (by decide), ?_, rfl, rfl, rfl⟩, fun _ _ => ⟨arrivesR _ _, by decide +kernel, rfl⟩, ⟨rangeR, rfl, rfl⟩,
    ⟨rfl, ?_⟩, ⟨rfl, ?_⟩, ⟨?_, ?_⟩, rfl, ?_, ?_⟩
  · decide +kernel
  · decide +kernel
  · decide +kernel
  · show tget (List.replicate 65536 _) mR = none
    rw [full_none, if_neg (fun h => absurd h.2 (by decide +kernel))]
  · show 65536 ≤ (List.replicate 65536 _).length
    exact Nat.le_of_eq List.length_replicate.symm
  · decide +kernel
  · decide +kernel
/-- The packet goes into an object: as the first of its message, as one of two more, and as the last. -/
theorem witness_RunnelAdapterPlace :
    IntoObject (sRx qpR gR []) gR pkR (pO + 4095).toNat ∧ pkR.idx ∉ ([] : List Nat) ∧ 0 + pkR.data.length < pkR.len ∧
    tget (runnel (sRx qpR gR [(mR, ⟨5, 4, List.range 1023, 1023 * 4096⟩)]) 511).rx mR = some ⟨5, 4, List.range 1023, 1023 * 4096⟩ ∧
    pkR.idx ∉ List.range 1023 ∧ pkR.len ≤ 1023 * 4096 + pkR.data.length := by
  refine ⟨⟨by decide +kernel, by decide +kernel, by decide +kernel, 0, objO, ?_, by decide +kernel⟩, by decide +kernel, by decide +kernel, rfl,
    by simp [pkR], by decide +kernel⟩
  rw [show (pO + 4095).toNat / 2 ^ 34 % 2 ^ 29 = 9 by decide +kernel]
  decide
/-- A message after its sixth and seventh resend, before its timer and at it; a pair in each state, and one whose sends wait; a fetched pair
with late completions; a registration, revoked and not. -/
theorem witness_RunnelAdapter :
    (tget (runnel (sRx qpR gR []) 511).tx 8 = some (sentR 6 0) ∧ (∀ i ∈ [1023], i ∈ [0, 1023]) ∧
      tget (runnel (sRx qpR gR []) 511).tx 9 = some (sentR 7 0) ∧ (sentR 7 0).due ≤ clock (sRx qpR gR []) 511 ∧
      clock (sRx qpR gR [] 1) 511 < (sentR 6 1).due) ∧
    (∀ x, (pair (sRx { state := x } gR []) 511 5).state = x) ∧
    (tget (runnel (sRx { qpR with resident := false } gR []) 511).qps 5 = some { qpR with resident := false }) ∧
    (let q := { qpR with waiting := [(0, pkR)] }
     ∃ x ∈ (pair (sRx q gR [] 0 1400) 511 5).waiting, x.1 + 1400 ≤ clock (sRx q gR [] 0 1400) 511) ∧
    (let q := { qpR with waiting := [(0, pkR)] }
     ∀ x ∈ (pair (sRx q gR []) 511 5).waiting, clock (sRx q gR []) 511 < x.1 + 1400) ∧
    (GivenUp (sRx qpR gR []) (511 * 2 ^ 48 + 0) ∧ ¬GivenUp (sRx qpR gR []) (511 * 2 ^ 48 + 8) ∧ LinkUp (sRx qpR gR []) 511) ∧
    (let g := { gR with revoked := true }
     tget (runnel (sRx qpR g []) 511).regs 4 = some g ∧ g.known = []) ∧ gR.revoked = false := by
  refine ⟨⟨rfl, ?_, rfl, Nat.zero_le _, ?_⟩, fun _ => rfl, rfl, ⟨(0, pkR), List.mem_singleton_self _,
    le_clock (s := sRx { qpR with waiting := [(0, pkR)] } gR [] 0 1400) (dev := 511) rfl⟩, fun x hx => ?_, ⟨⟨?_, ?_, rfl⟩, ⟨fun h => (by cases h.ended), linkA ?_⟩⟩,
    ⟨rfl, rfl⟩, rfl⟩
  case refine_3 => obtain rfl := List.mem_singleton.1 hx; decide +kernel
  all_goals decide +kernel
/-- A page of the region that is not present. -/
def sRg : State := { sRx qpR { gR with base := 0 } [] with ctxs := [(2, { cx with roots := [(0, 0x4000)] })], mem := { cells := [(slotKey 0 0 0x4000, 1)] } }
theorem witness_RunnelAdapterPage : placing sRg { gR with base := 0 } pkR.off pkR.data.length true = .page 0 4095 := by
  have h : (match placing sRg { gR with base := 0 } pkR.off pkR.data.length true with
    | .page r va => decide (r = 0 ∧ va = 4095)
    | _ => false) = true := by decide +kernel
  revert h
  cases placing sRg { gR with base := 0 } pkR.off pkR.data.length true <;> simp

/-! Fetch and the step. -/
theorem witness_InstructionLength :
    (let ps := [0x630B, 0x058A, 0xA1A3, 0xFFFF]
     (∀ p ∈ ps, p < 2 ^ 16) ∧ ps.head? = some 0x630B ∧ ps.length = parcels 0x630B) ∧
    (let ps := [0x9462]
     (∀ p ∈ ps, p < 2 ^ 16) ∧ ps.length = parcels 0x9462) ∧
    (let ps := [0xA841, 0xFF54]
     (∀ p ∈ ps, p < 2 ^ 16) ∧ ps.length = parcels 0xA841 ∧
      ∀ i p, ps[i]? = some p → parcel ⟨tmH, bl, cx, { nC 0xFF54A841 with codeSize := 4092 }⟩ (pO + 4088 + BitVec.ofNat 64 (2 * i)) = some p) := by
  refine ⟨by decide +kernel, by decide +kernel, by decide +kernel, by decide +kernel, fun i p h => ?_⟩
  match i, h with
  | 0, h => cases h; decide +kernel
  | 1, h => cases h; decide +kernel
  | i + 2, h => simp at h
theorem witness_DecodeEncode : (Instr.ffma ⟨0, 0x21, true, 2, 13, 12, 11, 10, 0x60⟩).legal = true ∧
    encode (.ffma ⟨0, 0x21, true, 2, 13, 12, 11, 10, 0x60⟩) = some 0x0021A1A3058A630B := by decide +kernel

/-- A team that issues: its code ends with IADD v34, v32, v33; with a word that is no instruction; or before its pc. Team 6 of a block of
its own context needs another unit. -/
def tmI : Team := { tm with pc := pO + 4088 }
def ndI (x : Nat) : Node := { nC x with desc := { (nC x).desc with handler := some 0x100 } }
def sI (t : Team) (c : Ctx) (n : Node) (head : List Occur := [.issue 5]) : State := { st t bl c n with agenda := head }
def wAdd : Nat := (encode (.iadd addD)).getD 0
theorem issueI (t : Team) (c : Ctx) (n : Node) (head : List Occur) (hl : t.ended = false) (hh : t.halt = none) (hw : eventWait t = false)
    (hv : viewOf (upon (sI t c n head) []) 5 = some ⟨t, bl, c, n⟩) (hr : t.running = false) (ho : laneTrapDue t = false) (hc : c.state = .running) :
    MayIssue (upon (sI t c n head) []) 5 t bl c n where
  view := hv
  live := hl
  halted := hh
  waits := hw
  runs := hc
  filled := rfl
  free := hr
  owes := ho
theorem turnI (c : Ctx) (n : Node) (hc : c.state = .running) (ha : c.attached = false) (h : mayIssue (upon (sI tmI c n) []) 5 = true) :
    Turn (upon (sI tmI c n) []) 5 tmI bl c n := ⟨issueI tmI c n _ rfl rfl rfl rfl rfl rfl hc, h, .inl ha⟩
theorem handlesI (t : Team) (n : Node) (ht : t.handler = false) (h : n.desc.handler = some 0x100) : Handles t bl n 0x100 := ⟨ht, rfl, h⟩
theorem fails {w : View} {pc : Dbl} {e : Nat} (h : (match fetchWord w pc with | .ok _ => false | .error x => decide (x = e)) = true) :
    fetchWord w pc = .error e := by
  revert h; cases fetchWord w pc <;> simp
theorem witness_StepRunsTheDecoded :
    (Turn (upon (sI tmI cx (ndI wAdd)) []) 5 tmI bl cx (ndI wAdd) ∧ badPred tmI wAdd (.iadd addD) = none ∧
      fetchWord ⟨tmI, bl, cx, ndI wAdd⟩ tmI.pc = .ok (wAdd, 8) ∧ (decodeWord wAdd).instr = some (.iadd addD)) ∧
    mayIssue (upon (sI { tmI with ended := true } cx (ndI wAdd)) []) 5 = false ∧
    (Turn (upon (sI tmI cx (ndI 1)) []) 5 tmI bl cx (ndI 1) ∧ Handles tmI bl (ndI 1) 0x100 ∧
      fetchWord ⟨tmI, bl, cx, ndI 1⟩ tmI.pc = .ok (1, 4) ∧ decodeWord 1 = .bad .major) ∧
    (let n := { ndI 3 with codeSize := 4090 }
     Turn (upon (sI tmI cx n) []) 5 tmI bl cx n ∧ Handles tmI bl n 0x100 ∧ fetchWord ⟨tmI, bl, cx, n⟩ tmI.pc = .error (2 ^ 16 + 3)) := by
  refine ⟨⟨turnI _ _ rfl rfl ?_, rfl, fetched ?_, ?_⟩, ?_, ⟨turnI _ _ rfl rfl ?_, handlesI _ _ rfl rfl, fetched ?_, ?_⟩, turnI _ _ rfl rfl ?_,
    handlesI _ _ rfl rfl, fails ?_⟩ <;> decide +kernel
/-- IADD guarded by p7, which holds an error in lane 1; a breakpoint at the pc; a sweep of one of the two words of a team of 64. -/
def addP : A64 := { addD with g := 7 }
def tmBp : Team := { tmI with badP := [8 * 1 + 7] }
def tmSw : Team := { tmI with size := 64 }
def cB7 : Ctx := { cx with attached := true, dbc := [(7, 0x81)], dba := [(7, pO + 4088)] }
theorem witness_StepStops :
    (let w := (encode (.iadd addP)).getD 0
     Turn (upon (sI tmBp cx (ndI w)) []) 5 tmBp bl cx (ndI w) ∧ Handles tmBp bl (ndI w) 0x100 ∧
      fetchWord ⟨tmBp, bl, cx, ndI w⟩ tmBp.pc = .ok (w, 8) ∧ decodeWord w = .ok (.iadd addP) ∧ guardOf w = 7 ∧ 8 * 1 + 7 ∈ tmBp.badP ∧
      tmBp.mask.getLsbD 1 = true ∧ namesFault (exec (.iadd addP)) (issued (upon (sI tmBp cx (ndI w)) []) 5 w) 5 = false ∧
      namesFault (exec (.imad { addP with vd := 125, vc := 122, m := 0xE0 })) (issued (upon (sI tmBp cx (ndI w)) []) 5 w) 5 = true) ∧
    (MayIssue (upon (sI tmI cB7 (ndI wAdd)) []) 5 tmI bl cB7 (ndI wAdd) ∧ mayIssue (upon (sI tmI cB7 (ndI wAdd)) []) 5 = true ∧
      cB7.attached = true ∧ tmI.skipBreak = false ∧ tmI.wait = .none ∧ (tgetD cB7.dbc 7 0).getLsbD 0 = true ∧
      (tgetD cB7.dbc 7 0).getLsbD 1 = false ∧ tgetD cB7.dba 7 0 = tmI.pc ∧ sub (tgetD cB7.dbc 7 0) 6 2 ≠ 1 ∧
      ∀ j, j < 7 → (tgetD cB7.dbc j 0).getLsbD 0 = false ∨ tgetD cB7.dba j 0 ≠ tmI.pc) ∧
    (let u := upon (sI tmSw cx (ndI wAdd) [.sweep 5 1]) []
     MayIssue u 5 tmSw bl cx (ndI wAdd) ∧ mayIssue u 5 = true ∧ tmSw.wait = .none ∧ 32 * (tmSw.swept + 1) < tmSw.size ∧ nextKind u 5 = .pipe ∧
       neverSplit u 5 = false ∧ midInstr tmSw = false ∧ boundary u ⟨tmSw, bl, cx, ndI wAdd⟩ 5 = false ∧ 64 ≤ 32 * (tmSw.swept + 2)) ∧
    (let u := upon (sI tmSw cB7 (ndI wAdd) [.sweep 5 1]) []
     viewOf u 5 = some ⟨tmSw, bl, cB7, ndI wAdd⟩ ∧ boundary u ⟨tmSw, bl, cB7, ndI wAdd⟩ 5 = true ∧ mayIssue u 5 = true) ∧
    (let w := (encode (.shfl ⟨0, 0, false, 0, 5, 127, 126, 125, 0x1C⟩)).getD 0
     let u := upon (sI tmSw cx (ndI w) [.sweep 5 1]) []
     fetchWord ⟨tmSw, bl, cx, ndI w⟩ tmSw.pc = .ok (w, 8) ∧ w % 4 = 3 ∧ w / 4 % 64 = 4 ∧ neverSplit u 5 = true) ∧
    Quiet (sI tmI cx (ndI wAdd)) := by
  refine ⟨⟨⟨issueI tmBp _ _ _ rfl rfl rfl rfl rfl rfl rfl, ?_, .inl rfl⟩, handlesI _ _ rfl rfl, fetched ?_, ?_, ?_, ?_, ?_, ?_, ?_⟩,
    ⟨issueI tmI _ _ _ rfl rfl rfl rfl rfl rfl rfl, ?_, rfl, rfl, rfl, ?_, ?_, ?_, ?_, ?_⟩,
    ⟨issueI tmSw _ _ _ rfl rfl rfl rfl rfl rfl rfl, ?_, rfl, ?_, ?_, ?_, rfl, ?_, ?_⟩, ⟨rfl, ?_, ?_⟩, ⟨fetched ?_, ?_, ?_, ?_⟩, ⟨fun k c h => .inl ?_, fun x hx => .inr ⟨1, bl, ?_⟩⟩⟩
  case refine_27 => obtain ⟨_, rfl⟩ : 2 = k ∧ cx = c := by simpa [sI, st, tget] using h
                    rfl
  case refine_28 => obtain rfl := List.mem_singleton.1 hx; exact ⟨by decide, rfl, rfl⟩
  all_goals decide +kernel
/-- An event, and an instruction that is no event; nothing to do but an issue; the team that issued longer ago of two. -/
def sTwo : State := { st tmI bl cx (ndI wAdd) with teams := [(5, { tmI with lastPipe := 9 }), (6, { tmI with lastPipe := 2 })] }
theorem witness_StepEvents :
    (encode (.powerSample 0 1 []) = none ∧ ∃ s', exec (.powerSample 0 1 []) (upon { mem := {}, agenda := [.event (.powerSample 0 1 [])] } []) = .next s') ∧
    (encode (.iadd addD)).isSome = true ∧
    (let s := { sI tmI cx (ndI wAdd) with agenda := [] }
     (firstChange (tick s) (autoEvents (tick s))).isNone = true ∧ pickTeam (tick s) (readyTeams (tick s)) = some 5) ∧
    (∀ i t, i ∈ [5, 6] → tget sTwo.teams i = some t → t.yielded = none) ∧ lastIssue sTwo 6 < lastIssue sTwo 5 := by
  refine ⟨⟨rfl, _, rfl⟩, by decide +kernel, ⟨by decide +kernel, by decide +kernel⟩, fun i t hi h => ?_, by decide +kernel⟩
  rcases List.mem_cons.mp hi with rfl | hi
  · cases h; rfl
  · obtain rfl := List.mem_singleton.mp hi
    cases h; rfl

/-- The machine that steps reaches a next state, from a state in canonical form. -/
theorem witness_StepKeepsMemoryCanonical : CanonicalMemory (sI tmI cx (ndI ((encode (.iadd addD)).getD 0))) ∧
    ∃ s', step (sI tmI cx (ndI ((encode (.iadd addD)).getD 0))) = .next s' := by
  refine ⟨by unfold CanonicalMemory; decide, ?_⟩
  have h : (match step (sI tmI cx (ndI ((encode (.iadd addD)).getD 0))) with | .next _ => true | _ => false) = true := by decide +kernel
  revert h
  cases step (sI tmI cx (ndI ((encode (.iadd addD)).getD 0))) <;> simp

/-! ### Single steps -/

/-- A field of the state after a step. -/
def after (s : State) (f : State → α) (d : α) : α := match step s with
  | .next s' => f s'
  | _ => d

/-- R72, R97: the machine after reset runs a word stored where it fetches: MOV v1 := −1 in every lane. -/
theorem test_step_runs_the_stored_word :
    after (State.reset.withFetchWord 32 ((encode (.movRi ⟨0x3FF, 1⟩)).getD 0)) (fun s => (tget s.teams s.cur).map fun t => (vget t 0 1, vget t 31 1)) none =
      some (0xFFFFFFFF, 0xFFFFFFFF) := by decide +kernel

/-! ### The manual's own worked examples -/

/-- 10_isa_memory_notes ("The cuckoo build"), 14_consistency_notes and 08_isa_lane_notes: encodings worked out there. -/
theorem test_manual_words :
    decodeWord 0x0004B079 = .ok (.div ⟨75⟩) ∧ decodeWord 0xFFFBD371 = .ok (.bra ⟨0xFFFBD, false, 3⟩) ∧
    decodeWord 0x0000060107070B4B = .ok (.atomExch ⟨0, 3, false, 0, 4, 14, 7, 0⟩) ∧
    decodeWord 0x0000006814882173 = .ok (.brm ⟨0, 0, 26, 20, 8, 8, 2, 1⟩) ∧
    decodeWord 0x2800000081020007 = .ok (.iadd ⟨0x28, 0, false, 0, 0, 2, 2, 2, 0⟩) ∧
    decodeWord 0x0004040004012247 = .ok (.st ⟨64, 2, false, 0, 0, 8, 1, 0x22⟩) ∧
    decodeWord 0x0004000004021243 = .ok (.ld ⟨64, 0, false, 0, 0, 8, 2, 0x12⟩) := by decide +kernel

/-- The f32 code of a value. -/
def code32 (v : FVal) : Nat := (fround f32 .rn v).1
/-- 04_formats_notes, "Decoding by hand": −0.8125, 3 × 2^−9, 448, NaN; −3 and 0.5 in one byte; a q8 and a qf5 block. -/
theorem test_manual_codes :
    code32 (elemVal 6 (fun _ => 0) [0xB5] 0) = 0xBF500000 ∧ code32 (elemVal 6 (fun _ => 0) [0x03] 0) = 0x3BC00000 ∧
    code32 (elemVal 6 (fun _ => 0) [0x7E] 0) = 0x43E00000 ∧ isNan (elemVal 6 (fun _ => 0) [0xFF] 0) = true ∧
    code32 (elemVal 0xC (fun _ => 0) [0xD1] 0) = 0x3F000000 ∧ code32 (elemVal 0xC (fun _ => 0) [0xD1] 1) = 0xC0400000 ∧
    code32 (elemVal 0x13 (fun _ => 0) [0x86, 0x82, 0xC5, 0x32] 0) = 0xBF200000 ∧
    code32 (elemVal 0x13 (fun _ => 0) [0x86, 0x82, 0xC5, 0x32] 1) = 0x42C80000 ∧
    code32 (elemVal 0x18 (fun _ => 0) [128, 125, 0xD3, 0x01] 0) = 0x3EC00000 ∧
    code32 (elemVal 0x18 (fun _ => 0) [128, 125, 0xD3, 0x01] 1) = 0xC1000000 ∧
    code32 (elemVal 0x18 (fun _ => 0) [128, 125, 0xD3, 0x01] 2) = 0 := by decide +kernel

/-- 04_formats_notes, "The quantiser over three rows": 40.2, 100.3 and 700 beside 0.5 into q8 with seed 133 and gap 4; and 30 after them. -/
def quantM (pred big : Nat) : List Byte × Bool × List Nat :=
  let r := quantRow 0x13 4 [pred] (fdecode f32 big :: fdecode f32 0x3F000000 :: List.replicate 30 (.num false 0 0))
  (r.1.take 4, r.2)
theorem test_manual_quantiser :
    quantM 133 0x4220CCCD = ([0x85, 0x81, 0x28, 0x88], false, [133]) ∧ quantM 133 0x42C8999A = ([0x86, 0x82, 0x32, 0x84], false, [134]) ∧
    quantM 134 0x442F0000 = ([0x88, 0x84, 0x3F, 0x81], true, [136]) ∧ (quantM 136 0x41F00000).2.2 = [135] := by decide +kernel

/-- 08_isa_lane_notes, "NaN, zero and the minimum"; 04_formats_notes, "Stochastic rounding" and "Where a40 rounding falls". -/
theorem test_manual_floats :
    fminmax f32 false 0 0x80000000 = (0x80000000, 0) ∧ fminmax f32 true 0x80000000 0 = (0, 0) ∧
    fminmax f32 false 0x7FC00001 0x40400000 = (0x40400000, 0) ∧ fminmax f32 true 0x7F800001 0x40400000 = (0x40400000, fNV) ∧
    fminmax f32 true 0xFFC00000 0x7F800001 = (0x7FC00000, fNV) ∧
    (fround bf16 (.rs 0x12B34C9F) (fdecode f32 0x3F806000)).1 = 0x3F81 ∧ (fround bf16 (.rs 0x009FFFFF) (fdecode f32 0x3F806000)).1 = 0x3F80 ∧
    (let one : FVal × FVal := (ofInt 1, ofInt 1)
     let big : FVal × FVal := (ofInt (2 ^ 16), ofInt (2 ^ 16))
     let zero : FVal × FVal := (ofInt 0, ofInt 1)
     (dotStep .a40 0 (big :: one :: one :: List.replicate 61 zero)).1 = 0x4F80000001 ∧
     (dotStep .a40 0 (big :: one :: List.replicate 38 zero ++ one :: List.replicate 23 zero)).1 = 0x4F80000000) := by decide +kernel

/-- 08_isa_lane_notes, "Register groups that fault": a team with budget 2 that holds E1 alone. -/
def tmFl : Team := { tm with budget := 2, e2 := false }
def causeOf (i : Instr) : Option (Word × Word) := match exec i (st tmFl bl cx nd) with
  | .next s' => (tget s'.teams 5).map fun t => (t.trapcause, t.trapinfo)
  | _ => none
theorem test_manual_groups :
    causeOf (.iadd ⟨0, 0, false, 0, 0, 2, 94, 94, 0x20⟩) = some (0, 0) ∧ causeOf (.ld ⟨0, 0, false, 0, 0, 4, 94, 4⟩) = some (3, 94) ∧
    causeOf (.iadd ⟨0, 0, false, 0, 0, 2, 96, 95, 0x20⟩) = some (3, 95) ∧ causeOf (.mov ⟨0, 0, false, 0, 0, 0, 2, 96, 0x20⟩) = some (5, 96) ∧
    causeOf (.iadd ⟨0, 0, false, 0, 0, 10, 8, 0, 0x20⟩) = some (0, 0) := by decide +kernel

end Sys2Proof.Tests
end

section
/-! Encoding (spec 05): the length of an instruction and the joining of its parcels (R64), in the bytes that are decoded and in
the fetch. -/
namespace Sys2Proof.Machine

open Sys2Proof.Spec

/-! ### The length that the first parcel gives (R64) -/

/-- R64's table, row by row. -/
theorem parcels_of_bits (p0 : Nat) :
    (p0.testBit 0 = false → parcels p0 = 1) ∧ (p0.testBit 0 = true → p0.testBit 1 = false → parcels p0 = 2) ∧
    (p0.testBit 0 = true → p0.testBit 1 = true → parcels p0 = 4) := by
  have bit0 : p0.testBit 0 = decide (p0 % 2 = 1) := Nat.testBit_zero p0
  have bit1 : p0.testBit 1 = decide (p0 / 2 % 2 = 1) := by rw [Nat.testBit_add_one, Nat.testBit_zero]
  simp only [bit0, bit1, decide_eq_true_eq, decide_eq_false_iff_not, parcels]
  refine ⟨fun h0 => ?_, fun h0 h1 => ?_, fun h0 h1 => ?_⟩
  · rw [if_pos (by omega)]
  · rw [if_neg (by omega), if_pos (by omega)]
  · rw [if_neg (by omega), if_neg (by omega)]

theorem lengthOf_eq_two_mul_parcels (p0 : Nat) : lengthOf p0 = 2 * parcels p0 := by
  unfold lengthOf parcels
  by_cases h0 : p0 % 2 = 0
  · simp only [if_pos h0]
  · by_cases h1 : p0 % 4 = 1
    · simp only [if_neg h0, if_pos h1]
    · simp only [if_neg h0, if_neg h1]

/-! ### The bytes of parcels (R4, R64) -/

/-- The bytes of parcels in the order of their addresses, each parcel's low byte first (R4). -/
def parcelBytes (ps : List Nat) : List Byte := ps.flatMap fun p => [BitVec.ofNat 8 p, BitVec.ofNat 8 (p / 256)]

@[simp] theorem parcelBytes_cons (p : Nat) (ps : List Nat) :
    parcelBytes (p :: ps) = BitVec.ofNat 8 p :: BitVec.ofNat 8 (p / 256) :: parcelBytes ps := rfl

theorem parcelBytes_length (ps : List Nat) : (parcelBytes ps).length = 2 * ps.length := by
  induction ps with
  | nil => rfl
  | cons p ps ih => simp only [parcelBytes_cons, List.length_cons, ih]; omega

/-- The two bytes of a parcel, below the value of the bytes after them. -/
theorem leNat_parcel_append {p : Nat} (hp : p < 2 ^ 16) (bs : List Byte) :
    leNat (BitVec.ofNat 8 p :: BitVec.ofNat 8 (p / 256) :: bs) = p + 2 ^ 16 * leNat bs := by
  simp only [leNat, BitVec.toNat_ofNat]
  omega

theorem leNat_parcelBytes {ps : List Nat} (h : ∀ p ∈ ps, p < 2 ^ 16) : leNat (parcelBytes ps) = joined ps := by
  induction ps with
  | nil => rfl
  | cons p ps ih =>
    obtain ⟨hp, hps⟩ := List.forall_mem_cons.1 h
    rw [parcelBytes_cons, leNat_parcel_append hp, ih hps, joined]

/-- Bytes that are just as many as their first parcel says are decoded whole. -/
theorem decodeBytes_whole {p0 : Nat} {bs : List Byte} (hp : p0 < 2 ^ 16) (hl : bs.length + 2 = lengthOf p0) :
    decodeBytes (BitVec.ofNat 8 p0 :: BitVec.ofNat 8 (p0 / 256) :: bs) =
      some (decodeWord (leNat (BitVec.ofNat 8 p0 :: BitVec.ofNat 8 (p0 / 256) :: bs)), lengthOf p0) := by
  have first : leNat [BitVec.ofNat 8 p0, BitVec.ofNat 8 (p0 / 256)] = p0 := leNat_parcel_append hp []
  have whole : (BitVec.ofNat 8 p0 :: BitVec.ofNat 8 (p0 / 256) :: bs).length = lengthOf p0 := hl
  simp only [decodeBytes, first, whole]
  rw [if_neg (Nat.lt_irrefl _), List.take_of_length_le (Nat.le_of_eq whole)]

theorem decodeBytes_parcelBytes {ps : List Nat} {p0 : Nat} (h : ∀ p ∈ ps, p < 2 ^ 16) (hd : ps.head? = some p0)
    (hn : ps.length = parcels p0) : decodeBytes (parcelBytes ps) = some (decodeWord (joined ps), 2 * ps.length) := by
  obtain ⟨rest, rfl⟩ := List.head?_eq_some_iff.1 hd
  have length : lengthOf p0 = 2 * (p0 :: rest).length := by rw [lengthOf_eq_two_mul_parcels, hn]
  have enough : (parcelBytes rest).length + 2 = lengthOf p0 := by rw [parcelBytes_length, length, List.length_cons]; omega
  rw [← leNat_parcelBytes h, ← length]
  exact decodeBytes_whole (h p0 List.mem_cons_self) enough

/-! ### The fetch of parcels (R64, R84) -/

theorem joined_concat (ps : List Nat) (q : Nat) : joined (ps ++ [q]) = joined ps + q * 2 ^ (16 * ps.length) := by
  induction ps with
  | nil => simp only [List.nil_append, joined, List.length_nil, Nat.mul_zero, Nat.pow_zero, Nat.mul_one, Nat.zero_add, Nat.add_zero]
  | cons p ps ih =>
    calc joined (p :: (ps ++ [q]))
      _ = p + 2 ^ 16 * (joined ps + q * 2 ^ (16 * ps.length)) := by rw [joined, ih]
      _ = joined (p :: ps) + q * (2 ^ (16 * ps.length) * 2 ^ 16) := by
        rw [joined, Nat.mul_add, ← Nat.add_assoc, Nat.mul_comm (2 ^ 16) (q * _), Nat.mul_assoc]
      _ = joined (p :: ps) + q * 2 ^ (16 * (p :: ps).length) := by
        rw [List.length_cons, Nat.mul_add 16, Nat.mul_one, Nat.pow_add]

/-- R84: the fetch of the parcel after the first `i + 1`, which adds its bits above theirs or fails with the detail of 0x004. -/
def fetchNext (w : View) (pc : Dbl) (p0 : Nat) (acc : Except Nat (Nat × Nat)) (i : Nat) : Except Nat (Nat × Nat) :=
  match acc with
  | .error e => .error e
  | .ok (x, k) => match parcel w (pc + BitVec.ofNat 64 (2 * (i + 1))) with
    | some q => .ok (x + q * 2 ^ (16 * (i + 1)), k)
    | none => .error (2 ^ 16 * (i + 1) + p0)

theorem fetchNext_ok {w : View} {pc : Dbl} {i q : Nat} (p0 x k : Nat)
    (hq : parcel w (pc + BitVec.ofNat 64 (2 * (i + 1))) = some q) :
    fetchNext w pc p0 (.ok (x, k)) i = .ok (x + q * 2 ^ (16 * (i + 1)), k) := by
  simp only [fetchNext, hq]

/-- A fetch whose first parcel is readable fetches the others in turn, as many as the first one says. -/
theorem fetchWord_of_first {w : View} {pc : Dbl} {p0 : Nat} (h : parcel w pc = some p0) :
    fetchWord w pc = (List.range (parcels p0 - 1)).foldl (fetchNext w pc p0) (.ok (p0, 2 * parcels p0)) := by
  have count : lengthOf p0 / 2 = parcels p0 := by rw [lengthOf_eq_two_mul_parcels]; omega
  unfold fetchWord
  rw [h, ← count]
  rfl

/-- Fetching the `m` parcels after the first joins the first `m + 1`. -/
theorem foldl_fetchNext {w : View} {pc : Dbl} {p0 : Nat} {rest : List Nat} (k : Nat)
    (h : ∀ i p, rest[i]? = some p → parcel w (pc + BitVec.ofNat 64 (2 * (i + 1))) = some p) (m : Nat) (hm : m ≤ rest.length) :
    (List.range m).foldl (fetchNext w pc p0) (.ok (p0, k)) = .ok (joined (p0 :: rest.take m), k) := by
  induction m with
  | zero => simp only [List.range_zero, List.foldl_nil, List.take_zero, joined, Nat.mul_zero, Nat.add_zero]
  | succ m ih =>
    have next := h m rest[m] (List.getElem?_eq_getElem hm)
    have grown : joined (p0 :: rest.take (m + 1)) = joined (p0 :: rest.take m) + rest[m] * 2 ^ (16 * (m + 1)) := by
      have count : (p0 :: rest.take m).length = m + 1 := by
        rw [List.length_cons, List.length_take, Nat.min_eq_left (Nat.le_of_succ_le hm)]
      rw [← List.take_append_getElem hm, ← List.cons_append, joined_concat, count]
    rw [List.range_succ, List.foldl_append, ih (Nat.le_of_succ_le hm), grown, List.foldl_cons, List.foldl_nil]
    exact fetchNext_ok p0 _ k next

theorem fetchWord_joined {w : View} {pc : Dbl} {ps : List Nat} {p0 : Nat} (hd : ps.head? = some p0) (hn : ps.length = parcels p0)
    (h : ∀ i p, ps[i]? = some p → parcel w (pc + BitVec.ofNat 64 (2 * i)) = some p) :
    fetchWord w pc = .ok (joined ps, 2 * ps.length) := by
  obtain ⟨rest, rfl⟩ := List.head?_eq_some_iff.1 hd
  have first : parcel w pc = some p0 := by
    rw [← BitVec.add_zero pc]
    exact h 0 p0 rfl
  have others : parcels p0 - 1 = rest.length := by rw [← hn, List.length_cons, Nat.add_sub_cancel]
  rw [fetchWord_of_first first, others, foldl_fetchNext _ (fun i p hp => h (i + 1) p hp) _ (Nat.le_refl _), List.take_length, hn]

/-- Settles O55: the bytes of the parcels have the value of the joined parcels, and the fetch joins one parcel after another. -/
theorem instructionLength : Obligations.InstructionLength :=
  ⟨fun _ h _ hd hn => decodeBytes_parcelBytes h hd hn, fun _ _ _ _ hd hn h => fetchWord_joined hd hn h, parcels_of_bits⟩

end Sys2Proof.Machine
end

section
/-! The uniform unit (spec 07, R113): what each operation of majors 0x18, 0x19 and 0x0A computes on 32-bit words, and what issuing
one leaves of the team. -/
namespace Sys2Proof.Machine

open Sys2Proof.Spec

/-! ### The integer operations on words (R40, R113) -/

theorem asInt_signed_toNat (a : Word) : asInt 32 true a.toNat = a.toInt := by
  rw [BitVec.toInt_eq_toNat_cond]
  simp only [asInt, sextN, if_true, Nat.mod_eq_of_lt a.isLt]
  split <;> split <;> omega

theorem asInt_unsigned_toNat (a : Word) : asInt 32 false a.toNat = (a.toNat : Int) := by
  simp only [asInt, Bool.false_eq_true, if_false, Nat.mod_eq_of_lt a.isLt]

/-- R40: without `.sat` the result is the exact value modulo 2^32. -/
theorem ofNat_narrow (signed : Bool) (x : Int) : BitVec.ofNat 32 (narrow 32 signed false x) = BitVec.ofInt 32 x := by
  apply BitVec.eq_of_toNat_eq
  simp only [narrow, Bool.false_eq_true, if_false, BitVec.toNat_ofNat, BitVec.toNat_ofInt]
  omega

/-- The integer operation `f` of the model, at 32 bits and without saturation, is the word operation `g` of the statement. -/
def Computes (f : IntFn) (signed : Bool) (g : WordOp) : Prop :=
  ∀ a b : Word, BitVec.ofNat 32 (f 32 signed false a.toNat b.toNat 0) = g a b

theorem iAdd_computes : Computes iAdd true (· + ·) := fun a b => by
  simp only [iAdd, ofNat_narrow, asInt_signed_toNat, BitVec.ofInt_add, BitVec.ofInt_toInt]

theorem iSub_computes : Computes iSub true (· - ·) := fun a b => by
  simp only [iSub, ofNat_narrow, asInt_signed_toNat, Int.sub_eq_add_neg, BitVec.ofInt_add, BitVec.ofInt_neg, BitVec.ofInt_toInt,
    BitVec.sub_eq_add_neg]

theorem iMul_computes : Computes iMul true (· * ·) := fun a b => by
  simp only [iMul, ofNat_narrow, asInt_signed_toNat, BitVec.ofInt_mul, BitVec.ofInt_toInt]

theorem iAnd_computes : Computes iAnd true (· &&& ·) := fun a b =>
  (BitVec.ofNat_and (x := a.toNat) (y := b.toNat)).trans (by simp only [BitVec.ofNat_toNat, BitVec.setWidth_eq])

theorem iOr_computes : Computes iOr true (· ||| ·) := fun a b =>
  (BitVec.ofNat_or (x := a.toNat) (y := b.toNat)).trans (by simp only [BitVec.ofNat_toNat, BitVec.setWidth_eq])

theorem iXor_computes : Computes iXor true (· ^^^ ·) := fun a b =>
  (BitVec.ofNat_xor (x := a.toNat) (y := b.toNat)).trans (by simp only [BitVec.ofNat_toNat, BitVec.setWidth_eq])

/-- R40: an amount of the width or more gives 0. -/
theorem iShl_computes : Computes iShl true shl := fun a b => by
  unfold iShl shl
  split
  case isTrue h => exact (BitVec.shiftLeft_eq_zero h).symm
  case isFalse h =>
    apply BitVec.eq_of_toNat_eq
    simp only [BitVec.toNat_ofNat, BitVec.toNat_shiftLeft, Nat.shiftLeft_eq, Nat.mod_mod]

/-- R40: an amount of the width or more gives 0. -/
theorem iShr_computes : Computes iShr true shr := fun a b => by
  unfold iShr shr
  split
  case isTrue h => exact (BitVec.ushiftRight_eq_zero h).symm
  case isFalse h =>
    apply BitVec.eq_of_toNat_eq
    rw [BitVec.toNat_ofNat, BitVec.toNat_ushiftRight, Nat.shiftRight_eq_div_pow]
    exact Nat.mod_eq_of_lt (Nat.lt_of_le_of_lt (Nat.div_le_self _ _) a.isLt)

/-- R40: from the width on, a larger amount changes nothing more: every bit is the sign. -/
theorem sshiftRight_min_width (a : Word) (n : Nat) : a.sshiftRight (min n 32) = a.sshiftRight n := by
  ext i hi
  by_cases h : n ≤ 32
  · rw [Nat.min_eq_left h]
  · rw [Nat.min_eq_right (by omega), BitVec.getElem_sshiftRight, BitVec.getElem_sshiftRight, dif_neg (by omega), dif_neg (by omega)]

theorem iSar_computes : Computes iSar true sar := fun a b => by
  have exact_value : sextN a.toNat 32 = a.toInt := asInt_signed_toNat a
  simp only [iSar, ofNat_narrow, exact_value, sar]
  rw [← sshiftRight_min_width, BitVec.sshiftRight, Int.shiftRight_eq_div_pow]
  rfl

theorem ofInt_min (x y : Int) : BitVec.ofInt 32 (min x y) = if x < y then BitVec.ofInt 32 x else BitVec.ofInt 32 y := by
  split
  case isTrue h => rw [Int.min_eq_left (Int.le_of_lt h)]
  case isFalse h => rw [Int.min_eq_right (Int.not_lt.1 h)]

theorem ofInt_max (x y : Int) : BitVec.ofInt 32 (max x y) = if x < y then BitVec.ofInt 32 y else BitVec.ofInt 32 x := by
  split
  case isTrue h => rw [Int.max_eq_right (Int.le_of_lt h)]
  case isFalse h => rw [Int.max_eq_left (Int.not_lt.1 h)]

theorem iMin_computes_signed : Computes iMin true smin := fun a b => by
  simp only [iMin, ofNat_narrow, asInt_signed_toNat, ofInt_min, BitVec.ofInt_toInt, smin, BitVec.slt, decide_eq_true_eq]

theorem iMax_computes_signed : Computes iMax true smax := fun a b => by
  simp only [iMax, ofNat_narrow, asInt_signed_toNat, ofInt_max, BitVec.ofInt_toInt, smax, BitVec.slt, decide_eq_true_eq]

theorem iMin_computes_unsigned : Computes iMin false umin := fun a b => by
  simp only [iMin, ofNat_narrow, asInt_unsigned_toNat, ofInt_min, BitVec.ofInt_natCast, BitVec.ofNat_toNat,
    BitVec.setWidth_eq, Int.ofNat_lt, umin, BitVec.ult, decide_eq_true_eq]

theorem iMax_computes_unsigned : Computes iMax false umax := fun a b => by
  simp only [iMax, ofNat_narrow, asInt_unsigned_toNat, ofInt_max, BitVec.ofInt_natCast, BitVec.ofNat_toNat,
    BitVec.setWidth_eq, Int.ofNat_lt, umax, BitVec.ult, decide_eq_true_eq]

/-- R73: the conditions of KCMP, the signed ones on the signed values and those from 6 on on the unsigned ones. -/
theorem wideCond_toNat (c : Nat) (a b : Word) : wideCond 32 c a.toNat b.toNat = kcond c a b := by
  have signed : c < 6 → wideCond 32 c a.toNat b.toNat = intCond c a.toInt b.toInt := fun h => by
    rw [wideCond, if_pos h, asInt_signed_toNat, asInt_signed_toNat]
  have unsigned : 6 ≤ c → wideCond 32 c a.toNat b.toNat = intCond (c - 4) (a.toNat : Int) (b.toNat : Int) := fun h => by
    rw [wideCond, if_neg (by omega)]
  match c with
  | 0 => exact (signed (by omega)).trans (decide_eq_decide.2 BitVec.toInt_inj)
  | 1 => exact (signed (by omega)).trans ((decide_eq_decide.2 (not_congr BitVec.toInt_inj)).trans decide_not)
  | 2 | 3 | 4 | 5 => exact signed (by omega)
  | 6 | 8 => exact (unsigned (by omega)).trans (decide_eq_decide.2 Int.ofNat_lt)
  | 7 | _ + 9 => exact (unsigned (by omega)).trans (decide_eq_decide.2 Int.ofNat_le)

/-! ### Issuing a uniform operation (R66, R83) -/

/-- What an instruction of the uniform unit does under its register checks, as `L` describes it. -/
def issueUniform (L : UniSpec) (s : State) : Out :=
  withTeam s [] [] (L.ks.map fun n => (n, 1)) (kd := [(L.kd, 1)]) fun t => finish s (kset t L.kd (L.val t)) L.len

/-- The model gives the instruction the meaning that `L` describes, with a destination among k0 to k63. -/
structure Performs (i : Instr) (L : UniSpec) : Prop where
  register : L.kd < 64
  meaning : ∀ s, exec i s = issueUniform L s

theorem withTeam_uniforms {s : State} {t : Team} {kd : List (Nat × Nat)} {ks : List Nat} (f : Team → Out) (hc : Current s t)
    (hu : Uniforms t kd (ks.map fun n => (n, 1))) : withTeam s [] [] (ks.map fun n => (n, 1)) f kd = f t := by
  have aligned : groupFault t [] (kd ++ ks.map fun n => (n, 1)) = none := groupFault_none hu.aligned (List.forall_mem_nil _)
  have sound : badSource t [] (ks.map fun n => (n, 1)) none = none := badSource_none (List.forall_mem_nil _) (by
    intro x hx n hn ⟨low, high, nonzero⟩
    obtain ⟨k, _, rfl⟩ := List.mem_map.1 hx
    exact hu.sound (k, 1) hx n hn ⟨by omega, low, high⟩)
  exact withTeam_run f hc.team hc.live hc.lanes aligned sound

theorem wroteUniform_next_kset (t : Team) {d : Nat} (x : Word) (len : Nat) (hd : d < 64) :
    WroteUniform t (next (kset t d x) len) d x where
  written h := (kget_kset t x hd).trans (if_pos ⟨h, rfl⟩)
  kept n hn := (kget_kset t x hd).trans (if_neg fun h => hn h.2)
  zero := if_pos rfl
  errors n := by
    unfold next kset
    split
    case isTrue h => simp [h]
    case isFalse h => simp [h]

theorem Performs.runs {i : Instr} {L : UniSpec} {s : State} {t : Team} (h : Performs i L) (hc : Current s t)
    (hu : Uniforms t [(L.kd, 1)] (L.ks.map fun n => (n, 1))) : UniRuns s t i L := by
  have lanes : (kset t L.kd (L.val t)).mask ≠ 0 := by rw [kset_eq]; exact hc.lanes
  refine ⟨next (kset t L.kd (L.val t)) L.len, ?_, wroteUniform_next_kset t (L.val t) L.len h.register, ?_⟩
  · rw [Gives, h.meaning, issueUniform, withTeam_uniforms _ hc hu, finish_run _ _ _ lanes]
    rfl
  · unfold next; rw [kset_eq]

theorem sub_six_lt (x : BitVec 7) : sub x 0 6 < 64 := Nat.mod_lt _ (by decide)

/-- The register forms of major 0x18 (R73). -/
theorem performs_rk {i : Instr} {o : RK} {f : IntFn} {signed : Bool} {g : WordOp} (hf : Computes f signed g)
    (hi : ∀ s, exec i s = uniRK o f signed s) : Performs i (rk o g) where
  register := o.d.isLt
  meaning s := by simp only [hi, uniRK, hf _ _]; rfl

/-- The immediate forms of major 0x0A (R79). -/
theorem performs_rkImm {i : Instr} {o : I64} {f : IntFn} {signed : Bool} {g : WordOp} (hf : Computes f signed g)
    (hi : ∀ s, exec i s = uniImm o f signed s) : Performs i (rkImm o g) where
  register := sub_six_lt o.vd
  meaning s := by simp only [hi, uniImm, hf _ _]; rfl

/-- R73, R79, R113: the model performs each uniform operation as its description says; the legality of the fields is not needed. -/
theorem performs_of_uniform {i : Instr} {L : UniSpec} (h : uniform i = some L) : Performs i L := by
  unfold uniform at h
  split at h <;> cases h
  next o => exact ⟨o.d.isLt, fun _ => rfl⟩
  next o => exact performs_rk iAdd_computes fun _ => rfl
  next o => exact performs_rk iSub_computes fun _ => rfl
  next o => exact performs_rk iMul_computes fun _ => rfl
  next o => exact performs_rk iAnd_computes fun _ => rfl
  next o => exact performs_rk iOr_computes fun _ => rfl
  next o => exact performs_rk iXor_computes fun _ => rfl
  next o => exact performs_rk iShl_computes fun _ => rfl
  next o => exact performs_rk iShr_computes fun _ => rfl
  next o => exact performs_rk iSar_computes fun _ => rfl
  next o => exact performs_rk iMin_computes_signed fun _ => rfl
  next o => exact performs_rk iMax_computes_signed fun _ => rfl
  next o => exact performs_rk iMin_computes_unsigned fun _ => rfl
  next o => exact performs_rk iMax_computes_unsigned fun _ => rfl
  next o => exact ⟨o.d.isLt, fun s => by simp only [issueUniform, ← wideCond_toNat]; rfl⟩
  next o => exact ⟨sub_six_lt o.vd, fun _ => rfl⟩
  next o => exact performs_rkImm iAdd_computes fun _ => rfl
  next o => exact performs_rkImm iSub_computes fun _ => rfl
  next o => exact performs_rkImm iMul_computes fun _ => rfl
  next o => exact performs_rkImm iAnd_computes fun _ => rfl
  next o => exact performs_rkImm iOr_computes fun _ => rfl
  next o => exact performs_rkImm iXor_computes fun _ => rfl
  next o => exact performs_rkImm iShl_computes fun _ => rfl
  next o => exact performs_rkImm iShr_computes fun _ => rfl
  next o => exact performs_rkImm iSar_computes fun _ => rfl
  next o => exact performs_rkImm iMin_computes_signed fun _ => rfl
  next o => exact performs_rkImm iMax_computes_signed fun _ => rfl
  next o => exact performs_rkImm iMin_computes_unsigned fun _ => rfl
  next o => exact performs_rkImm iMax_computes_unsigned fun _ => rfl
  next o => exact ⟨sub_six_lt o.vd, fun s => by simp only [issueUniform, ← wideCond_toNat]; rfl⟩

/-- Settles O11: each uniform operation issues once, writes the word its description gives to kd, and the pc moves on. -/
theorem uniformOperations : Obligations.UniformOperations :=
  fun _ _ _ _ hi _ hc hu => (performs_of_uniform hi).runs hc hu

end Sys2Proof.Machine
end
